-- ==== Sys2Proof/Word.lean ====
section
/-! DEFINITION. The word types of the part: bytes, the 64-bit word of an Ortan core, byte strings,
and the table type that every sparse store of the machine uses. -/

namespace Sys2Proof

/-- A byte (00_scope.md R7). -/
abbrev Byte := BitVec 8

/-- The 64-bit word of a general register (09_ortan_instruction_set.md R307). -/
abbrev Word := BitVec 64

/-- A string of bytes, byte 0 first (00_scope.md R7). -/
abbrev Bytes := List (BitVec 8)

/-- A sparse table: (key, value) pairs, keys strictly rising. What an absent key reads as is fixed by
the table's reader; no entry equals it. -/
abbrev Tab (α : Type) := List (Nat × α)

end Sys2Proof
end

