-- ==== Sys2Proof/Machine/KeyState.lean ====
section
/-! DEFINITION. State of the key store, the cipher cells, the digest engines and the public-key engines
(chapters 06 to 08). Key material stands in clear in the model's tables: the wrapping, the shares and the
record MACs that protect it in the part are the model's abstraction (log 15). -/

namespace Sys2Proof.Machine

/-- STATE of a slot record (Table 08-5), in the order of its values. -/
inductive SlotState where
  | unassigned | empty | active | reserved | blocked
deriving DecidableEq, Repr

/-- A slot record (Table 08-3) with its material, extension and key block. -/
structure Slot where
  state : SlotState := .unassigned
  alg : Nat := 0
  mkg : Bool := false
  cntOvf : Bool := false
  ext : Bool := false
  blob : Bool := false
  pinned : Bool := false
  replicated : Bool := false
  exportable : Bool := false
  usage : Nat := 0
  tenant : Nat := 0
  kcv : Nat := 0
  ksrc : Nat := 0
  uses : Nat := 0
  useLimit : Nat := 0
  notBefore : Nat := 0
  notAfter : Nat := 0
  version : Nat := 0
  extIndex : Nat := 0
  /-- BLOB record: protection key's slot, length and algorithm of the key block's key (Table 08-6) -/
  kbpkSlot : Nat := 0
  keyAlg : Nat := 0
  material : Bytes := []
  pub : Bytes := []
  keyBlock : Bytes := []
  /-- the record's or the extension's MAC fails (R276) -/
  macBad : Bool := false
  usesImaged : Nat := 0
  /-- the context that claimed the slot: channel * 16 + context (R288) -/
  claim : Option Nat := none
deriving DecidableEq, Repr

/-- TSTATE of a tenant record (Table 08-2), in the order of its values. -/
inductive TState where
  | absent | active | suspended | deleting
deriving DecidableEq, Repr

/-- A tenant record (Table 08-2). -/
structure Tenant where
  state : TState := .absent
  blob : Bool := false
  replicated : Bool := false
  mkg : Bool := false
  headerSlot : Nat := 0
  quota : Nat := 0
  assigned : Nat := 0
  mkgen : Nat := 0
  version : Nat := 0
  created : Nat := 0
  tk : Bytes := []
  /-- replicated records held until they agree with a neighbour's (R294) -/
  resync : Bool := false
deriving DecidableEq, Repr

/-- A key-store image (Table 08-16): generation, master key identity and generation, its tables, and whether its MAC
verifies. -/
structure KsImage where
  gen : Nat
  mkid : Bytes
  mkgen : Nat
  tenants : Tab Tenant
  slots : Tab Slot
  macOk : Bool := true
deriving DecidableEq, Repr

/-- The anchor record of the last image written whole (R295). -/
structure Anchor where
  gen : Nat
  digest : Bytes
deriving DecidableEq, Repr

/-- An image being written (R297): generation, digest of its body, buffer, whether a restrictive commit
waits for it, and USES of each limited slot in the snapshot. -/
structure ImageJob where
  gen : Nat
  digest : Bytes
  buffer : Nat
  forCommit : Bool := false
  uses : List (Nat × Nat) := []
  content : KsImage
deriving DecidableEq, Repr

/-- The key store (chapter 08). -/
structure KeyStore where
  /-- master key register W0 to W3 -/
  w0 : BitVec 256 := 0
  w1 : BitVec 256 := 0
  w2 : BitVec 256 := 0
  w3 : BitVec 256 := 0
  /-- root registers SR and IR -/
  rootS : BitVec 256 := 0
  rootI : BitVec 256 := 0
  rootsPresent : Bool := false
  mkid : Bytes := []
  mkgen : Nat := 0
  /-- a rollover is in progress (R264) -/
  rollover : Bool := false
  /-- the lifecycle's zeroization: OD 0x5000.01 reads ZEROIZED -/
  zeroized : Bool := false
  missing : Bool := false
  tenants : Tab Tenant := []
  slots : Tab Slot := []
  /-- resident key cache entries, most recently used first (R281) -/
  cache : List Nat := []
  tkCache : List Nat := []
  /-- fills in flight, at most 16, and fetches that wait for one -/
  fills : List Nat := []
  fillQueue : List Nat := []
  /-- entries whose USES, STATE or CNT_OVF is not written back (R285) -/
  dirty : List Nat := []
  /-- the key store changed since the last image's snapshot (R297) -/
  changed : Bool := false
  lastImage : Nat := 0
  image : Option ImageJob := none
  anchor : Option Anchor := none
  nextBuffer : Nat := 0
  /-- images in the host buffers A and B as the part last wrote them -/
  bufferA : Option KsImage := none
  bufferB : Option KsImage := none
  /-- tenants whose scrub is running (R266) -/
  scrubs : List Nat := []
deriving DecidableEq, Repr

/-- A key handle of a request context (R205). -/
structure Handle where
  alg : Nat
  material : Bytes
  usage : Nat := 0
  exportable : Bool := false
deriving DecidableEq, Repr

/-- A cipher descriptor in flight (R206). -/
structure CipherJob where
  ctx : Nat
  core : Nat
  off : Nat
  desc : Bytes
  cells : List Nat := []
  key0 : Option Handle := none
  key1 : Option Handle := none
  /-- slots whose fills it waits for -/
  waits : List Nat := []
  cstat : Nat := 0
  cdetail : Nat := 0
  /-- a cell of it is stopped for want of a mask seed (R224) -/
  stalled : Bool := false
  c0 : Bool := false
  /-- the decoy issued with it: its cell, and whether it runs a known-answer check (R220) -/
  decoy : Option (Nat × Bool) := none
deriving DecidableEq, Repr

/-- States of a generator (Table 06-8), in the order of their values. -/
inductive GenState where
  | unseeded | running | reseedDue | short | failed
deriving DecidableEq, Repr

/-- One CTR_DRBG instance (R222). -/
structure Drbg where
  seeded : Bool := false
  seed : Bytes := []
  due : Bool := false
  limited : Bool := false
deriving DecidableEq, Repr

/-- A generator: a channel's has ten instances, those outside the channels two (R222, R229, R280). -/
structure Generator where
  state : GenState := .unseeded
  inst : Tab Drbg := []
  dueSince : Nat := 0
deriving DecidableEq, Repr

/-- A digest job (R238): Tables 07-4 and 07-5. -/
structure DigestJob where
  ctx : Nat
  core : Nat
  off : Nat
  desc : Bytes
  frag : Option Bytes := none
  waits : List Nat := []
  jstat : Nat := 0
  jdetail : Nat := 0
  c0 : Bool := false
  /-- engine it runs on; none while it waits -/
  engine : Option Nat := none
  suspended : Bool := false
deriving DecidableEq, Repr

/-- A public-key descriptor in flight (R249, R257). -/
structure PkJob where
  ctx : Nat
  core : Nat
  off : Nat
  desc : Bytes
  key : Option Handle := none
  pub : Bytes := []
  waits : List Nat := []
  pstat : Nat := 0
  pdetail : Nat := 0
  c0 : Bool := false
  engine : Option Nat := none
deriving DecidableEq, Repr

/-- The cells and engines of a channel. -/
structure Engines where
  cipher : List CipherJob := []
  /-- retired cells by number -/
  retired : List Nat := []
  decoyCount : Nat := 0
  loadSeq : BitVec 16 := 0
  gen : Generator := {}
  digest : List DigestJob := []
  pk : List PkJob := []
  /-- withdrawn digest and public-key engines -/
  digestOut : List Nat := []
  pkOut : List Nat := []
  /-- ephemeral private key of a public-key engine: context and key -/
  eph : Tab (Nat × Bytes) := []
  /-- SLOTCLAIM_ST of each core (Table 08-14) -/
  slotSt : Tab Nat := []
deriving DecidableEq, Repr

end Sys2Proof.Machine
end

