-- ==== Sys2Proof/Machine/PlinthState.lean ====
section
/-! DEFINITION. State of the Plinth die: lifecycle, fuses, boot, flash and firmware banks (chapter 16). -/

namespace Sys2Proof.Machine

/-- Lifecycle states (Table 16-9), in the order of their values. -/
inductive LifeState where
  | manufacture | initial | operational | recovery | zeroized | decommissioned
deriving DecidableEq, Repr

/-- What boot waits for while it stands between steps (R539, R540, R624). -/
inductive BootWait where
  | no | supply | clock | keyStore | partner | sdCard
deriving DecidableEq, Repr

/-- STATE of a firmware bank (OD 0x8020.02), in the order of its values. -/
inductive BankState where
  | empty | loaded | trial | confirmed | invalid
deriving DecidableEq, Repr

/-- A firmware bank: the pair it holds (R546). -/
structure Bank where
  state : BankState := .empty
  release : Nat := 0
  secver : Nat := 0
  compatMin : Nat := 0
  compatMax : Nat := 0
  /-- bytes of the pair -/
  len : Nat := 0
deriving DecidableEq, Repr

/-- The Plinth fuse array (Table 16-8). A triplet is held as the number of its bits at 1. -/
structure Fuses where
  pairingKey : BitVec 256 := 0
  idSeed : BitVec 256 := 0
  vendorKeyHash : BitVec 256 := 0
  serial : BitVec 64 := 0
  shipped : Nat := 0
  decommissioned : Nat := 0
  reinit : List Nat := [0, 0, 0, 0, 0, 0, 0, 0]
  /-- firmware security version -/
  rollback : Nat := 0
  check : BitVec 128 := 0
deriving DecidableEq, Repr

/-- The lifecycle, boot and the firmware banks (R534 to R550). -/
structure Life where
  state : LifeState := .manufacture
  /-- a debug unlock ceremony has been completed since the last reset -/
  unlocked : Bool := false
  /-- boot has ended in BOOT_HALT (R541) -/
  halted : Bool := false
  /-- the 64-byte boot record -/
  bootRecord : Bytes := []
  fuses : Fuses := {}
  /-- last boot step completed, 9 at the end of boot; device time of the release of reset -/
  step : Nat := 0
  bootAt : Nat := 0
  wait : BootWait := .no
  waitSince : Nat := 0
  result : Nat := 0
  bankA : Bank := {}
  bankB : Bank := {}
  /-- bank that the selection record names: false A, true B -/
  selB : Bool := false
  /-- OD 0x8020.05: 0 idle, 1 activating, 2 trial, 3 reverting -/
  act : Nat := 0
  trialAt : Nat := 0
  /-- a restart of the Plinth firmware from the bank named is awaited (steps 3 and 4 of Table 16-15, R549) -/
  fwRestart : Bool := false
  /-- channels that have not taken the new runtime yet -/
  olds : List Nat := []
  /-- a reset during the trial has booted the TRIAL bank; its boot took a failure exit (R550) -/
  trialBooted : Bool := false
  trialFailed : Bool := false
deriving DecidableEq, Repr

/-- A channel's boot self-test: the phase it fails or 0, spare rows taken, cells and engines that fail. -/
structure BootTest where
  chan : Nat
  failPhase : Nat := 0
  spares : Nat := 0
  cells : List Nat := []
  digests : List Nat := []
  pks : List Nat := []
deriving DecidableEq, Repr

/-- What boot finds at its steps (Tables 16-11 and 16-12), and the µs at which each step completes. -/
structure BootIn where
  /-- real-time count at the release -/
  rtc : Nat := 0
  rails : Bool := true
  checkOk : Bool := true
  clock : Bool := true
  /-- step before whose end the ROM faults, 0 for none -/
  romFault : Nat := 0
  /-- alarms 0x00 and 0x01 that the check of the Armature raises -/
  armature : List Nat := []
  /-- the bank's pair passes the checks of R546 that its bytes decide -/
  bankA : Bool := true
  bankB : Bool := true
  /-- 0 the link comes up, 1 the link-key unwrap fails, 2 the third training fails -/
  link : Nat := 0
  /-- C in GiB of all eight channels; 0: population or training fails -/
  ddr : Nat := 32
  devices : Tab Bytes := []
  /-- the digest of the configuration store copy verifies -/
  storeA : Bool := true
  storeB : Bool := true
  /-- image in the buffer that the anchor names: 0 link or buffer not available, 1 as the part wrote it, 2 other -/
  image : Nat := 1
  /-- channels whose test found something; any other passes with nothing to report -/
  tests : List BootTest := []
  t : List Nat := []
deriving DecidableEq, Repr

/-- A physical flash block (R517, R523, R530). -/
structure FlashBlock where
  erases : Nat := 0
  /-- lowest page that may be programmed -/
  nextPage : Nat := 0
  locked : Bool := false
  worst : Nat := 0
  longProgram : Nat := 0
  longErase : Nat := 0
  /-- 0 good, 1 WORN, 2 retired -/
  state : Nat := 0
  /-- stage 2 of Table 16-7: no further PROGRAM, retired once its live data has moved -/
  closed : Bool := false
  /-- content left unspecified by a loss of power (R524) -/
  unspecified : Bool := false
deriving DecidableEq, Repr

/-- The flash array and its controller (Tables 16-2 to 16-4). -/
structure Flash where
  cfg : Nat := 0x0008000F
  addr : Nat := 0
  busy : Bool := false
  suspended : Bool := false
  sblock : Nat := 0
  lastCmd : Nat := 0
  result : Nat := 0
  rstatus : Nat := 0
  runit : Nat := 0
  count : Nat := 0
  /-- FL_TIME: program time, µs, and erase time, 10 µs units -/
  tProgram : Nat := 0
  tErase : Nat := 0
  warns : Nat := 0
  /-- the Plinth's flash-warning event is raised (R522) -/
  warnEvent : Bool := false
  /-- Plinth clock, MHz (R525) -/
  mhz : Nat := 100
  /-- error count of each unit that has one, as its last reading or rewriting left it; 60 uncorrectable -/
  units : Tab Nat := []
  /-- FL_PBUF by byte -/
  pbuf : Tab Byte := []
  /-- command running: opcode, page or block, and the bytes being programmed -/
  running : Option (Nat × Nat × Bytes) := none
  /-- device time of the erase's start or last resume -/
  runSince : Nat := 0
  /-- programmed pages by number; an unlisted page is erased -/
  pages : Tab Bytes := []
  blocks : Tab FlashBlock := []
  /-- block map: physical block of each logical block that has been replaced (R518) -/
  map : Tab Nat := []
  /-- spare physical blocks left -/
  spares : List Nat := [230, 231, 232, 233, 234, 235, 236, 237, 238, 239, 240, 241, 242, 243, 244, 245, 246, 247, 248, 249, 250,
    251, 252, 253, 254, 255]
  retired : Nat := 0
deriving DecidableEq, Repr

end Sys2Proof.Machine
end

