-- ==== Sys2Proof/Machine/CardState.lean ====
section
/-! DEFINITION. State of the card interfaces: SD cards and their volumes, the SD slot, officer cards, the roster
and ceremonies (chapter 17). The contents of a card arrive with it, so the card types serve the commands too. -/

namespace Sys2Proof.Machine

/-- A record of an acknowledgement set (R567). -/
structure AckRec where
  cpSeq : Nat
  link : Bytes
  slot : Nat
  rsv : Nat
  sig : Bytes
deriving DecidableEq, Repr

/-- Payload of a set by STYPE (Table 17-4): a key-store image, exported entries with statements, a firmware pair with
the result of R546, acknowledgement records. -/
inductive SetBody where
  | backup (image : KsImage)
  | exported (entries statements : List Bytes)
  | recovery (pair : Bank) (passes : Bool)
  | ack (records : List AckRec)
deriving DecidableEq, Repr

/-- A set of a volume (R562, R563): number, first block, data blocks, header fields. -/
structure CardSet where
  no : Nat
  first : Nat
  blocks : Nat
  serial : Bytes := []
  created : Nat := 0
  mkid : Bytes := []
  d1 : Nat := 0
  d2 : Nat := 0
  body : SetBody
  /-- header, commit block and SET_DIGEST verify (R563, R564) -/
  committed : Bool := true
deriving DecidableEq, Repr

/-- An SD card as it is inserted: its registers, what it supports, and its volume (R554, R560). -/
structure SdCard where
  cid : Bytes := []
  csd : Bytes := []
  scr : Bytes := []
  ocr : Nat := 0
  /-- CCS set -/
  sdhc : Bool := true
  locked : Bool := false
  /-- S18A, and the fastest mode it supports -/
  s18 : Bool := false
  mode : Nat := 0
  capacity : Nat := 0
  perm : Bool := false
  tmp : Bool := false
  /-- VOLUME_ID of a valid volume header -/
  volume : Option Bytes := none
  sets : List CardSet := []
  recoveryRecord : Bytes := []
deriving DecidableEq, Repr

/-- States of the SD slot (OD 0x8100.01), in the order of their values. -/
inductive SdState where
  | empty | powering | identifying | ready | asleep | busy | refused | failed
deriving DecidableEq, Repr

/-- The SD slot (R553 to R559, R565). -/
structure Sd where
  state : SdState := .empty
  card : Option SdCard := none
  cid : Bytes := []
  csd : Bytes := []
  scr : Bytes := []
  ocr : Nat := 0
  mode : Nat := 0
  width : Nat := 0
  /-- set being written, and its data blocks written so far -/
  job : Option CardSet := none
  written : Nat := 0
  lastXfer : Nat := 0
  /-- OD 0x8102.05 -/
  outcome : Bytes := []
  /-- OD 0x7114.03 -/
  ackRefused : Nat := 0xFFFFFFFF
  -- pins
  clk : Bool := false
  pwrEn : Bool := false
  vsel : Bool := false
deriving DecidableEq, Repr

/-- States of a contact slot (OD 0x810k.01), in the order of their values. -/
inductive OfficerState where
  | empty | activating | ready | inCeremony | refused
deriving DecidableEq, Repr

/-- A contact slot (R571 to R574). `step`: the command whose answer is awaited: 0 none, 1 SELECT, 2 GET_IDENTITY,
3 AUTHENTICATE, 4 PUT_SHARE, 5 GET_SHARE, 6 GET_COMPONENT. -/
structure OfficerSlot where
  state : OfficerState := .empty
  atr : Bytes := []
  t1 : Bool := false
  classA : Bool := false
  /-- OFFICER_ID and public key once the card has given them -/
  officer : Nat := 0
  pub : Bytes := []
  step : Nat := 0
  /-- AUTHENTICATE in hand: ephemeral private key, and the data PE to SIG_P -/
  eph : Bytes := []
  sent : Bytes := []
  /-- authenticated in the open ceremony, with the keys of the two directions and the seal counters -/
  authed : Bool := false
  keys : Bytes := []
  txN : Nat := 0
  rxN : Nat := 0
  /-- share record that PUT_SHARE carries -/
  share : Bytes := []
deriving DecidableEq, Repr

/-- States of a ceremony (OD 0x9073.01), in the order of their values. -/
inductive CerState where
  | idle | collecting | applying | writingCards | done | ended
deriving DecidableEq, Repr

/-- The ceremony open or last ended (R576 to R581). -/
structure Ceremony where
  state : CerState := .idle
  result : Nat := 0
  ctype : Nat := 0
  cnum : Nat := 0
  cd : Bytes := []
  record : Bytes := []
  start : Nat := 0
  /-- officers counted: OFFICER_ID and key hash -/
  approvals : List (Nat × Bytes) := []
  /-- threshold and number of cards in force for it -/
  m : Nat := 0
  n : Nat := 0
  /-- S drawn or rebuilt, share records still to be written, officers whose card has confirmed its share -/
  secret : Bytes := []
  shares : List Bytes := []
  confirmed : List (Nat × Bytes) := []
  /-- share or component records read, with the officer that gave each -/
  given : List (Nat × Bytes) := []
  kcv : Nat := 0
  /-- waits for the image that includes its effect (R577, R581) -/
  imaging : Bool := false
deriving DecidableEq, Repr

/-- The card interfaces (chapter 17). -/
structure Cards where
  sd : Sd := {}
  slot0 : OfficerSlot := {}
  slot1 : OfficerSlot := {}
  /-- roster: threshold, and OFFICER_ID with the SHA-384 of the officer key (R575) -/
  rosterM : Nat := 0
  roster : List (Nat × Bytes) := []
  param : Bytes := []
  cer : Ceremony := {}
  /-- ceremony number counter of the control area (R577) -/
  cnum : Nat := 0
deriving DecidableEq, Repr

end Sys2Proof.Machine
end

