-- ==== Sys2Proof/Machine/ReqState.lean ====
section
/-! DEFINITION. State of the channels, the request path, the transports, the queues and the service
stores (chapters 01 to 05). -/

namespace Sys2Proof.Machine

/-- Channel states of Table 01-3, in the order of their values. -/
inductive ChanState where
  | off | bootTest | inService | draining | restTest | restStandby | returning | quarantine
deriving DecidableEq, Repr

/-- The Plinth link (R18 to R20). -/
inductive LinkState where
  | down | up | retrain | failed
deriving DecidableEq, Repr

/-- An endpoint of the Plinth link (R18, R19). -/
structure LinkEnd where
  /-- frame counters of the two directions, as this endpoint counts them -/
  txCtr : Nat := 0
  rxCtr : Nat := 0
  /-- payloads sent that the sender keeps for replay, at most 64, newest first (R19) -/
  replay : List Bytes := []
  /-- payloads delivered, oldest first -/
  delivered : List Bytes := []
deriving DecidableEq, Repr

/-- The Plinth link: its state, retrains in the 10 ms window (R20), link key, and its endpoints. -/
structure Plink where
  state : LinkState := .down
  retrains : Nat := 0
  windowStart : Nat := 0
  linkKey : BitVec 256 := 0
  main : LinkEnd := {}
  plinth : LinkEnd := {}
deriving DecidableEq, Repr

/-- The three clear-keys lines as the main die sees them (R21). -/
structure ClearLines where
  l0 : Bool := false
  l1 : Bool := false
  l2 : Bool := false
deriving DecidableEq, Repr

/-- The rest role and its rotation (R24 to R29, R594). -/
structure Rest where
  /-- channel in the rest role, 9 when none -/
  channel : Nat := 9
  start : Nat := 0
  suspended : Bool := false
  /-- a move in progress: the channel that goes to rest next -/
  next : Option Nat := none
  /-- the move in progress was asked for by an urgent self-test -/
  urgentMove : Bool := false
  reqNormal : Option Nat := none
  reqUrgent : Option Nat := none
  lastUrgent : Option Nat := none
  /-- rest period in force, s: a change applies from the next move (R592) -/
  period : Nat := 60
deriving DecidableEq, Repr

/-- What a request context of a channel holds (R203 to R205): contexts 0 to 7 serve the eight non-C0 slots,
8 to 14 the seven C0 slots. Slot references, NSLOT and tenant are the request's own. -/
structure ReqCtx where
  /-- key handles 0 to 7 -/
  handles : Tab Handle := []
  /-- slots whose use has been counted in this context (R277) -/
  fetched : List Nat := []
  /-- slots claimed, with the policy block of each (R288) -/
  claims : List (Nat × Bytes) := []
deriving DecidableEq, Repr

/-- Result of a channel's last self-test (Table 18-6, OD 0x3n02.01). -/
structure TestRecord where
  result : Nat := 0
  phase : Nat := 0
  retired : Nat := 0
  withdrawn : Nat := 0
  tStart : Nat := 0
  tEnd : Nat := 0
deriving DecidableEq, Repr

/-- What a core of a channel holds (R174). -/
structure CoreSlot where
  n : Option Nat := none
  c0 : Option Nat := none
deriving DecidableEq, Repr

/-- A service channel (chapters 01, 05, 18). -/
structure Channel where
  data : ChanState := .off
  mgmt : ChanState := .off
  /-- device time from which the two states diverge (R597) -/
  divergeSince : Option Nat := none
  lastTest : TestRecord := {}
  /-- result of the last completed test, for R27 -/
  lastPassed : Bool := true
  /-- phase the running self-test is in, 1 to 21; 0 when none runs -/
  testPhase : Nat := 0
  testStart : Nat := 0
  testRetired : Nat := 0
  testWithdrawn : Nat := 0
  spareRows : Nat := 0
  /-- device times of automatic returns in the last 24 h (R595) -/
  returns : List Nat := []
  /-- waits in QUARANTINE for the OPERATOR (R595) -/
  heldQuarantine : Bool := false
  /-- must abandon its test at the next phase boundary (R27) -/
  abandon : Bool := false
  enteredAt : Nat := 0
  /-- commits held for the channel at rest (R29), CGEN of each -/
  pending : List Nat := []
  cgenInstalled : Nat := 0
  /-- what each core holds -/
  slots : Tab CoreSlot := []
  ctxs : Tab ReqCtx := []
  /-- active queues of class 1 to 3, in list order; 2^20 stands for the excess queue -/
  active1 : List Nat := []
  active2 : List Nat := []
  active3 : List Nat := []
  classDeficit : Tab Int := []
  classStale : Tab Bool := []
  classPtr : Nat := 1
  excess : List Nat := []
  excessDeficit : Int := 0
  excessFresh : Bool := true
deriving DecidableEq, Repr

/-- The fields of a request header (Table 02-1). -/
structure Header where
  version : Nat := 1
  flags : Nat := 0
  cls : Nat := 0
  nslot : Nat := 0
  queue : Nat := 0
  service : Nat := 0
  tenant : Nat := 0
  payloadLen : Nat := 0
  rsv14 : Nat := 0
  requestId : Nat := 0
  slot0 : Nat := 0
  slot1 : Nat := 0
  slot2 : Nat := 0
  slot3 : Nat := 0
  rsv40 : Nat := 0
  mac : Bytes := []
deriving DecidableEq, Repr

/-- The way by which a request came (R35). -/
inductive Via where
  | eth (port session : Nat)
  | ring (f r : Nat)
  | frieze (port : Nat)
  /-- an internal request of the part, for a handshake: on a ring (function, ring pair) or on Ethernet (port,
  session) -/
  | internal (ring : Bool) (a b : Nat)
deriving DecidableEq, Repr

/-- The stage of a request (R85). -/
inductive Stage where
  /-- waits for its queue's descriptor (R172) -/
  | fetchWait
  | queued
  /-- in the C0 ready list (R184) -/
  | ready
  /-- a best-effort C0 request in an excess queue (R182) -/
  | excess
  /-- dispatched to channel n; held by core c once claimed -/
  | running (n : Nat) (core : Option Nat)
  /-- spilled to the neighbour on Frieze port p (R190) -/
  | spilled (p : Nat)
  | built
deriving DecidableEq, Repr

/-- A request in the part. -/
structure Request where
  hdr : Header
  payload : Bytes := []
  via : Via
  /-- ring: TAG, RSP_ADDR and RSP_CAP of the descriptor -/
  tag : Nat := 0
  rspAddr : Nat := 0
  rspCap : Nat := 0
  tIn : Nat := 0
  /-- device time of enqueue, for R187 to R190 -/
  tQueued : Nat := 0
  stage : Stage := .queued
  budget : Nat := 0
  /-- C0: within the conditions of the bound (R180) -/
  within : Bool := false
  bestEffort : Bool := false
  /-- spilled once already (R191) -/
  wasSpilled : Bool := false
  /-- spilled: addresses on its route, the originating part first; spilled in: its envelope as it came -/
  path : List Nat := []
  envelope : Bytes := []
  /-- spilled in: envelope fields (chapter 14) -/
  originAddr : Nat := 0
  originRid : Nat := 0
  extraNs : Nat := 0
  /-- spilled out: executing part, whether as C0 within the conditions, and whether a link replay touched it -/
  spillTo : Nat := 0
  c0Spill : Bool := false
  replayed : Bool := false
  /-- the request arrived over PCIe, for the deadlines of R194 -/
  pcie : Bool := false
  status : Nat := 0
  detail : Nat := 0
  response : Bytes := []
  cycles : Nat := 0
  servedBy : Nat := 0xF
  tOut : Nat := 0
  /-- RESPONSE_MAC is not to be formed (R53) -/
  unauth : Bool := false
  /-- the response must be discarded when it is built (Table 02-17) -/
  discard : Bool := false
  /-- CGEN under which it was claimed (R443) -/
  cgen : Nat := 0
  /-- request context of its channel, and whether it was dispatched from the ready list -/
  ctx : Nat := 0
  c0Slot : Bool := false
  /-- the program has written its response -/
  ready : Bool := false
deriving DecidableEq, Repr

/-- The queue in which a request waits: its header's, or the spill-in queue of its class for its arrival port
(R472), numbered above the 2^20 queues and the excess queue's number. -/
def Request.qn (q : Request) : Nat :=
  match q.via with
  | .frieze p => 2 ^ 20 + 1 + 4 * p + (if q.within then 0 else Nat.max 1 (q.hdr.cls % 4))
  | _ => q.hdr.queue

/-- A session's state. -/
inductive SessState where
  | handshake | open | ended | closed
deriving DecidableEq, Repr

/-- A service session, on Ethernet or on a ring (R60 to R64, R67). -/
structure Session where
  state : SessState := .handshake
  port : Nat := 0
  peerIp : Nat := 0
  peerUdp : Nat := 0
  peerMac : Nat := 0
  dscp : Nat := 0
  peerSlot : Nat := 0
  tenant : Nat := 0
  multiTenant : Bool := false
  hello : Bytes := []
  helloReply : Bytes := []
  keyIn : Bytes := []
  keyOut : Bytes := []
  ivIn : Bytes := []
  ivOut : Bytes := []
  rxHigh : Nat := 0
  /-- accepted SEQ values within the 1,024 below rxHigh -/
  rxSeen : List Nat := []
  txSeq : Nat := 0
  rxFrames : Nat := 0
  opened : Nat := 0
  lastRx : Nat := 0
  rekeyDue : Bool := false
  endedAt : Nat := 0
  msgOut : Nat := 0
  /-- open reassembly: MSG_NO, content so far, segments, device time of the first, next SEQ -/
  reasm : Option (Nat × Bytes × Nat × Nat × Nat) := none
deriving DecidableEq, Repr

/-- Ring states of Table 02-14, in the order of their values. -/
inductive RingState where
  | disabled | openNoKey | handshake | open | stopped | withdrawing
deriving DecidableEq, Repr

/-- A ring pair (Table 02-12a, R74 to R78). -/
structure Ring where
  reqBase : Nat := 0
  cplBase : Nat := 0
  cfg : Nat := 0
  /-- configuration read at enable -/
  cfgIn : Nat := 0
  reqBaseIn : Nat := 0
  cplBaseIn : Nat := 0
  state : RingState := .disabled
  error : Nat := 0
  reqPi : Nat := 0
  reqCi : Nat := 0
  cplPi : Nat := 0
  cplCi : Nat := 0
  protFails : Nat := 0
  phaseInv : Bool := false
  reserved : Nat := 0
  unsignalled : Nat := 0
  oldest : Nat := 0
  /-- descriptors fetched whose frame is not complete: TAG, REQ_ADDR, REQ_LEN, RSP_ADDR, RSP_CAP -/
  fetched : List (Nat × Nat × Nat × Nat × Nat) := []
  session : Option Session := none
deriving DecidableEq, Repr

/-- A response held for an Ethernet port whose link is down (R85): its session and message. -/
structure HeldRsp where
  sid : Nat
  msg : Bytes
  size : Nat
  since : Nat
deriving DecidableEq, Repr

/-- An Ethernet port (R65, R85, chapter 18). -/
structure EthPort where
  up : Bool := false
  disabled : Bool := false
  mode : Nat := 0
  abilities : Bytes := []
  fecCorrected : Nat := 0
  fecUncorrected : Nat := 0
  divergeSince : Option Nat := none
  mgmtUp : Bool := false
  skew : Nat := 0
  held : List HeldRsp := []
deriving DecidableEq, Repr

/-- The PCIe endpoint (R539, R597). -/
structure Pcie where
  up : Bool := false
  mgmtUp : Bool := false
  training : Bool := false
  perst : Bool := true
  crs : Bool := true
  speed : Nat := 0
  width : Nat := 0
  divergeSince : Option Nat := none
deriving DecidableEq, Repr

/-- A queue's descriptor and its list of waiting requests (Tables 05-1 to 05-3). -/
structure Queue where
  tenant : Nat := 0
  qctl : Nat := 0
  weight : Nat := 0
  depthLimit : Nat := 0
  waitLimit : Nat := 0
  channel : Nat := 0xF
  barrier : Bool := false
  excess : Bool := false
  fullSeen : Bool := false
  /-- request table indices queued, oldest first: HEAD, TAIL and DEPTH are this list's -/
  list : List Nat := []
  deficit : Int := 0
  running : Nat := 0
  fresh : Bool := true
  /-- order of assignment to its home channel (R186) -/
  assigned : Nat := 0
  /-- channel whose excess queue holds its best-effort requests (R182) -/
  excessChan : Nat := 0
deriving DecidableEq, Repr

/-- A queue range record (R170). -/
structure QueueRecord where
  first : Nat
  count : Nat
  tenant : Nat
  qctl : Nat
  weight : Nat
  depthLimit : Nat
  waitLimit : Nat
deriving DecidableEq, Repr

/-- A tenant admission record and the tenant's token level (R176, R178). -/
structure AdmRecord where
  overflow : Nat := 0
  c0Rate : Nat := 0
  c0Depth : Nat := 0
  outLimit : Nat := 0
  /-- charge cycles with 16 fractional bits -/
  level : Nat := 0
  last : Nat := 0
deriving DecidableEq, Repr

/-- The forced quarantine window (R183). -/
structure QWindow where
  openedAt : Nat
  channel : Nat
  moved : Bool := false
  rescaled : Bool := false
deriving DecidableEq, Repr

/-- The queue manager (chapter 05). `queues` also holds the spill-in queues of R472, above the 2^20 queues of
R168. -/
structure QueueMgr where
  queues : Tab Queue := []
  records : List QueueRecord := []
  cache : List Nat := []
  adm : Tab AdmRecord := []
  readyList : List Nat := []
  /-- requests that wait for their queue's descriptor, in arrival order (R172) -/
  waiting : List Nat := []
  /-- internal requests of the part, class C1 (R60) -/
  internal : List Nat := []
  excessHeld : List Nat := []
  windows : List QWindow := []
  assignSeq : Nat := 0
deriving DecidableEq, Repr

/-- A batch context (R127 to R131). -/
structure Batch where
  tenant : Nat
  ref : Bytes
  appends : Nat := 0
  bytes : Nat := 0
  tOpen : Nat
  data : Bytes := []
  last : Nat
  /-- request that uses the batch, until it is answered (R128) -/
  busy : Option Nat := none
deriving DecidableEq, Repr

/-- A customer program image (R139 to R141). -/
structure Image where
  tenant : Nat
  service : Nat
  budget : Nat
  c0Claim : Bool
  maxReq : Nat
  maxRsp : Nat
  isaLevel : Nat
  storage : Nat
deriving DecidableEq, Repr

/-- A binding of a customer code (R141). -/
structure Binding where
  tenant : Nat
  code : Nat
  image : Nat
  approved : Bool
deriving DecidableEq, Repr

/-- A feature descriptor (Table 04-4). -/
structure Feature where
  kind : Nat
  width : Nat
  offset : Nat
  shift : Nat
  bias : Int
  dflt : Int
deriving DecidableEq, Repr

/-- A node of a decision tree (chapter 04). -/
structure TreeNode where
  src : Nat
  left : Nat
  right : Nat
  value : Int
deriving DecidableEq, Repr

/-- A stage of a risk model (Tables 04-5, 04-6): LINEAR with WFMT and ACT, PWL with its n, TREES with ACT and
BASE and a (DEPTH, nodes) pair for each tree. -/
inductive RiskStage where
  | linear (wfmt act : Nat) (inputs : List Nat) (bias : List Int) (weights : List (List Int))
  | pwl (n : Nat) (inputs : List Nat) (table : List Int)
  | trees (act : Nat) (base : Int) (trees : List (Nat × List TreeNode))
deriving DecidableEq, Repr

/-- A loaded risk model (Table 04-2). -/
structure Model where
  version : Nat
  rounding : Nat
  satFault : Bool
  c0Claim : Bool
  nv : Nat
  requiredLen : Nat
  outputIndex : Nat
  budget : Nat
  /-- COST of R164 -/
  cost : Nat
  bodyBytes : Nat
  /-- bytes of the whole image: envelope header, body and signature block -/
  imageBytes : Nat
  features : List Feature
  stages : List RiskStage
deriving DecidableEq, Repr

/-- Stores of the services (chapters 03 and 04). -/
structure Services where
  /-- try counters, key tenant * 2^32 + TRY_INDEX -/
  tries : Tab Nat := []
  tryEntries : Nat := 4194304
  batches : Tab Batch := []
  images : Tab Image := []
  bindings : List Binding := []
  models : Tab Model := []
  approvals : List (Nat × Nat) := []
  /-- (tenant, service) pairs not enabled (check 11) -/
  disabled : List (Nat × Nat) := []
deriving DecidableEq, Repr

end Sys2Proof.Machine
end

