-- ==== Sys2Proof/Machine/FriezeState.lean ====
section
/-! DEFINITION. State of the Frieze ports, the topology, device time across it and the spill credit
(chapter 14). -/

namespace Sys2Proof.Machine

/-- Port states of Table 14-4, in the order of their values. -/
inductive PortState where
  | disabled | detect | train | align | handshake | measure | up | held | retrain | failed
deriving DecidableEq, Repr

/-- A message that a port sends: virtual channel, MTYPE, destination address, bytes (R453, R454). -/
structure FrzMsg where
  vc : Nat
  mtype : Nat
  dst : Nat
  data : Bytes
  /-- source and links left, for a message that is relayed; none for the part's own -/
  relay : Option (Nat × Nat) := none
deriving DecidableEq, Repr

/-- A message sent and not yet acknowledged: the LSEQ of its last link block (R455). -/
structure Sent where
  lseq : Nat
  blocks : Nat
  msg : FrzMsg
deriving DecidableEq, Repr

/-- A message received in flits: virtual channel, MTYPE, source, its flits so far, bytes, and whether one of its
link blocks was replayed. -/
structure Rcvd where
  vc : Nat
  mtype : Nat
  src : Nat
  flits : Nat
  data : Bytes
  /-- device time of its first flit -/
  since : Nat := 0
deriving DecidableEq, Repr

/-- A Frieze port (R451 to R462, R469, R471). -/
structure FrzPort where
  state : PortState := .detect
  mgmt : PortState := .detect
  divergeSince : Option Nat := none
  enteredAt : Nat := 0
  /-- failed attempts in a row, device times of the retrains of the last 10 s (R457) -/
  attempts : Nat := 0
  retrains : List Nat := []
  -- link layer (R452 to R455, R459)
  txSeq : Nat := 0
  rxSeq : Nat := 0
  txEpoch : Nat := 0
  rxEpoch : Nat := 0
  txKey : Bytes := []
  txIv : Bytes := []
  rxKey : Bytes := []
  rxIv : Bytes := []
  /-- the key of the epoch before, and the blocks for which it is still kept -/
  oldRxKey : Bytes := []
  oldRxLeft : Nat := 0
  /-- keys of a fresh LHELLO exchange, in effect from the next epoch: secret and salt, directions -/
  nextTxKey : Bytes := []
  nextRxKey : Bytes := []
  nak : Bool := false
  sent : List Sent := []
  /-- messages that wait for buffer credits -/
  waiting : List FrzMsg := []
  /-- buffer credits held, flits, by virtual channel; absent entries hold 512 -/
  credits : Tab Nat := []
  /-- credits to return to the partner, by virtual channel -/
  freed : Tab Nat := []
  /-- messages in reassembly and complete, by virtual channel order of arrival -/
  partials : List Rcvd := []
  inbox : List Rcvd := []
  -- partner (R458, R460, R465)
  myNonce : Bytes := []
  myEph : Bytes := []
  cap : Bytes := []
  join : Nat := 0
  -- measurement (R461, R462)
  exchanges : Nat := 0
  /-- last 16 delays (ps) and offsets (ns), newest first -/
  delays : List Nat := []
  offsets : List Int := []
  delay : Nat := 0
  offset : Int := 0
  loss : Bytes := []
  lastExchange : Nat := 0
  -- C0 spill (R469, R471)
  tokens : Nat := 3
  /-- bucket over the partner's advertised C0 credit, and over the credit offered to it -/
  outLevel : Nat := 0
  outLast : Nat := 0
  inLevel : Nat := 0
  inLast : Nat := 0
deriving DecidableEq, Repr

/-- An entry of the topology database (R464): a TOPO message. -/
structure Topo where
  serial : Bytes := []
  addr : Nat := 0
  mkid : Bytes := []
  seq : Nat := 0
  timePri : Nat := 32768
  coordPri : Nat := 32768
  /-- DIAM_BUDGET, µs -/
  diamBudget : Nat := 1000
  /-- partner address and D_c (ps) of each UP link -/
  links : List (Nat × Nat) := []
deriving DecidableEq, Repr

/-- Spill credit that a part advertises (R470): links away, the port it came by, C1 to C3 counts, C0. -/
structure Advert where
  addr : Nat
  links : Nat
  port : Nat
  c1 : Nat
  c2 : Nat
  c3 : Nat
  c0Rate : Nat := 0
  c0Depth : Nat := 0
  tenants : List Nat := []
deriving DecidableEq, Repr

/-- Time states of Table 14-10, in the order of their values. -/
inductive TimeState where
  | free | locking | locked | holdover | master
deriving DecidableEq, Repr

/-- The Frieze as a whole (R464, R467, R468, R470, R475). -/
structure Frieze where
  /-- device address in force: OD 0x6000.01 as the last boot took it (R463) -/
  addr : Nat := 0
  ports : Tab FrzPort := []
  /-- TOPO messages of other parts, by address -/
  topo : Tab Topo := []
  topoSeq : Nat := 0
  lastTopo : Nat := 0
  adverts : List Advert := []
  timeState : TimeState := .free
  timeMaster : Nat := 0
  timeOffset : Int := 0
  /-- the counter was stepped since boot (R468) -/
  stepped : Bool := false
  /-- newest alarm sequence number by origin address; own number (R475) -/
  alarmSeq : Tab Nat := []
  ownAlarm : Nat := 0
  /-- origins removed from the replication domain for a zeroizing alarm -/
  removed : List Nat := []
  /-- ways back of relayed management frames: route word, where it came from, port by which it went on; a port, or 16
  and the number of a local transport's session (R438, R463) -/
  returns : List (Nat × Nat × Nat) := []
  msgId : Tab Nat := []
deriving DecidableEq, Repr

end Sys2Proof.Machine
end

