-- ==== Sys2Proof/Machine/MgmtState.lean ====
section
/-! DEFINITION. State of the management path: sessions, transactions, commits, the configuration store, the
CAN port and the mailboxes (chapter 13), and the domain transactions of the Frieze (chapter 14). -/

namespace Sys2Proof.Machine

/-- A staged write (R439): entry and value bytes, in the order written. -/
structure Staged where
  index : Nat
  sub : Nat
  data : Bytes
deriving DecidableEq, Repr

/-- States of a transaction as TXN_STATUS shows them (Table 13-6). -/
inductive TxnState where
  | none | opened | committing | domainPending
deriving DecidableEq, Repr

/-- A configuration transaction (R439 to R441). -/
structure Txn where
  id : Nat
  staged : List Staged := []
  state : TxnState := .opened
  openedAt : Nat := 0
deriving DecidableEq, Repr

/-- A management session (R431 to R434, R446). Sessions 0 to 7 are those of the CAN channel numbers, 8 to 15
those of the mailboxes, 16 to 31 those that arrive over the Frieze. -/
structure MgSess where
  /-- HELLO answered, CONFIRM not yet received -/
  handshake : Bool := false
  auth : Bool := false
  role : Nat := 0
  slot : Nat := 0
  tenant : Nat := 0
  sid : Nat := 0
  hello : Bytes := []
  helloReply : Bytes := []
  keyIn : Bytes := []
  keyOut : Bytes := []
  ivIn : Bytes := []
  ivOut : Bytes := []
  rxHigh : Nat := 0
  rxSeen : List Nat := []
  txSeq : Nat := 0
  /-- SEQ of the last request accepted, and the plaintext reply cached for it (R423) -/
  lastSeq : Nat := 0
  cached : Bytes := []
  inFlight : Bool := false
  openedAt : Nat := 0
  lastRx : Nat := 0
  /-- route of the replies: address of the part it came from, the port, and the route word (R438, R463) -/
  peerAddr : Nat := 0
  peerPort : Nat := 0
  route : Nat := 0
  /-- selector values that differ from their defaults, by INDEX * 256 + SUB (R421) -/
  sel : Tab Nat := []
  notices : List (Nat × Nat) := []
  txn : Option Txn := none
  /-- value shown at OD 0x9001.02: the last counter this session cleared -/
  lastCleared : Nat := 0
deriving DecidableEq, Repr

/-- An entry of the commit log (OD 0x1103.01). -/
structure CommitRec where
  cgen : Nat
  tCommit : Nat
  txn : Nat
  slot : Nat
  entries : Nat
  outcome : Nat
deriving DecidableEq, Repr

/-- The commit past step 1 (Table 13-12): one at a time. -/
structure CommitJob where
  /-- session that asked for it; none once it has closed, or for a domain transaction of another part -/
  sess : Option Nat
  txn : Nat
  slot : Nat
  staged : List Staged
  /-- 2 prepare of a domain commit, 3 store write, 6 channels install -/
  stage : Nat
  restrictive : Bool := false
  /-- channels whose install it waits for -/
  waits : List Nat := []
  cgen : Nat := 0
  tCommit : Nat := 0
  domain : Bool := false
  since : Nat := 0
  /-- domain transaction of which this is step 5 at a member, with the slot records that it carries -/
  dtxn : Option Nat := none
  slots : List (Nat × Slot) := []
  /-- the restrictive commit's image has still to be taken, or to be anchored (R298) -/
  imageWait : Bool := false
  /-- the model's free-value counter at step 1, so that the commit point applies the values validated (log 2) -/
  free0 : Nat := 0
deriving DecidableEq, Repr

/-- A copy in the configuration store (R447). -/
structure StoreCopy where
  cgen : Nat := 0
  good : Bool := false
  values : Tab Int := []
  octets : Tab Bytes := []
  principals : Tab Nat := []
  records : List QueueRecord := []
  adm : Tab AdmRecord := []
  approvals : List (Nat × Nat) := []
  models : Tab Model := []
  /-- level and flags of the alarms configured -/
  alarms : Tab (Option Nat × Option Nat) := []
  domVer : Nat := 0
deriving DecidableEq, Repr

/-- A mailbox (Table 13-11). -/
structure Mailbox where
  ctrl : Nat := 0
  /-- 0 IDLE, 1 BUSY, 2 READY -/
  state : Nat := 0
  rspLen : Nat := 0
  ignored : Nat := 0
  req : Tab Byte := []
  rsp : Bytes := []
deriving DecidableEq, Repr

/-- A CAN message in reassembly (R436). -/
structure CanRx where
  next : Nat
  data : Bytes
  since : Nat
deriving DecidableEq, Repr

/-- A member's or the coordinator's view of a domain transaction (R476 to R479). -/
structure DomainTxn where
  id : Nat
  /-- part that staged it, and coordinator -/
  origin : Nat
  coord : Nat
  staged : List Staged
  /-- slot records with their shared fields as the origin's step 1 made them (R293) -/
  slots : List (Nat × Slot) := []
  /-- coordinator: 0 collecting votes, 2 decided. Member: 1 voted yes and in doubt, 3 applying the decision -/
  state : Nat
  /-- coordinator: members whose vote, or whose acknowledgement, is awaited -/
  awaits : List Nat := []
  members : List Nat := []
  since : Nat := 0
  lastQuery : Nat := 0
  /-- origin: TXN_ID, session, principal slot, and everything staged, local entries included -/
  txn : Nat := 0
  sess : Option Nat := none
  slot : Nat := 0
  own : List Staged := []
  free0 : Nat := 0
  /-- decision: commit -/
  commit : Bool := false
  /-- coordinator: every member of the old and the new list, and the members that voted yes -/
  yes : List Nat := []
  /-- member whose vote or absence decided the abort, and its REASON -/
  blame : Nat := 0
  reason : Nat := 0
deriving DecidableEq, Repr

/-- Management (chapter 13). -/
structure Mgmt where
  sess : Tab MgSess := []
  /-- principals: role by PEER_SLOT (R433) -/
  principals : Tab Nat := []
  nextTxn : Nat := 1
  cgen : Nat := 0
  tCommit : Nat := 0
  job : Option CommitJob := none
  log : List CommitRec := []
  /-- commits that wait for the one in progress: sessions, oldest first -/
  commits : List Nat := []
  storeA : StoreCopy := {}
  storeB : StoreCopy := {}
  /-- OD 0x1101.06: 0 restored, 1 older copy, 2 LOST -/
  lost : Nat := 0
  can : Tab CanRx := []
  busOff : Bool := false
  mb : Tab Mailbox := []
  /-- session that asked for a commit, by CGEN, for the notice of a held install (R446) -/
  owner : Tab Nat := []
  -- replication domain (R476 to R479)
  /-- as a member, and as the coordinator -/
  domain : Tab DomainTxn := []
  coord : Tab DomainTxn := []
  /-- decided domain transactions that wait to be applied, by DTXN -/
  toApply : List Nat := []
  decided : List (Nat × Nat) := []
  /-- version of the DOMAIN entry OD 0x6006.01 (R479) -/
  domVer : Nat := 0
  nextDomain : Nat := 1
deriving DecidableEq, Repr

end Sys2Proof.Machine
end

