-- ==== Sys2Proof/Syntax.lean ====
section
/-! DEFINITION. The commands of the part: one constructor of Instr per row of spec/opcode_table.json,
in the table's order. A command carries what arrives from outside (fields of a frame, a register value, an
instruction's fields, a measurement); everything else it needs is in the state. -/

namespace Sys2Proof

/-- PRD and NEG of an instruction word (R315): it executes when p[PRD] XOR NEG is 1. -/
structure Pred where
  prd : BitVec 3 := 0
  neg : Bool := false
deriving DecidableEq, Repr

/-- Operand B of an ALU or CMP instruction: a register, or a 32-bit immediate (R317, R318). -/
inductive Opnd where
  | reg (rb : BitVec 5)
  | imm (v : BitVec 32)
deriving DecidableEq, Repr

/-- MOVI's immediate: the whole of g[RD] with H = 0, or its bits 63:48 with H = 1 (R317). -/
inductive MovImm where
  | low (v : BitVec 48)
  | high (v : BitVec 16)
deriving DecidableEq, Repr

/-- Result formats of FEXT: Q1.15, Q1.31, Q1.63 (R324). -/
inductive QFmt where
  | q15 | q31 | q63
deriving DecidableEq, Repr

/-- Compare conditions of Table 09-8. -/
inductive Cond where
  | eq | ne | lt | ge | ltu | geu | tst | ntst
deriving DecidableEq, Repr

/-- What a patrol scrub finds in the word or line it reads (R416, R417). -/
inductive EccFinding where
  | clean | corrected | uncorrectable
deriving DecidableEq, Repr


/-- A register that REG_RD names (Table 12-13): of Table 09-1 (wide ones in 64-bit parts), a control
register, or a word of the fault stack. -/
inductive DbgReg where
  | g (n : BitVec 5)
  | p
  | a (n : BitVec 2) (hi : Bool)
  | m (n : BitVec 2) (hi : Bool)
  | sg (n : BitVec 3) (hi : Bool)
  | pc
  | status
  | cr (n : Nat)
  | fsWord (n : Nat)
deriving DecidableEq, Repr
/-- Source of a frame on an Ethernet port: port, link-layer address, IP address (2^32 and above for IPv6), UDP
port, DSCP. -/
structure Peer where
  port : Nat
  mac : Nat
  ip : Nat
  udp : Nat
  dscp : Nat
deriving DecidableEq, Repr

/-- A session: on Ethernet by its SESSION_ID, on a ring pair, or a management session by its number. -/
inductive SessRef where
  | eth (sid : Nat)
  | ring (f r : Nat)
  | mgmt (m : Nat)
deriving DecidableEq, Repr

/-- An item of a management request (R425): INDEX, SUB, TYPE, LEN, OFFSET and, for WRITE, its value bytes. -/
structure MgItem where
  index : Nat
  sub : Nat
  typ : Nat
  len : Nat := 0
  off : Nat := 0
  value : Bytes := []
deriving DecidableEq, Repr

/-- The commands. -/
inductive Instr where
  -- chapter 1
  | plinthLinkFrame (toMain crcOk : Bool) (header payload tag : Bytes)
  | plinthLinkLockLoss
  | plinthLinkRetrainComplete (ok : Bool)
  | clearKeysAssert (l0 l1 l2 : Bool)
  | clearLineDisagreement (l0 l1 l2 : Bool)
  | restPeriodExpiry
  | returnComplete (n : Nat)
  | drainComplete (n : Nat)
  | budgetOverrun (r : Nat)
  | selfTestComplete (n failPhase spares : Nat) (cells digests pks : List Nat)
  | selfTestAbandon (n phase : Nat)
  | channelQuarantine (n : Nat)
  | homeQueueAssign
  -- chapter 2
  | ethFrameReceive (port : Nat) (fcsOk : Bool) (frame : Bytes)
  | arpRequest (port mac ip target : Nat)
  | neighbourSolicitation (port mac ip target : Nat)
  | icmpEcho (port mac ip target : Nat) (data : Bytes)
  | hello (p : Peer) (body : Bytes)
  | confirm (p : Peer) (sid seq : Nat) (body tag : Bytes)
  | data (p : Peer) (sid seq : Nat) (body tag : Bytes)
  | close (p : Peer) (sid seq : Nat) (body tag : Bytes)
  | keepalive (p : Peer) (sid seq : Nat) (tag : Bytes)
  | confirmTimeout (x : SessRef)
  | reassemblyTimeout (sid : Nat)
  | sessionIdleTimeout (x : SessRef)
  | rekeyDue (x : SessRef)
  | sessionLifetimeEnd (x : SessRef)
  | sessionGraceEnd (x : SessRef)
  | ethLinkDown (p : Nat)
  | ethLinkUp (p : Nat)
  | linkDownHoldExpiry (p : Nat)
  | respond (r cycles : Nat)
  | ringEnable (f r cfg : Nat)
  | ringDisable (f r : Nat)
  | reqPiDoorbell (f r v : Nat)
  | cplCiWrite (f r v : Nat)
  | descriptorFetch (f r reqAddr rspAddr reqLen rspCap tag : Nat) (ok : Bool)
  | hostReadCompletion (f r : Nat) (ok : Bool) (frame : Bytes)
  | ringWithdrawComplete (f r : Nat)
  | coalesceTimerExpiry (f r : Nat)
  | functionLevelReset (f : Nat)
  | pcieLinkDown
  | pcieHotReset
  | perstDeassert
  -- chapter 03: r is the request's index in the request table
  | pinTranslate (r : Nat)
  | pinVerify (r : Nat)
  | pinTryReset (r : Nat)
  | arqcVerify (r : Nat)
  | macGenerate (r : Nat)
  | macVerify (r : Nat)
  | dukptIkExport (r : Nat)
  | cscGenerate (r : Nat)
  | cscVerify (r : Nat)
  | ff1Tokenize (r : Nat)
  | ff1Detokenize (r : Nat)
  | keyDerive (r : Nat)
  | batchOpen (r : Nat)
  | batchAppend (r : Nat)
  | batchClose (r : Nat)
  | batchAbort (r : Nat)
  | batchExpiry (h : Nat)
  | bundle (r : Nat)
  -- keys: (slot reference, usage) pairs that the program uses; ends: 0 it returned, 1 it faulted, 2 it
  -- exceeded its budget
  | customerServiceProgram (r : Nat) (keys : List (Nat × Nat)) (ends status : Nat) (payload : Bytes)
  -- chapter 05
  | dispatch
  | select (n : Nat)
  | steal (n : Nat)
  | waitLimitExpiry (qn : Nat)
  | dispatchDeadline (r : Nat)
  | executionDeadline (r : Nat)
  | forcedQuarantineWindowClose
  | spill (r : Nat)
  | descriptorCacheFetchComplete (qn : Nat) (good : Bool)
  -- chapter 06. c is a core, off a descriptor's SRAM offset, n a channel, g a generator: 0 to 8 of the
  -- channels, 9 ingress parser, 10 egress assembler, 11 key fetch unit; i one of its instances.
  | submit (c off : Nat)
  | submitStallRelease (c : Nat)
  -- finding: 0 none, 1 a mismatch whose rerun passed, 2 a confirmed mismatch, 3 a second key-bus refusal
  | cipherCompletion (n off cycles finding : Nat)
  | cellSeedArrival (n cell cycles : Nat)
  | reseedIntervalReached (g inst : Nat)
  | reseedLimitReached (g inst : Nat)
  | seedPacket (g inst : Nat) (seed : Bytes) (good : Bool)
  | reseedDueTimeout (g : Nat)
  | entropySourceFailure (latch : Bool)
  -- chapter 07
  | dsubmit (c off : Nat)
  | dsubmitStallRelease (c : Nat)
  | digestCompletion (n off cycles finding stall : Nat)
  | psubmit (c off : Nat)
  | pkCompletion (n off cycles finding attempts stall : Nat)
  -- chapter 08
  | keyCacheFillComplete (slot : Nat)
  | usesWriteback
  | rolloverComplete
  | tenantScrubComplete (tenant : Nat)
  | slotclaimClaim (c index polOff : Nat)
  | slotclaimRelease (c index : Nat)
  | imageIntervalExpiry
  | takeImage (m : Nat)
  | imageComplete (ok : Bool)
  | zeroFillComplete
  -- chapter 09: Ortan instructions. c is the executing core's master ID, q its predicate fields.
  | add (c : Nat) (q : Pred) (rd ra : BitVec 5) (b : Opnd) (w : Bool)
  | sub (c : Nat) (q : Pred) (rd ra : BitVec 5) (b : Opnd) (w : Bool)
  | adds (c : Nat) (q : Pred) (rd ra : BitVec 5) (b : Opnd) (w : Bool)
  | subs (c : Nat) (q : Pred) (rd ra : BitVec 5) (b : Opnd) (w : Bool)
  | and (c : Nat) (q : Pred) (rd ra : BitVec 5) (b : Opnd)
  | or (c : Nat) (q : Pred) (rd ra : BitVec 5) (b : Opnd)
  | xor (c : Nat) (q : Pred) (rd ra : BitVec 5) (b : Opnd)
  | andn (c : Nat) (q : Pred) (rd ra : BitVec 5) (b : Opnd)
  | min (c : Nat) (q : Pred) (rd ra : BitVec 5) (b : Opnd)
  | max (c : Nat) (q : Pred) (rd ra : BitVec 5) (b : Opnd)
  | minu (c : Nat) (q : Pred) (rd ra : BitVec 5) (b : Opnd)
  | maxu (c : Nat) (q : Pred) (rd ra : BitVec 5) (b : Opnd)
  | shl (c : Nat) (q : Pred) (rd ra : BitVec 5) (b : Opnd) (w : Bool)
  | shr (c : Nat) (q : Pred) (rd ra : BitVec 5) (b : Opnd) (w : Bool)
  | sar (c : Nat) (q : Pred) (rd ra : BitVec 5) (b : Opnd) (w : Bool)
  | ror (c : Nat) (q : Pred) (rd ra : BitVec 5) (b : Opnd) (w : Bool)
  | extu (c : Nat) (q : Pred) (rd ra : BitVec 5) (b : Opnd)
  | exts (c : Nat) (q : Pred) (rd ra : BitVec 5) (b : Opnd)
  | ins (c : Nat) (q : Pred) (rd ra : BitVec 5) (b : Opnd)
  -- i: format I
  | clz (c : Nat) (q : Pred) (rd ra : BitVec 5) (w im : Bool)
  | popc (c : Nat) (q : Pred) (rd ra : BitVec 5) (w im : Bool)
  | bswap (c : Nat) (q : Pred) (rd ra : BitVec 5) (w im : Bool)
  | movi (c : Nat) (q : Pred) (rd : BitVec 5) (v : MovImm)
  | cmp (c : Nat) (q : Pred) (pd pd2 : BitVec 3) (ra : BitVec 5) (b : Opnd) (cond : Cond) (w : Bool)
  | pand (c : Nat) (q : Pred) (pd pa pb : BitVec 3)
  | por (c : Nat) (q : Pred) (pd pa pb : BitVec 3)
  | pxor (c : Nat) (q : Pred) (pd pa pb : BitVec 3)
  | pandn (c : Nat) (q : Pred) (pd pa pb : BitVec 3)
  | pget (c : Nat) (q : Pred) (rg : BitVec 5)
  | pset (c : Nat) (q : Pred) (rg : BitVec 5)
  | muls32 (c : Nat) (q : Pred) (md : BitVec 2) (ra rb : BitVec 5)
  | mulu32 (c : Nat) (q : Pred) (md : BitVec 2) (ra rb : BitVec 5)
  | muls64 (c : Nat) (q : Pred) (md : BitVec 2) (ra rb : BitVec 5)
  | mulu64 (c : Nat) (q : Pred) (md : BitVec 2) (ra rb : BitVec 5)
  | mulComplete (c : Nat)
  | movml (c : Nat) (q : Pred) (rd : BitVec 5) (ms : BitVec 2)
  | movmh (c : Nat) (q : Pred) (rd : BitVec 5) (ms : BitVec 2)
  | ld (c : Nat) (q : Pred) (rd ra : BitVec 5) (seg : BitVec 3) (size : BitVec 2) (sx : Bool) (disp : BitVec 32)
  | st (c : Nat) (q : Pred) (rd ra : BitVec 5) (seg : BitVec 3) (size : BitVec 2) (disp : BitVec 32)
  | xchg (c : Nat) (q : Pred) (rd ra : BitVec 5) (seg : BitVec 3) (dword : Bool) (disp : BitVec 32)
  | fadd (c : Nat) (q : Pred) (rd ra : BitVec 5) (seg : BitVec 3) (dword : Bool) (disp : BitVec 32)
  | br (c : Nat) (q : Pred) (disp : BitVec 32)
  | brl (c : Nat) (q : Pred) (rl : BitVec 5) (disp : BitVec 32)
  | jr (c : Nat) (q : Pred) (rl ra : BitVec 5)
  | fmac (c : Nat) (q : Pred) (ad : BitVec 2) (ra rb : BitVec 5) (fmt rnd : BitVec 2) (sat : Bool)
  | fmsu (c : Nat) (q : Pred) (ad : BitVec 2) (ra rb : BitVec 5) (fmt rnd : BitVec 2) (sat : Bool)
  | fmul (c : Nat) (q : Pred) (ad : BitVec 2) (ra rb : BitVec 5) (fmt rnd : BitVec 2) (sat : Bool)
  | flda (c : Nat) (q : Pred) (ad : BitVec 2) (ra : BitVec 5) (sat : Bool) (k : BitVec 6)
  | faddg (c : Nat) (q : Pred) (ad : BitVec 2) (ra : BitVec 5) (sat : Bool) (k : BitVec 6)
  | fext (c : Nat) (q : Pred) (rd : BitVec 5) (ad : BitVec 2) (fmt : QFmt) (rnd : BitVec 2) (sat : Bool) (k : BitVec 6)
  | frawl (c : Nat) (q : Pred) (rd : BitVec 5) (ad : BitVec 2)
  | frawh (c : Nat) (q : Pred) (rd : BitVec 5) (ad : BitVec 2)
  | fraws (c : Nat) (q : Pred) (ad : BitVec 2) (ra rb : BitVec 5)
  -- units: how many 64-byte units the block instruction does before the boundary at which the step ends
  | bcopy (c : Nat) (q : Pred) (rd ra rb : BitVec 5) (sd sa : BitVec 3) (units : Nat)
  | bfill (c : Nat) (q : Pred) (rd ra rb : BitVec 5) (sd : BitVec 3) (units : Nat)
  | bcmpeq (c : Nat) (q : Pred) (rd ra rb : BitVec 5) (sd sa pd : BitVec 3) (units : Nat)
  | calls (c : Nat) (q : Pred) (gate : BitVec 16)
  | retx (c : Nat) (q : Pred)
  | fence (c : Nat) (q : Pred)
  | fenceAcl (c : Nat) (q : Pred)
  | fenceI (c : Nat) (q : Pred)
  | movcr (c : Nat) (q : Pred) (ra : BitVec 5) (cr : BitVec 16)
  | movrc (c : Nat) (q : Pred) (rd : BitVec 5) (cr : BitVec 16)
  | sgld (c : Nat) (q : Pred) (ra : BitVec 5) (target seg : BitVec 3)
  | sgst (c : Nat) (q : Pred) (ra : BitVec 5) (target seg : BitVec 3)
  | rdst (c : Nat) (q : Pred) (rd : BitVec 5)
  | clrsat (c : Nat) (q : Pred)
  | wait (c : Nat) (q : Pred)
  | brk (c : Nat) (q : Pred)
  | udf (c : Nat) (word : BitVec 64)
  | reservedEncoding (c : Nat) (word : BitVec 64)
  -- chapter 10
  | asyncBusError (c : Nat) (cls rule : Nat)
  | abeDelivery (c : Nat)
  | eventEntry (c : Nat)
  | mhiWrite (c : Nat) (v : BitVec 64)
  | fsLock (c : Nat)
  | abeInfoClear (c : Nat)
  | supervisorRestart
  -- chapter 11. n is a channel, line an event line.
  | eventLineRaise (n line : Nat)
  | eventLineFall (n line : Nat)
  -- src: a line, or 0x0200 or 0x0201 for the oldest waiting request event of that number
  | eventPresent (n src : Nat)
  | recordWithdraw (c pos : Nat)
  | claim (c : Nat)
  | release (c pos : Nat)
  | pendWrite (n word : Nat) (v : BitVec 32)
  | holdwRequest (c word : Nat)
  | holdwRelease (c : Nat)
  | holdwLimit (c : Nat)
  | wake (c : Nat)
  | deepSleepWake (c : Nat)
  | deviceEventRaise (event data : Nat)
  | deviceEventRecord
  -- chapter 12
  | aclCheck
  | aclCheckComplete
  | aclCommit
  | aclShadowWrite (off size value : Nat)
  | aclEpoch
  | aclVpop
  | mpeZero (start size : Nat)
  | sramPatrolScrub (n word : Nat) (f : EccFinding)
  | ddrPatrolScrub (line : Nat) (f : EccFinding)
  | remapCopyComplete (unit : Nat)
  | memRd (size addr : Nat)
  | memWr (size addr data : Nat)
  | halt (target : Nat)
  | debugResume (target : Nat)
  | step (target : Nat)
  | regRd (target : Nat) (reg : DbgReg)
  | armBrk (target : Nat)
  | dstatRd (target : Nat)
  | extest
  | idcode
  | samplePreload
  | clamp
  | highz
  | bypass
  -- transports of management: `c` a CAN channel number, `f` a physical function; `dst` and `ttl` of a MGMT message
  | canFrameReceive (ext fd : Bool) (id : Nat) (data : Bytes)
  | canReassemblyTimeout (c : Nat)
  | busOff
  | busOffRecovery
  | mbDoorbell (f v : Nat)
  | mbAck (f : Nat)
  | mbDisable (f : Nat)
  | mgmtHello (m : Nat) (body : Bytes)
  -- chapter 13: management. `m`: a session, 0 to 7 on CAN, 8 to 15 on a mailbox, 16 to 31 over the Frieze
  | read (m flags : Nat) (items : List MgItem)
  | write (m : Nat) (items : List MgItem)
  | describe (m : Nat) (items : List MgItem)
  | next (m : Nat) (items : List MgItem)
  | begin (m : Nat)
  | commit (m : Nat)
  | configStoreWritten (ok : Bool)
  | channelInstallCommit (n : Nat)
  | rollback (m : Nat)
  | txnStatus (m : Nat)
  | poll (m : Nat)
  | txnInactivityExpiry (m : Nat)
  | txnLifetimeExpiry (m : Nat)
  -- chapter 14
  | linkBlock (p fec : Nat) (block : Bytes)
  | portSignalDetect (p : Nat)
  | trainingComplete (p : Nat) (ber : Bool) (loss : List Nat)
  | alignLock (p : Nat)
  | lhello (p : Nat) (nonce pub cap chain leaf anchor sig : Bytes) (chainOk : Bool)
  | measureComplete (p : Nat)
  | bringupStepTimeout (p : Nat)
  | laneLossOfLock (p : Nat)
  | linkRekey (p : Nat)
  | lhelloRefresh (p : Nat)
  | time (p t1 t2 t3 t4 : Nat)
  | timeExchangeTimer (p : Nat)
  | topo (p : Nat) (t : Machine.Topo)
  | topoTimer
  | advert (p : Nat) (a : Machine.Advert)
  | advertTimer
  | spillReq (p : Nat) (env msg : Bytes)
  | spillRsp (p : Nat) (env msg : Bytes)
  | spillReturn (p : Nat) (env : Bytes)
  | alarm (p origin : Nat) (serial : Bytes) (seq code lvl time : Nat)
  | mgmt (p src dst ttl : Nat) (data : Bytes)
  | mgmtReassemblyTimeout (p : Nat)
  | stage (p origin txn : Nat) (st : List Machine.Staged) (l : List (Nat × Machine.Slot))
  | prepare (p coord origin txn d : Nat) (st : List Machine.Staged) (l : List (Nat × Machine.Slot))
  | vote (p src d : Nat) (yes : Bool) (reason : Nat)
  | decide (p coord d : Nat) (commit : Bool) (blame reason : Nat)
  | domainAck (p src d : Nat)
  | query (p src d : Nat)
  | outcome (p d : Nat) (commit : Bool)
  | sync (p t : Nat) (r : Machine.Tenant) (l : List (Nat × Machine.Slot)) (domVer : Nat) (members : Bytes) (last : Bool)
  | prepareTimeout (d : Nat)
  | decideResend (d : Nat)
  | queryTimer (d : Nat)
  | decisionWaitTimeout
  | abandonDtxn (m d : Nat)
  -- chapter 15
  | alarmReport (a : Nat) (sdata : Bytes)
  | decisionWindowClose
  | alarmDeassert (a : Nat)
  | holdTimeExpiry (a : Nat)
  | endResponseWrite (m a : Nat)
  | eraseReadback (zero : Bool)
  | armaturePatternPeriod (nets : List Nat)
  | armatureRcMeasure (g r c : Nat)
  | detectorSelfTest (a : Nat) (reported : Bool)
  | tampInSample (n : Nat) (window : Bool) (v : Nat)
  | unpoweredSample (rtc : Nat) (zero : Bool) (reports : List (Nat × Bytes))
  -- chapters 16 and 19: `b` is what boot finds; `ns` how long SYS_RST_N is low
  | mainPowerFail
  | patinaBufferWrite (n : Nat)
  | patinaPageProgram (ok : Bool)
  | patinaPadTimeout (ok : Bool)
  | checkpointIntervalExpiry
  | checkpointNow (m : Nat)
  | checkpointRead (m : Nat)
  | checkpointAck (m : Nat) (data : Bytes)
  | blockRecycle
  | chainVerify (bad : Option Nat)
  | program
  | erase
  | suspend
  | resume
  | blankCheck
  -- chapter 16
  | flashCommandComplete (ok : Bool) (time : Nat)
  | flashUnitRead (unit count : Nat)
  | flashScrub
  | resetRelease (b : Machine.BootIn)
  | keystoreWaitRetry (b : Machine.BootIn)
  | trialExpiry
  | revert (m : Nat)
  -- chapter 17: `k` is a contact slot; `card` comes with an insertion, `fail` the step of R555 that it fails or 0
  | sdCardInsert (card : Machine.SdCard) (fail : Nat)
  | sdCardRemove
  | sdBusyTimeout
  | sdSleep
  -- writes of one dictionary entry by session `m`
  | format (m : Nat)
  | keyStoreBackup (m : Nat)
  | clearTmpWriteProtect (m : Nat)
  | recoverySet (m : Nat)
  | patinaExport (m seq : Nat)
  | applyAcknowledgements (m : Nat)
  | setWriteComplete
  | officerCardInsert (k : Nat) (atr : Bytes) (t1 classA ok : Bool)
  | officerCardRemove (k : Nat)
  | cardResponse (k : Nat) (data : Bytes) (sw : Nat)
  | parameterRecordWrite (m : Nat) (record : Bytes)
  | mkGenerate (m : Nat)
  | mkCombine (m : Nat)
  | mkRollover (m : Nat)
  | zeroize (m : Nat)
  | reinit (m : Nat)
  | decommission (m : Nat)
  | debugUnlock (m : Nat)
  | endResponse (m : Nat)
  | keyGenerate (m : Nat)
  | keyComponents (m : Nat)
  | publicLoad (m : Nat)
  | restore (m : Nat)
  | rosterChange (m : Nat)
  | ceremonyCancel (m : Nat)
  | ceremonyTimeout
  -- chapter 18
  | counterClear (m : Nat) (data : Bytes)
  | selfTestRequest (m n : Nat)
  | urgentSelfTest (m n : Nat)
  | releaseQuarantine (m n : Nat)
  | quarantineTestStart (n : Nat)
  -- block by row of Table 18-3 from 0, its unit, whether the slice found no fault, whether it ends a full pass
  | sharedBlockTestSlice (block unit : Nat) (ok last : Bool)
  -- group: 0 channel, 1 Ethernet port, 2 PCIe endpoint, 3 Frieze port
  | stateDivergence (group unit : Nat)
  | railSample (mv : List Nat)
  | temperatureSample (points : List Int)
  | batteryVoltageSample (mv : Nat)
  | batteryLoadTest (v0 v1 : Nat)
  | newCell (m : Nat)
  | sysRstAssert (ns : Nat)
  -- a write by a master of the interconnect to a register; a host's write to BAR0 is one by master 0x60
  | registerWrite (master addr size v : Nat)
  | reencryptionComplete (group : Nat)
  | mpeZeroComplete
  | pcieTrainingComplete (speed width : Nat)
  | cardBusyRelease
  | partnerWaitExpiry
  | referenceClockPresent (b : Machine.BootIn)
  | supplyRecheck (b : Machine.BootIn)
  | plinthFirmwareRestart
  | almNAssertionExpiry
  | tapReset
  | waitingTimeExpiry (k : Nat)
deriving DecidableEq, Repr

end Sys2Proof
end

