-- ==== Sys2Proof/Decode.lean ====
section
/-! DEFINITION. Decoding: the table of commands gives its rows no bits, so no word spells a command; and
the encoding of the Ortan instructions (R315 to R341), which a debug STEP reads from memory and which
gives the word that an emulation trap records. -/

namespace Sys2Proof

/-- The command that a word of the opcode table spells: the table gives no row any bits. -/
def decodeTableWord (_nbits _w : Nat) : Option Instr := none

namespace Ortan

/-- Bits h down to l of a word. -/
def fld (w h l : Nat) : Nat := w / 2 ^ l % 2 ^ (h + 1 - l)

/-- PRD, NEG and OP, which every format has (R315). -/
def top (q : Pred) (op : Nat) : Nat := q.prd.toNat * 2 ^ 61 + q.neg.toNat * 2 ^ 60 + op * 2 ^ 54

-- Formats of Table 09-5.
def fmtR (rd ra rb fn : Nat) : Nat := rd * 2 ^ 49 + ra * 2 ^ 44 + rb * 2 ^ 39 + fn * 2 ^ 31
def fmtI (rd ra fn imm : Nat) : Nat := rd * 2 ^ 49 + ra * 2 ^ 44 + fn * 2 ^ 36 + imm
def fmtL (rd h imm : Nat) : Nat := rd * 2 ^ 49 + h * 2 ^ 48 + imm
def fmtC (pd pd2 ra rb cond i w imm : Nat) : Nat :=
  pd * 2 ^ 51 + pd2 * 2 ^ 48 + ra * 2 ^ 43 + rb * 2 ^ 38 + cond * 2 ^ 34 + i * 2 ^ 33 + w * 2 ^ 32 + imm
def fmtP (pd pa pb fn rg : Nat) : Nat := pd * 2 ^ 51 + pa * 2 ^ 48 + pb * 2 ^ 45 + fn * 2 ^ 41 + rg * 2 ^ 36
def fmtM (rd ra seg size sx fn disp : Nat) : Nat :=
  rd * 2 ^ 49 + ra * 2 ^ 44 + seg * 2 ^ 41 + size * 2 ^ 39 + sx * 2 ^ 38 + fn * 2 ^ 32 + disp
def fmtB (rl ra disp : Nat) : Nat := rl * 2 ^ 49 + ra * 2 ^ 44 + disp
def fmtF (rd ad ra rb fmt rnd sat fn k : Nat) : Nat :=
  rd * 2 ^ 49 + ad * 2 ^ 47 + ra * 2 ^ 42 + rb * 2 ^ 37 + fmt * 2 ^ 34 + rnd * 2 ^ 32 + sat * 2 ^ 31 + fn * 2 ^ 27 + k * 2 ^ 21
def fmtK (rd ra rb sd sa fn pd : Nat) : Nat :=
  rd * 2 ^ 49 + ra * 2 ^ 44 + rb * 2 ^ 39 + sd * 2 ^ 36 + sa * 2 ^ 33 + fn * 2 ^ 29 + pd * 2 ^ 26
def fmtS (rd ra fn imm : Nat) : Nat := rd * 2 ^ 49 + ra * 2 ^ 44 + fn * 2 ^ 36 + imm

/-- An ALU instruction in format R or I (R317); `fn` includes W in bit 7. -/
def encAlu (q : Pred) (rd ra : BitVec 5) (b : Opnd) (fn : Nat) : Nat :=
  match b with
  | .reg rb => top q 1 + fmtR rd.toNat ra.toNat rb.toNat fn
  | .imm v => top q 2 + fmtI rd.toNat ra.toNat fn v.toNat

def w7 (w : Bool) : Nat := w.toNat * 128

def Cond.code : Cond → Nat
  | .eq => 0 | .ne => 1 | .lt => 2 | .ge => 3 | .ltu => 4 | .geu => 5 | .tst => 6 | .ntst => 7

def QFmt.code : QFmt → Nat
  | .q15 => 0 | .q31 => 1 | .q63 => 2

/-- The word of an Ortan instruction; none for a command that is no instruction. -/
def encode : Instr → Option Nat
  | .add _ q rd ra b w => some (encAlu q rd ra b (0x00 + w7 w))
  | .sub _ q rd ra b w => some (encAlu q rd ra b (0x01 + w7 w))
  | .adds _ q rd ra b w => some (encAlu q rd ra b (0x02 + w7 w))
  | .subs _ q rd ra b w => some (encAlu q rd ra b (0x03 + w7 w))
  | .and _ q rd ra b => some (encAlu q rd ra b 0x04)
  | .or _ q rd ra b => some (encAlu q rd ra b 0x05)
  | .xor _ q rd ra b => some (encAlu q rd ra b 0x06)
  | .andn _ q rd ra b => some (encAlu q rd ra b 0x07)
  | .min _ q rd ra b => some (encAlu q rd ra b 0x08)
  | .max _ q rd ra b => some (encAlu q rd ra b 0x09)
  | .minu _ q rd ra b => some (encAlu q rd ra b 0x0A)
  | .maxu _ q rd ra b => some (encAlu q rd ra b 0x0B)
  | .shl _ q rd ra b w => some (encAlu q rd ra b (0x10 + w7 w))
  | .shr _ q rd ra b w => some (encAlu q rd ra b (0x11 + w7 w))
  | .sar _ q rd ra b w => some (encAlu q rd ra b (0x12 + w7 w))
  | .ror _ q rd ra b w => some (encAlu q rd ra b (0x13 + w7 w))
  | .extu _ q rd ra b => some (encAlu q rd ra b 0x14)
  | .exts _ q rd ra b => some (encAlu q rd ra b 0x15)
  | .ins _ q rd ra b => some (encAlu q rd ra b 0x16)
  | .clz _ q rd ra w i => some (encAlu q rd ra (if i then .imm 0 else .reg 0) (0x18 + w7 w))
  | .popc _ q rd ra w i => some (encAlu q rd ra (if i then .imm 0 else .reg 0) (0x19 + w7 w))
  | .bswap _ q rd ra w i => some (encAlu q rd ra (if i then .imm 0 else .reg 0) (0x1A + w7 w))
  | .movi _ q rd (.low v) => some (top q 3 + fmtL rd.toNat 0 v.toNat)
  | .movi _ q rd (.high v) => some (top q 3 + fmtL rd.toNat 1 v.toNat)
  | .cmp _ q pd pd2 ra (.reg rb) cond w =>
    some (top q 8 + fmtC pd.toNat pd2.toNat ra.toNat rb.toNat (Cond.code cond) 0 w.toNat 0)
  | .cmp _ q pd pd2 ra (.imm v) cond w =>
    some (top q 8 + fmtC pd.toNat pd2.toNat ra.toNat 0 (Cond.code cond) 1 w.toNat v.toNat)
  | .pand _ q pd pa pb => some (top q 9 + fmtP pd.toNat pa.toNat pb.toNat 0 0)
  | .por _ q pd pa pb => some (top q 9 + fmtP pd.toNat pa.toNat pb.toNat 1 0)
  | .pxor _ q pd pa pb => some (top q 9 + fmtP pd.toNat pa.toNat pb.toNat 2 0)
  | .pandn _ q pd pa pb => some (top q 9 + fmtP pd.toNat pa.toNat pb.toNat 3 0)
  | .pget _ q rg => some (top q 9 + fmtP 0 0 0 4 rg.toNat)
  | .pset _ q rg => some (top q 9 + fmtP 0 0 0 5 rg.toNat)
  | .muls32 _ q md ra rb => some (top q 0xC + fmtR md.toNat ra.toNat rb.toNat 0)
  | .mulu32 _ q md ra rb => some (top q 0xC + fmtR md.toNat ra.toNat rb.toNat 1)
  | .muls64 _ q md ra rb => some (top q 0xC + fmtR md.toNat ra.toNat rb.toNat 2)
  | .mulu64 _ q md ra rb => some (top q 0xC + fmtR md.toNat ra.toNat rb.toNat 3)
  | .movml _ q rd ms => some (top q 0xC + fmtR rd.toNat ms.toNat 0 0x10)
  | .movmh _ q rd ms => some (top q 0xC + fmtR rd.toNat ms.toNat 0 0x11)
  | .ld _ q rd ra seg size sx disp =>
    some (top q 0x10 + fmtM rd.toNat ra.toNat seg.toNat size.toNat sx.toNat 0 disp.toNat)
  | .st _ q rd ra seg size disp => some (top q 0x11 + fmtM rd.toNat ra.toNat seg.toNat size.toNat 0 0 disp.toNat)
  | .xchg _ q rd ra seg dw disp => some (top q 0x12 + fmtM rd.toNat ra.toNat seg.toNat (2 + dw.toNat) 0 0 disp.toNat)
  | .fadd _ q rd ra seg dw disp => some (top q 0x12 + fmtM rd.toNat ra.toNat seg.toNat (2 + dw.toNat) 0 1 disp.toNat)
  | .br _ q disp => some (top q 0x14 + fmtB 0 0 disp.toNat)
  | .brl _ q rl disp => some (top q 0x15 + fmtB rl.toNat 0 disp.toNat)
  | .jr _ q rl ra => some (top q 0x16 + fmtB rl.toNat ra.toNat 0)
  | .fmac _ q ad ra rb fmt rnd sat =>
    some (top q 0x18 + fmtF 0 ad.toNat ra.toNat rb.toNat fmt.toNat rnd.toNat sat.toNat 0 0)
  | .fmsu _ q ad ra rb fmt rnd sat =>
    some (top q 0x18 + fmtF 0 ad.toNat ra.toNat rb.toNat fmt.toNat rnd.toNat sat.toNat 1 0)
  | .fmul _ q ad ra rb fmt rnd sat =>
    some (top q 0x18 + fmtF 0 ad.toNat ra.toNat rb.toNat fmt.toNat rnd.toNat sat.toNat 2 0)
  | .flda _ q ad ra sat k => some (top q 0x18 + fmtF 0 ad.toNat ra.toNat 0 0 0 sat.toNat 3 k.toNat)
  | .faddg _ q ad ra sat k => some (top q 0x18 + fmtF 0 ad.toNat ra.toNat 0 0 0 sat.toNat 4 k.toNat)
  | .fext _ q rd ad fmt rnd sat k =>
    some (top q 0x18 + fmtF rd.toNat ad.toNat 0 0 (QFmt.code fmt) rnd.toNat sat.toNat 5 k.toNat)
  | .frawl _ q rd ad => some (top q 0x18 + fmtF rd.toNat ad.toNat 0 0 0 0 0 6 0)
  | .frawh _ q rd ad => some (top q 0x18 + fmtF rd.toNat ad.toNat 0 0 0 0 0 7 0)
  | .fraws _ q ad ra rb => some (top q 0x18 + fmtF 0 ad.toNat ra.toNat rb.toNat 0 0 0 8 0)
  | .bcopy _ q rd ra rb sd sa _ => some (top q 0x1C + fmtK rd.toNat ra.toNat rb.toNat sd.toNat sa.toNat 0 0)
  | .bfill _ q rd ra rb sd _ => some (top q 0x1C + fmtK rd.toNat ra.toNat rb.toNat sd.toNat 0 1 0)
  | .bcmpeq _ q rd ra rb sd sa pd _ =>
    some (top q 0x1C + fmtK rd.toNat ra.toNat rb.toNat sd.toNat sa.toNat 2 pd.toNat)
  | .calls _ q gate => some (top q 0x20 + fmtS 0 0 1 gate.toNat)
  | .retx _ q => some (top q 0x20 + fmtS 0 0 2 0)
  | .fence _ q => some (top q 0x20 + fmtS 0 0 3 0)
  | .fenceAcl _ q => some (top q 0x20 + fmtS 0 0 4 0)
  | .fenceI _ q => some (top q 0x20 + fmtS 0 0 5 0)
  | .movcr _ q ra cr => some (top q 0x20 + fmtS 0 ra.toNat 6 cr.toNat)
  | .movrc _ q rd cr => some (top q 0x20 + fmtS rd.toNat 0 7 cr.toNat)
  | .sgld _ q ra target seg => some (top q 0x20 + fmtS 0 ra.toNat 8 (target.toNat + seg.toNat * 256))
  | .sgst _ q ra target seg => some (top q 0x20 + fmtS 0 ra.toNat 9 (target.toNat + seg.toNat * 256))
  | .rdst _ q rd => some (top q 0x20 + fmtS rd.toNat 0 0xA 0)
  | .clrsat _ q => some (top q 0x20 + fmtS 0 0 0xB 0)
  | .wait _ q => some (top q 0x20 + fmtS 0 0 0xC 0)
  | .brk _ q => some (top q 0x20 + fmtS 0 0 0xD 0)
  | .udf _ w => some w.toNat
  | .reservedEncoding _ w => some w.toNat
  | _ => none

/-- Units of a block instruction when nothing interrupts it: n is at most 2^32 bytes. -/
def allUnits : Nat := 2 ^ 26

/-- Compare conditions by number; 8 to 15 are reserved. -/
def condOf : Nat → Option Cond
  | 0 => some .eq | 1 => some .ne | 2 => some .lt | 3 => some .ge | 4 => some .ltu | 5 => some .geu
  | 6 => some .tst | 7 => some .ntst | _ => none

def qfmtOf : Nat → Option QFmt
  | 0 => some .q15 | 1 => some .q31 | 2 => some .q63 | _ => none

/-- ALU functions of Table 09-7 by FN bits 6:0 and W. -/
def aluOf (c : Nat) (q : Pred) (rd ra : BitVec 5) (b : Opnd) (fn : Nat) (w : Bool) : Option Instr :=
  match fn with
  | 0x00 => some (.add c q rd ra b w)
  | 0x01 => some (.sub c q rd ra b w)
  | 0x02 => some (.adds c q rd ra b w)
  | 0x03 => some (.subs c q rd ra b w)
  | 0x04 => some (.and c q rd ra b)
  | 0x05 => some (.or c q rd ra b)
  | 0x06 => some (.xor c q rd ra b)
  | 0x07 => some (.andn c q rd ra b)
  | 0x08 => some (.min c q rd ra b)
  | 0x09 => some (.max c q rd ra b)
  | 0x0A => some (.minu c q rd ra b)
  | 0x0B => some (.maxu c q rd ra b)
  | 0x10 => some (.shl c q rd ra b w)
  | 0x11 => some (.shr c q rd ra b w)
  | 0x12 => some (.sar c q rd ra b w)
  | 0x13 => some (.ror c q rd ra b w)
  | 0x14 => some (.extu c q rd ra b)
  | 0x15 => some (.exts c q rd ra b)
  | 0x16 => some (.ins c q rd ra b)
  | 0x18 => some (.clz c q rd ra w (match b with | .imm _ => true | .reg _ => false))
  | 0x19 => some (.popc c q rd ra w (match b with | .imm _ => true | .reg _ => false))
  | 0x1A => some (.bswap c q rd ra w (match b with | .imm _ => true | .reg _ => false))
  | _ => none

/-- W is allowed only where Table 09-7 says so (R317). -/
def wAllowed (fn : Nat) : Bool := fn ≤ 3 || (0x10 ≤ fn && fn ≤ 0x13) || 0x18 ≤ fn

def g5 (n : Nat) : BitVec 5 := BitVec.ofNat 5 n
def b3 (n : Nat) : BitVec 3 := BitVec.ofNat 3 n
def b2 (n : Nat) : BitVec 2 := BitVec.ofNat 2 n

/-- The instruction that a word's fields name, before the check of reserved fields. -/
def candidate (c : Nat) (w : Nat) : Option Instr :=
  let q : Pred := { prd := b3 (fld w 63 61), neg := fld w 60 60 = 1 }
  let r1 := g5 (fld w 53 49)
  let r2 := g5 (fld w 48 44)
  let r3 := g5 (fld w 43 39)
  match fld w 59 54 with
  | 0x01 =>
    if fld w 38 38 = 1 ∧ !wAllowed (fld w 37 31) then none
    else aluOf c q r1 r2 (.reg r3) (fld w 37 31) (fld w 38 38 = 1)
  | 0x02 =>
    if fld w 43 43 = 1 ∧ !wAllowed (fld w 42 36) then none
    else aluOf c q r1 r2 (.imm (BitVec.ofNat 32 (fld w 31 0))) (fld w 42 36) (fld w 43 43 = 1)
  | 0x03 =>
    if fld w 48 48 = 1 then some (.movi c q r1 (.high (BitVec.ofNat 16 (fld w 15 0))))
    else some (.movi c q r1 (.low (BitVec.ofNat 48 (fld w 47 0))))
  | 0x08 =>
    match condOf (fld w 37 34) with
    | none => none
    | some cond =>
      let pd := b3 (fld w 53 51)
      let pd2 := b3 (fld w 50 48)
      if pd = pd2 ∧ pd ≠ 0 then none
      else some (.cmp c q pd pd2 (g5 (fld w 47 43))
        (if fld w 33 33 = 1 then .imm (BitVec.ofNat 32 (fld w 31 0)) else .reg (g5 (fld w 42 38))) cond (fld w 32 32 = 1))
  | 0x09 =>
    let pd := b3 (fld w 53 51)
    let pa := b3 (fld w 50 48)
    let pb := b3 (fld w 47 45)
    match fld w 44 41 with
    | 0 => some (.pand c q pd pa pb)
    | 1 => some (.por c q pd pa pb)
    | 2 => some (.pxor c q pd pa pb)
    | 3 => some (.pandn c q pd pa pb)
    | 4 => some (.pget c q (g5 (fld w 40 36)))
    | 5 => some (.pset c q (g5 (fld w 40 36)))
    | _ => none
  | 0x0C =>
    match fld w 38 31 with
    | 0x00 => some (.muls32 c q (b2 (fld w 50 49)) r2 r3)
    | 0x01 => some (.mulu32 c q (b2 (fld w 50 49)) r2 r3)
    | 0x02 => some (.muls64 c q (b2 (fld w 50 49)) r2 r3)
    | 0x03 => some (.mulu64 c q (b2 (fld w 50 49)) r2 r3)
    | 0x10 => some (.movml c q r1 (b2 (fld w 45 44)))
    | 0x11 => some (.movmh c q r1 (b2 (fld w 45 44)))
    | _ => none
  | 0x10 => some (.ld c q r1 r2 (b3 (fld w 43 41)) (b2 (fld w 40 39)) (fld w 38 38 = 1) (BitVec.ofNat 32 (fld w 31 0)))
  | 0x11 => some (.st c q r1 r2 (b3 (fld w 43 41)) (b2 (fld w 40 39)) (BitVec.ofNat 32 (fld w 31 0)))
  | 0x12 =>
    if fld w 37 32 = 0 then some (.xchg c q r1 r2 (b3 (fld w 43 41)) (fld w 39 39 = 1) (BitVec.ofNat 32 (fld w 31 0)))
    else if fld w 37 32 = 1 then some (.fadd c q r1 r2 (b3 (fld w 43 41)) (fld w 39 39 = 1) (BitVec.ofNat 32 (fld w 31 0)))
    else none
  | 0x14 => some (.br c q (BitVec.ofNat 32 (fld w 31 0)))
  | 0x15 => some (.brl c q r1 (BitVec.ofNat 32 (fld w 31 0)))
  | 0x16 => some (.jr c q r1 r2)
  | 0x18 =>
    let ad := b2 (fld w 48 47)
    let ra := g5 (fld w 46 42)
    let rb := g5 (fld w 41 37)
    let fmt := fld w 36 34
    let rnd := b2 (fld w 33 32)
    let sat : Bool := fld w 31 31 = 1
    let k := BitVec.ofNat 6 (fld w 26 21)
    let prodOk : Bool := fmt < 4 && (fmt = 3 || rnd = 0)
    match fld w 30 27 with
    | 0 => if prodOk then some (.fmac c q ad ra rb (b2 fmt) rnd sat) else none
    | 1 => if prodOk then some (.fmsu c q ad ra rb (b2 fmt) rnd sat) else none
    | 2 => if prodOk then some (.fmul c q ad ra rb (b2 fmt) rnd sat) else none
    | 3 => some (.flda c q ad ra sat k)
    | 4 => some (.faddg c q ad ra sat k)
    | 5 => (qfmtOf fmt).map (fun f => .fext c q r1 ad f rnd sat k)
    | 6 => some (.frawl c q r1 ad)
    | 7 => some (.frawh c q r1 ad)
    | 8 => some (.fraws c q ad ra rb)
    | _ => none
  | 0x1C =>
    let sd := b3 (fld w 38 36)
    let sa := b3 (fld w 35 33)
    match fld w 32 29 with
    | 0 => some (.bcopy c q r1 r2 r3 sd sa allUnits)
    | 1 => some (.bfill c q r1 r2 r3 sd allUnits)
    | 2 => some (.bcmpeq c q r1 r2 r3 sd sa (b3 (fld w 28 26)) allUnits)
    | _ => none
  | 0x20 =>
    let imm := fld w 15 0
    match fld w 43 36 with
    | 0x01 => some (.calls c q (BitVec.ofNat 16 imm))
    | 0x02 => some (.retx c q)
    | 0x03 => some (.fence c q)
    | 0x04 => some (.fenceAcl c q)
    | 0x05 => some (.fenceI c q)
    | 0x06 => some (.movcr c q r2 (BitVec.ofNat 16 imm))
    | 0x07 => some (.movrc c q r1 (BitVec.ofNat 16 imm))
    | 0x08 => some (.sgld c q r2 (b3 (fld imm 2 0)) (b3 (fld imm 10 8)))
    | 0x09 => some (.sgst c q r2 (b3 (fld imm 2 0)) (b3 (fld imm 10 8)))
    | 0x0A => some (.rdst c q r1)
    | 0x0B => some (.clrsat c q)
    | 0x0C => some (.wait c q)
    | 0x0D => some (.brk c q)
    | _ => none
  | _ => none

/-- Is a word permanently undefined (R341)? -/
def isUdf (w : BitVec 64) : Bool := fld w.toNat 59 54 = 0 || fld w.toNat 59 54 = 0x3F

/-- The instruction of a word (R315, R340, R341): UDF, the instruction its fields name when every
reserved field is zero, or a reserved encoding. -/
def decode (c : Nat) (w : BitVec 64) : Instr :=
  if isUdf w then .udf c w
  else
    match candidate c w.toNat with
    | none => .reservedEncoding c w
    | some i =>
      match encode i with
      | some e => if e = w.toNat then i else .reservedEncoding c w
      | none => .reservedEncoding c w

end Ortan

end Sys2Proof
end

