-- ==== Sys2Proof/Machine/OdTable.lean ====
section
/-! DEFINITION. The entries of the object dictionary, as the entry tables of the chapters give them
(13_object_dictionary.md R420). One row serves `count` indices, `stride` apart. Defaults that are not
numbers (octet strings, and the alarm levels of Table 15-1) stand as 0 here and are given where the
entry is read. -/

namespace Sys2Proof.Machine

/-- Entry types (00_scope.md, Object-dictionary references). -/
inductive OdType where
  | bool | u8 | u16 | u32 | u64 | i16 | i32 | enum | time64 | octets | str
deriving DecidableEq, Repr

/-- Entry access rights (00_scope.md, Object-dictionary references; R9). -/
inductive OdAccess where
  | ro | rw | wo | rwt | const
deriving DecidableEq, Repr

/-- A row of an entry table: first index, how many indices and how far apart, subindex, type, access,
default, persisted, RS counter, least and largest value. -/
structure OdEntry where
  index : Nat
  count : Nat
  stride : Nat
  sub : Nat
  typ : OdType
  access : OdAccess
  dflt : Int
  persist : Bool
  counter : Bool
  lo : Int
  hi : Int
deriving DecidableEq, Repr

/-- Entries of chapter 2. -/
def odRows02 : List OdEntry := [
  ⟨0x1020, 4, 1, 0x01, .u32, .rwt, 0, true, false, 0, 4294967295⟩,
  ⟨0x1020, 4, 1, 0x02, .octets, .rwt, 0, true, false, 0, 0⟩,
  ⟨0x1020, 4, 1, 0x03, .u16, .rwt, 7040, true, false, 0, 65535⟩,
  ⟨0x1020, 4, 1, 0x04, .u16, .rwt, 1500, true, false, 1500, 9216⟩,
  ⟨0x1020, 4, 1, 0x05, .u16, .rwt, 0, true, false, 0, 4094⟩,
  ⟨0x1020, 4, 1, 0x06, .u32, .rwt, 10000, true, false, 0, 4294967295⟩,
  ⟨0x1020, 4, 1, 0x07, .bool, .rwt, 0, true, false, 0, 1⟩,
  ⟨0x1020, 4, 1, 0x08, .u16, .rwt, 64, true, false, 1, 256⟩,
  ⟨0x1028, 1, 1, 0x01, .u32, .rwt, 86400, true, false, 600, 604800⟩,
  ⟨0x1028, 1, 1, 0x02, .u32, .rwt, 300, true, false, 10, 3600⟩,
  ⟨0x1030, 8, 1, 0x01, .u16, .rwt, 0, true, false, 0, 65535⟩,
  ⟨0x1030, 8, 1, 0x02, .u16, .rwt, 0, true, false, 0, 65535⟩]

/-- Entries of chapter 3. -/
def odRows03 : List OdEntry := [
  ⟨0x4120, 1, 1, 0x01, .u8, .rwt, 3, true, false, 1, 15⟩,
  ⟨0x4120, 1, 1, 0x02, .u32, .rwt, 4194304, true, false, 65536, 16777216⟩,
  ⟨0x4120, 1, 1, 0x03, .bool, .rwt, 0, true, false, 0, 1⟩,
  ⟨0x4120, 1, 1, 0x04, .u32, .ro, 4194304, false, false, 0, 4294967295⟩,
  ⟨0x4121, 1, 1, 0x01, .u32, .rwt, 600, true, false, 10, 86400⟩,
  ⟨0x4121, 1, 1, 0x02, .u16, .rwt, 64, true, false, 1, 4096⟩,
  ⟨0x4122, 1, 1, 0x01, .u16, .ro, 0, false, false, 0, 65535⟩,
  ⟨0x9050, 1, 1, 0x01, .u32, .ro, 0, false, true, 0, 4294967295⟩]

/-- Entries of chapter 4. -/
def odRows04 : List OdEntry := [
  ⟨0x4123, 1, 1, 0x01, .u16, .ro, 0, false, false, 0, 65535⟩,
  ⟨0x4123, 1, 1, 0x02, .u32, .ro, 0, false, false, 0, 4294967295⟩,
  ⟨0x4124, 1, 1, 0x01, .octets, .rwt, 0, true, false, 0, 0⟩,
  ⟨0x4124, 1, 1, 0x02, .u16, .rwt, 0, true, false, 0, 65535⟩,
  ⟨0x4125, 1, 1, 0x01, .octets, .rwt, 0, true, false, 0, 0⟩,
  ⟨0x4125, 1, 1, 0x02, .octets, .rwt, 0, true, false, 0, 0⟩,
  ⟨0x9051, 1, 1, 0x01, .u64, .ro, 0, false, true, 0, 18446744073709551615⟩,
  ⟨0x9051, 1, 1, 0x02, .u64, .ro, 0, false, true, 0, 18446744073709551615⟩,
  ⟨0x9051, 1, 1, 0x03, .u32, .ro, 0, false, true, 0, 4294967295⟩]

/-- Entries of chapter 5. -/
def odRows05 : List OdEntry := [
  ⟨0x4001, 1, 1, 0x01, .u16, .rwt, 16, true, false, 1, 1024⟩,
  ⟨0x4001, 1, 1, 0x02, .u16, .rwt, 4, true, false, 1, 1024⟩,
  ⟨0x4001, 1, 1, 0x03, .u16, .rwt, 1, true, false, 1, 1024⟩,
  ⟨0x4001, 1, 1, 0x04, .u32, .rwt, 16384, true, false, 1024, 1048576⟩,
  ⟨0x4001, 1, 1, 0x05, .u8, .rwt, 64, true, false, 1, 255⟩,
  ⟨0x4002, 1, 1, 0x01, .u32, .ro, 0, false, false, 0, 4294967295⟩,
  ⟨0x4002, 1, 1, 0x02, .u32, .ro, 0, false, false, 0, 4294967295⟩,
  ⟨0x4002, 1, 1, 0x03, .u32, .const, 40960, false, false, 0, 4294967295⟩,
  ⟨0x4002, 1, 1, 0x04, .u32, .const, 358400, false, false, 0, 4294967295⟩,
  ⟨0x4002, 1, 1, 0x05, .u32, .ro, 0, false, false, 0, 4294967295⟩,
  ⟨0x4003, 1, 1, 0x01, .bool, .rwt, 0, true, false, 0, 1⟩,
  ⟨0x4003, 1, 1, 0x02, .u32, .rwt, 200, true, false, 10, 100000⟩,
  ⟨0x4003, 1, 1, 0x03, .u32, .rwt, 20, true, false, 1, 100000⟩,
  ⟨0x4003, 1, 1, 0x04, .bool, .rwt, 0, true, false, 0, 1⟩,
  ⟨0x4003, 1, 1, 0x05, .u8, .rwt, 2, true, false, 1, 8⟩,
  ⟨0x4004, 1, 1, 0x01, .u32, .rwt, 16384, true, false, 1, 262144⟩,
  ⟨0x4010, 1, 1, 0x01, .octets, .rwt, 0, true, false, 0, 0⟩,
  ⟨0x4010, 1, 1, 0x02, .u32, .rw, 0, false, false, 0, 4294967295⟩,
  ⟨0x4010, 1, 1, 0x03, .octets, .ro, 0, false, false, 0, 0⟩,
  ⟨0x4030, 1, 1, 0x01, .octets, .rwt, 0, true, false, 0, 0⟩,
  ⟨0x4030, 1, 1, 0x02, .u16, .rw, 0, false, false, 0, 65535⟩,
  ⟨0x4030, 1, 1, 0x03, .octets, .ro, 0, false, false, 0, 0⟩,
  ⟨0x9052, 1, 1, 0x01, .u16, .rw, 0, false, false, 0, 65535⟩,
  ⟨0x9052, 1, 1, 0x02, .u64, .ro, 0, false, true, 0, 18446744073709551615⟩,
  ⟨0x9052, 1, 1, 0x03, .u64, .ro, 0, false, true, 0, 18446744073709551615⟩,
  ⟨0x9052, 1, 1, 0x04, .u64, .ro, 0, false, true, 0, 18446744073709551615⟩,
  ⟨0x9052, 1, 1, 0x05, .u32, .ro, 0, false, true, 0, 4294967295⟩,
  ⟨0x9052, 1, 1, 0x06, .u32, .ro, 0, false, true, 0, 4294967295⟩,
  ⟨0x9052, 1, 1, 0x07, .u64, .ro, 0, false, true, 0, 18446744073709551615⟩,
  ⟨0x9052, 1, 1, 0x08, .u64, .ro, 0, false, true, 0, 18446744073709551615⟩,
  ⟨0x9052, 1, 1, 0x09, .u64, .ro, 0, false, true, 0, 18446744073709551615⟩,
  ⟨0x9053, 1, 1, 0x01, .u64, .ro, 0, false, true, 0, 18446744073709551615⟩,
  ⟨0x9053, 1, 1, 0x02, .u64, .ro, 0, false, true, 0, 18446744073709551615⟩,
  ⟨0x9053, 1, 1, 0x03, .u32, .ro, 0, false, false, 0, 4294967295⟩,
  ⟨0x9053, 1, 1, 0x04, .u32, .ro, 0, false, false, 0, 4294967295⟩,
  ⟨0x9053, 1, 1, 0x05, .u32, .ro, 0, false, true, 0, 4294967295⟩,
  ⟨0x9053, 1, 1, 0x06, .u32, .ro, 0, false, true, 0, 4294967295⟩,
  ⟨0x9053, 1, 1, 0x07, .u64, .ro, 0, false, true, 0, 18446744073709551615⟩]

/-- Entries of chapter 6. -/
def odRows06 : List OdEntry := [
  ⟨0x5030, 1, 1, 0x01, .u8, .rwt, 16, true, false, 0, 64⟩,
  ⟨0x5030, 1, 1, 0x02, .u32, .rwt, 67108864, true, false, 1048576, 1073741824⟩,
  ⟨0x5030, 1, 1, 0x03, .u64, .const, 4294967296, false, false, 0, 18446744073709551615⟩,
  ⟨0x5030, 1, 1, 0x04, .u8, .const, 16, false, false, 0, 255⟩,
  ⟨0x3010, 9, 256, 0x01, .u16, .ro, 0, false, false, 0, 65535⟩,
  ⟨0x3010, 9, 256, 0x02, .u16, .ro, 0, false, false, 0, 65535⟩,
  ⟨0x3010, 9, 256, 0x03, .u64, .ro, 0, false, true, 0, 18446744073709551615⟩,
  ⟨0x3010, 9, 256, 0x04, .u8, .ro, 0, false, false, 0, 255⟩,
  ⟨0x3010, 9, 256, 0x05, .u64, .ro, 0, false, true, 0, 18446744073709551615⟩,
  ⟨0x3010, 9, 256, 0x06, .u64, .ro, 0, false, true, 0, 18446744073709551615⟩,
  ⟨0x3010, 9, 256, 0x07, .u32, .ro, 0, false, true, 0, 4294967295⟩,
  ⟨0x3010, 9, 256, 0x08, .octets, .ro, 0, false, false, 0, 0⟩,
  ⟨0x3011, 9, 256, 0x01, .enum, .ro, 0, false, false, 0, 255⟩,
  ⟨0x3011, 9, 256, 0x02, .u64, .ro, 0, false, true, 0, 18446744073709551615⟩,
  ⟨0x2030, 1, 1, 0x01, .enum, .ro, 0, false, false, 0, 255⟩,
  ⟨0x2030, 1, 1, 0x02, .enum, .ro, 0, false, false, 0, 255⟩,
  ⟨0x2030, 1, 1, 0x03, .u64, .ro, 0, false, true, 0, 18446744073709551615⟩,
  ⟨0x9060, 1, 1, 0x01, .u16, .rwt, 2, true, false, 1, 1000⟩,
  ⟨0x9060, 1, 1, 0x02, .u32, .rwt, 3600, true, false, 1, 604800⟩]

/-- Entries of chapter 7. -/
def odRows07 : List OdEntry := [
  ⟨0x3012, 9, 256, 0x01, .u64, .ro, 0, false, true, 0, 18446744073709551615⟩,
  ⟨0x3012, 9, 256, 0x02, .u64, .ro, 0, false, true, 0, 18446744073709551615⟩,
  ⟨0x3012, 9, 256, 0x03, .u32, .ro, 0, false, true, 0, 4294967295⟩,
  ⟨0x3012, 9, 256, 0x04, .u64, .ro, 0, false, true, 0, 18446744073709551615⟩,
  ⟨0x3012, 9, 256, 0x05, .u64, .ro, 0, false, true, 0, 18446744073709551615⟩,
  ⟨0x3012, 9, 256, 0x06, .u32, .ro, 0, false, true, 0, 4294967295⟩,
  ⟨0x3012, 9, 256, 0x07, .u16, .ro, 0, false, false, 0, 65535⟩,
  ⟨0x3012, 9, 256, 0x08, .u32, .ro, 0, false, true, 0, 4294967295⟩,
  ⟨0x9061, 1, 1, 0x01, .u16, .rwt, 2, true, false, 1, 1000⟩,
  ⟨0x9061, 1, 1, 0x02, .u32, .rwt, 3600, true, false, 1, 604800⟩]

/-- Entries of chapter 8. -/
def odRows08 : List OdEntry := [
  ⟨0x5000, 1, 1, 0x01, .enum, .ro, 0, false, false, 0, 255⟩,
  ⟨0x5001, 1, 1, 0x01, .u32, .ro, 0, false, false, 0, 4294967295⟩,
  ⟨0x5001, 1, 1, 0x02, .u32, .ro, 0, false, false, 0, 4294967295⟩,
  ⟨0x5001, 1, 1, 0x03, .u32, .ro, 0, false, false, 0, 4294967295⟩,
  ⟨0x5002, 1, 1, 0x01, .u32, .rwt, 49152, true, false, 1024, 61440⟩,
  ⟨0x5002, 1, 1, 0x02, .u32, .ro, 0, false, false, 0, 4294967295⟩,
  ⟨0x5002, 1, 1, 0x03, .u32, .ro, 0, false, false, 0, 4294967295⟩,
  ⟨0x5004, 1, 1, 0x01, .octets, .rwt, 0, true, false, 0, 0⟩,
  ⟨0x5005, 1, 1, 0x01, .u32, .rwt, 0, true, false, 0, 2097151⟩,
  ⟨0x5006, 1, 1, 0x01, .octets, .rwt, 0, false, false, 0, 0⟩,
  ⟨0x5006, 1, 1, 0x02, .u32, .rw, 0, false, false, 0, 4294967295⟩,
  ⟨0x5006, 1, 1, 0x03, .octets, .ro, 0, false, false, 0, 0⟩,
  ⟨0x5007, 1, 1, 0x01, .octets, .rwt, 0, false, false, 0, 0⟩,
  ⟨0x5008, 1, 1, 0x01, .u64, .ro, 0, false, false, 0, 18446744073709551615⟩,
  ⟨0x5008, 1, 1, 0x02, .u32, .rwt, 60, true, false, 10, 86400⟩,
  ⟨0x5008, 1, 1, 0x03, .bool, .wo, 0, false, false, 0, 1⟩,
  ⟨0x5008, 1, 1, 0x04, .u64, .rwt, 0, true, false, 0, 18446744073709551615⟩,
  ⟨0x5008, 1, 1, 0x05, .u64, .rwt, 0, true, false, 0, 18446744073709551615⟩,
  ⟨0x5009, 1, 1, 0x01, .u32, .rwt, 4096, true, false, 256, 1048576⟩,
  ⟨0x500A, 1, 1, 0x01, .octets, .ro, 0, false, false, 0, 0⟩,
  ⟨0x500A, 1, 1, 0x02, .u32, .ro, 0, false, false, 0, 4294967295⟩,
  ⟨0x9054, 1, 1, 0x01, .u64, .ro, 0, false, true, 0, 18446744073709551615⟩,
  ⟨0x9054, 1, 1, 0x02, .u64, .ro, 0, false, true, 0, 18446744073709551615⟩,
  ⟨0x9054, 1, 1, 0x03, .u64, .ro, 0, false, true, 0, 18446744073709551615⟩,
  ⟨0x9054, 1, 1, 0x04, .u32, .ro, 0, false, true, 0, 4294967295⟩,
  ⟨0x9054, 1, 1, 0x05, .u32, .ro, 0, false, true, 0, 4294967295⟩,
  ⟨0x9054, 1, 1, 0x06, .u32, .ro, 0, false, true, 0, 4294967295⟩,
  ⟨0x9054, 1, 1, 0x07, .u32, .ro, 0, false, true, 0, 4294967295⟩,
  ⟨0x9062, 1, 1, 0x01, .u16, .rwt, 3, true, false, 1, 1000⟩,
  ⟨0x9062, 1, 1, 0x02, .u32, .rwt, 3600, true, false, 1, 604800⟩,
  ⟨0x9062, 1, 1, 0x03, .u16, .rwt, 4, true, false, 1, 1000⟩,
  ⟨0x9062, 1, 1, 0x04, .u32, .rwt, 3600, true, false, 1, 604800⟩]

/-- Entries of chapter 10. -/
def odRows10 : List OdEntry := [
  ⟨0x9063, 1, 1, 0x01, .u32, .ro, 0, false, true, 0, 4294967295⟩,
  ⟨0x9063, 1, 1, 0x02, .u32, .ro, 0, false, true, 0, 4294967295⟩,
  ⟨0x9063, 1, 1, 0x03, .u32, .ro, 0, false, true, 0, 4294967295⟩,
  ⟨0x9063, 1, 1, 0x04, .u64, .ro, 0, false, true, 0, 18446744073709551615⟩,
  ⟨0x9063, 1, 1, 0x05, .u32, .ro, 0, false, true, 0, 4294967295⟩,
  ⟨0x9063, 1, 1, 0x06, .u32, .ro, 0, false, true, 0, 4294967295⟩,
  ⟨0x9063, 1, 1, 0x07, .u64, .ro, 0, false, true, 0, 18446744073709551615⟩,
  ⟨0x9063, 1, 1, 0x08, .octets, .ro, 0, false, false, 0, 0⟩,
  ⟨0x9063, 1, 1, 0x09, .u16, .rwt, 2, true, false, 1, 100⟩,
  ⟨0x9063, 1, 1, 0x0A, .u32, .rwt, 3600, true, false, 1, 604800⟩]

/-- Entries of chapter 11. -/
def odRows11 : List OdEntry := [
  ⟨0x3013, 9, 256, 0x01, .bool, .rwt, 1, true, false, 0, 1⟩,
  ⟨0x3013, 9, 256, 0x02, .u64, .ro, 0, false, true, 0, 18446744073709551615⟩,
  ⟨0x3013, 9, 256, 0x03, .u64, .ro, 0, false, true, 0, 18446744073709551615⟩,
  ⟨0x3013, 9, 256, 0x04, .u32, .ro, 0, false, true, 0, 4294967295⟩,
  ⟨0x3013, 9, 256, 0x05, .u64, .ro, 0, false, true, 0, 18446744073709551615⟩,
  ⟨0x3013, 9, 256, 0x06, .u32, .ro, 0, false, true, 0, 4294967295⟩,
  ⟨0x9064, 1, 1, 0x01, .u64, .ro, 0, false, true, 0, 18446744073709551615⟩,
  ⟨0x9064, 1, 1, 0x02, .u16, .ro, 0, false, false, 0, 65535⟩]

/-- Entries of chapter 12. -/
def odRows12 : List OdEntry := [
  ⟨0x2120, 1, 1, 0x01, .u8, .ro, 0, false, false, 0, 255⟩,
  ⟨0x2120, 1, 1, 0x02, .u64, .ro, 0, false, false, 0, 18446744073709551615⟩,
  ⟨0x9065, 1, 1, 0x01, .u16, .rwt, 16, true, false, 1, 1000⟩,
  ⟨0x9065, 1, 1, 0x02, .u32, .rwt, 3600, true, false, 1, 604800⟩,
  ⟨0x9065, 1, 1, 0x03, .u16, .rwt, 1, true, false, 1, 1000⟩,
  ⟨0x9065, 1, 1, 0x04, .u16, .rwt, 4, true, false, 1, 1000⟩,
  ⟨0x9065, 1, 1, 0x05, .u32, .rwt, 86400, true, false, 1, 604800⟩,
  ⟨0x9065, 1, 1, 0x06, .u64, .ro, 0, false, true, 0, 18446744073709551615⟩,
  ⟨0x9065, 1, 1, 0x07, .u64, .ro, 0, false, true, 0, 18446744073709551615⟩,
  ⟨0x9065, 1, 1, 0x08, .u32, .ro, 0, false, true, 0, 4294967295⟩,
  ⟨0x9065, 1, 1, 0x09, .u32, .ro, 0, false, true, 0, 4294967295⟩,
  ⟨0x9065, 1, 1, 0x0A, .u32, .ro, 0, false, true, 0, 4294967295⟩,
  ⟨0x9065, 1, 1, 0x0B, .u32, .ro, 0, false, true, 0, 4294967295⟩,
  ⟨0x9065, 1, 1, 0x0C, .u16, .ro, 0, false, false, 0, 65535⟩,
  ⟨0x9065, 1, 1, 0x0D, .u16, .ro, 0, false, false, 0, 65535⟩,
  ⟨0x9066, 1, 1, 0x01, .u64, .ro, 0, false, true, 0, 18446744073709551615⟩,
  ⟨0x9066, 1, 1, 0x02, .u32, .ro, 0, false, true, 0, 4294967295⟩,
  ⟨0x9066, 1, 1, 0x03, .octets, .ro, 0, false, false, 0, 0⟩,
  ⟨0x9066, 1, 1, 0x04, .bool, .wo, 0, false, false, 0, 1⟩,
  ⟨0x9066, 1, 1, 0x05, .u32, .ro, 0, false, true, 0, 4294967295⟩]

/-- Entries of chapter 13. -/
def odRows13 : List OdEntry := [
  ⟨0x1010, 1, 1, 0x01, .u8, .rwt, 16, true, false, 1, 254⟩,
  ⟨0x1010, 1, 1, 0x02, .u32, .rwt, 500000, true, false, 125000, 1000000⟩,
  ⟨0x1010, 1, 1, 0x03, .u32, .rwt, 2000000, true, false, 0, 5000000⟩,
  ⟨0x1010, 1, 1, 0x04, .u16, .rwt, 800, true, false, 500, 900⟩,
  ⟨0x1010, 1, 1, 0x05, .u16, .rwt, 750, true, false, 500, 900⟩,
  ⟨0x1040, 1, 1, 0x01, .octets, .rwt, 0, true, false, 0, 0⟩,
  ⟨0x1040, 1, 1, 0x02, .u16, .ro, 0, false, false, 0, 65535⟩,
  ⟨0x1041, 1, 1, 0x01, .bool, .rwt, 1, true, false, 0, 1⟩,
  ⟨0x1100, 1, 1, 0x01, .u32, .rwt, 10000, true, false, 1000, 600000⟩,
  ⟨0x1100, 1, 1, 0x02, .u32, .rwt, 3600, true, false, 60, 86400⟩,
  ⟨0x1100, 1, 1, 0x03, .u16, .const, 512, false, false, 0, 65535⟩,
  ⟨0x1100, 1, 1, 0x04, .u32, .const, 2097152, false, false, 0, 4294967295⟩,
  ⟨0x1101, 1, 1, 0x01, .u16, .ro, 0, false, false, 0, 65535⟩,
  ⟨0x1101, 1, 1, 0x02, .u64, .ro, 0, true, false, 0, 18446744073709551615⟩,
  ⟨0x1101, 1, 1, 0x03, .time64, .ro, 0, false, false, 0, 18446744073709551615⟩,
  ⟨0x1101, 1, 1, 0x06, .enum, .ro, 0, false, false, 0, 255⟩,
  ⟨0x1102, 1, 1, 0x01, .u64, .ro, 0, false, true, 0, 18446744073709551615⟩,
  ⟨0x1102, 1, 1, 0x02, .u32, .ro, 0, false, true, 0, 4294967295⟩,
  ⟨0x1102, 1, 1, 0x03, .u32, .ro, 0, false, true, 0, 4294967295⟩,
  ⟨0x1102, 1, 1, 0x04, .u32, .ro, 0, false, true, 0, 4294967295⟩,
  ⟨0x1103, 1, 1, 0x01, .octets, .ro, 0, false, false, 0, 0⟩,
  ⟨0x9067, 1, 1, 0x01, .u64, .ro, 0, false, true, 0, 18446744073709551615⟩,
  ⟨0x9067, 1, 1, 0x02, .u32, .ro, 0, false, true, 0, 4294967295⟩,
  ⟨0x9067, 1, 1, 0x03, .u32, .ro, 0, false, true, 0, 4294967295⟩,
  ⟨0x9067, 1, 1, 0x04, .u32, .ro, 0, false, true, 0, 4294967295⟩]

/-- Entries of chapter 14, part 1. -/
def odRows14a : List OdEntry := [
  ⟨0x6000, 1, 1, 0x01, .u16, .rwt, 0, true, false, 0, 4095⟩,
  ⟨0x6000, 1, 1, 0x02, .u32, .rwt, 0, true, false, 0, 4294967295⟩,
  ⟨0x6001, 1, 1, 0x01, .u32, .rwt, 0, true, false, 0, 2097151⟩,
  ⟨0x6002, 1, 1, 0x01, .u32, .rwt, 1000, true, false, 10, 10000⟩,
  ⟨0x6002, 1, 1, 0x02, .u32, .rwt, 1500, true, false, 1200, 12000⟩,
  ⟨0x6002, 1, 1, 0x03, .u32, .ro, 0, false, false, 0, 4294967295⟩,
  ⟨0x6002, 1, 1, 0x04, .u16, .ro, 0, false, false, 0, 65535⟩,
  ⟨0x6004, 1, 1, 0x01, .u16, .rwt, 32768, true, false, 0, 65535⟩,
  ⟨0x6004, 1, 1, 0x02, .u16, .ro, 0, false, false, 0, 65535⟩,
  ⟨0x6004, 1, 1, 0x03, .i32, .ro, 0, false, false, -2147483648, 2147483647⟩,
  ⟨0x6004, 1, 1, 0x04, .enum, .ro, 0, false, false, 0, 255⟩,
  ⟨0x6005, 1, 1, 0x01, .u16, .rwt, 32768, true, false, 0, 65535⟩,
  ⟨0x6005, 1, 1, 0x02, .u32, .rwt, 2000, true, false, 100, 60000⟩,
  ⟨0x6005, 1, 1, 0x03, .u64, .wo, 0, false, false, 0, 18446744073709551615⟩,
  ⟨0x6005, 1, 1, 0x04, .u16, .ro, 0, false, false, 0, 65535⟩,
  ⟨0x6006, 1, 1, 0x01, .octets, .rwt, 0, true, false, 0, 0⟩,
  ⟨0x6010, 3, 1, 0x01, .enum, .ro, 0, false, false, 0, 255⟩,
  ⟨0x6010, 3, 1, 0x02, .enum, .ro, 0, false, false, 0, 255⟩,
  ⟨0x6010, 3, 1, 0x03, .u32, .ro, 0, false, false, 0, 4294967295⟩,
  ⟨0x6010, 3, 1, 0x06, .enum, .ro, 0, false, false, 0, 255⟩,
  ⟨0x6010, 3, 1, 0x07, .u16, .ro, 0, false, false, 0, 65535⟩,
  ⟨0x6010, 3, 1, 0x08, .u8, .ro, 0, false, false, 0, 255⟩,
  ⟨0x6010, 3, 1, 0x09, .bool, .rwt, 1, true, false, 0, 1⟩,
  ⟨0x6020, 3, 1, 0x01, .u32, .rwt, 0, true, false, 0, 4294967295⟩,
  ⟨0x6020, 3, 1, 0x02, .u32, .rwt, 0, true, false, 0, 4294967295⟩,
  ⟨0x6020, 3, 1, 0x03, .u32, .rwt, 0, true, false, 0, 16384⟩,
  ⟨0x6020, 3, 1, 0x04, .u8, .rwt, 4, true, false, 1, 255⟩,
  ⟨0x6028, 1, 1, 0x01, .octets, .rwt, 0, true, false, 0, 0⟩,
  ⟨0x6030, 1, 1, 0x01, .u8, .rwt, 2, true, false, 0, 5⟩,
  ⟨0x6030, 1, 1, 0x02, .u8, .rwt, 1, true, false, 0, 3⟩,
  ⟨0x2140, 3, 1, 0x01, .u32, .ro, 0, false, false, 0, 4294967295⟩,
  ⟨0x2140, 3, 1, 0x02, .u32, .ro, 0, false, false, 0, 4294967295⟩,
  ⟨0x2140, 3, 1, 0x03, .u16, .rwt, 700, true, false, 500, 990⟩,
  ⟨0x2140, 3, 1, 0x04, .octets, .ro, 0, false, false, 0, 0⟩,
  ⟨0x2140, 3, 1, 0x05, .octets, .ro, 0, false, false, 0, 0⟩,
  ⟨0x2140, 3, 1, 0x06, .i32, .ro, 0, false, false, -2147483648, 2147483647⟩,
  ⟨0x9068, 1, 1, 0x01, .u64, .ro, 0, false, true, 0, 18446744073709551615⟩,
  ⟨0x9068, 1, 1, 0x02, .u32, .ro, 0, false, true, 0, 4294967295⟩,
  ⟨0x9068, 1, 1, 0x03, .u32, .ro, 0, false, true, 0, 4294967295⟩,
  ⟨0x9068, 1, 1, 0x04, .u32, .ro, 0, false, true, 0, 4294967295⟩]

/-- Entries of chapter 14, part 2. -/
def odRows14b : List OdEntry := [
  ⟨0x9068, 1, 1, 0x05, .u64, .ro, 0, false, true, 0, 18446744073709551615⟩,
  ⟨0x9068, 1, 1, 0x06, .u64, .ro, 0, false, true, 0, 18446744073709551615⟩,
  ⟨0x9068, 1, 1, 0x07, .u32, .ro, 0, false, true, 0, 4294967295⟩,
  ⟨0x9068, 1, 1, 0x08, .u32, .ro, 0, false, true, 0, 4294967295⟩,
  ⟨0x9068, 1, 1, 0x09, .u32, .ro, 0, false, true, 0, 4294967295⟩,
  ⟨0x9069, 1, 1, 0x01, .u16, .rwt, 8, true, false, 1, 1000⟩,
  ⟨0x9069, 1, 1, 0x02, .u32, .rwt, 60, true, false, 1, 604800⟩]

/-- Entries of chapter 15, part 1. -/
def odRows15a : List OdEntry := [
  ⟨0x7000, 1, 1, 0x01, .u8, .ro, 0, false, false, 0, 255⟩,
  ⟨0x7000, 1, 1, 0x02, .octets, .ro, 0, false, false, 0, 0⟩,
  ⟨0x7000, 1, 1, 0x03, .octets, .ro, 0, false, false, 0, 0⟩,
  ⟨0x7002, 1, 1, 0x01, .u8, .wo, 0, false, false, 0, 255⟩,
  ⟨0x7003, 1, 1, 0x01, .u32, .rwt, 10, true, false, 1, 3600⟩,
  ⟨0x7003, 1, 1, 0x02, .u8, .rwt, 4, true, false, 1, 32⟩,
  ⟨0x7004, 1, 1, 0x01, .u8, .rwt, 2, true, false, 1, 4⟩,
  ⟨0x7004, 1, 1, 0x02, .u8, .rwt, 4, true, false, 1, 4⟩,
  ⟨0x7008, 1, 1, 0x01, .enum, .rwt, 0, true, false, 0, 3⟩,
  ⟨0x7008, 1, 1, 0x02, .enum, .rwt, 0, true, false, 0, 3⟩,
  ⟨0x7008, 1, 1, 0x03, .enum, .rwt, 0, true, false, 0, 3⟩,
  ⟨0x7008, 1, 1, 0x04, .enum, .rwt, 0, true, false, 0, 3⟩,
  ⟨0x7009, 1, 1, 0x01, .u16, .rwt, 50, true, false, 0, 1000⟩,
  ⟨0x7009, 1, 1, 0x02, .u16, .rwt, 50, true, false, 0, 1000⟩,
  ⟨0x7009, 1, 1, 0x03, .u16, .rwt, 50, true, false, 0, 1000⟩,
  ⟨0x7009, 1, 1, 0x04, .u16, .rwt, 50, true, false, 0, 1000⟩,
  ⟨0x700A, 1, 1, 0x01, .u32, .ro, 0, true, false, 0, 4294967295⟩,
  ⟨0x700A, 1, 1, 0x02, .u32, .ro, 0, true, false, 0, 4294967295⟩,
  ⟨0x700A, 1, 1, 0x03, .u32, .ro, 0, true, false, 0, 4294967295⟩,
  ⟨0x700A, 1, 1, 0x04, .u32, .ro, 0, true, false, 0, 4294967295⟩,
  ⟨0x7011, 1, 1, 0x01, .octets, .ro, 0, false, false, 0, 0⟩,
  ⟨0x7011, 1, 1, 0x02, .octets, .ro, 0, false, false, 0, 0⟩,
  ⟨0x7030, 1, 1, 0x01, .i16, .rwt, -25, true, false, -40, 0⟩,
  ⟨0x7030, 1, 1, 0x02, .i16, .rwt, 125, true, false, 105, 125⟩,
  ⟨0x7040, 37, 1, 0x01, .u8, .rwt, 0, true, false, 0, 4⟩,
  ⟨0x7040, 37, 1, 0x02, .u8, .rwt, 0, true, false, 0, 3⟩,
  ⟨0x7040, 37, 1, 0x03, .enum, .ro, 0, false, false, 0, 255⟩,
  ⟨0x7040, 37, 1, 0x04, .u32, .ro, 0, false, true, 0, 4294967295⟩,
  ⟨0x7100, 1, 1, 0x01, .u64, .ro, 0, false, false, 0, 18446744073709551615⟩,
  ⟨0x7100, 1, 1, 0x02, .u64, .ro, 0, false, false, 0, 18446744073709551615⟩,
  ⟨0x7100, 1, 1, 0x03, .u32, .ro, 0, false, false, 0, 4294967295⟩,
  ⟨0x7100, 1, 1, 0x04, .u8, .ro, 0, false, false, 0, 255⟩,
  ⟨0x7101, 1, 1, 0x01, .u64, .rw, 1, false, false, 0, 18446744073709551615⟩,
  ⟨0x7101, 1, 1, 0x02, .octets, .ro, 0, false, false, 0, 0⟩,
  ⟨0x7101, 1, 1, 0x03, .octets, .ro, 0, false, false, 0, 0⟩,
  ⟨0x7110, 1, 1, 0x01, .u32, .rwt, 16384, true, false, 1024, 65536⟩,
  ⟨0x7110, 1, 1, 0x02, .u32, .rwt, 86400, true, false, 3600, 604800⟩,
  ⟨0x7110, 1, 1, 0x03, .bool, .wo, 0, false, false, 0, 1⟩,
  ⟨0x7111, 1, 1, 0x01, .u64, .rw, 0, false, false, 0, 18446744073709551615⟩,
  ⟨0x7111, 1, 1, 0x02, .octets, .ro, 0, false, false, 0, 0⟩]

/-- Entries of chapter 15, part 2. -/
def odRows15b : List OdEntry := [
  ⟨0x7112, 1, 1, 0x01, .octets, .wo, 0, false, false, 0, 0⟩,
  ⟨0x7112, 1, 1, 0x02, .u64, .ro, 0, false, false, 0, 18446744073709551615⟩,
  ⟨0x7113, 1, 1, 0x01, .octets, .const, 0, false, false, 0, 0⟩,
  ⟨0x7113, 1, 1, 0x02, .octets, .const, 0, false, false, 0, 0⟩,
  ⟨0x7113, 1, 1, 0x03, .octets, .const, 0, false, false, 0, 0⟩,
  ⟨0x9070, 1, 1, 0x01, .u32, .ro, 0, false, true, 0, 4294967295⟩,
  ⟨0x9070, 1, 1, 0x02, .u32, .ro, 0, false, true, 0, 4294967295⟩,
  ⟨0x9070, 1, 1, 0x03, .u32, .ro, 0, false, true, 0, 4294967295⟩]

/-- Entries of chapter 16. -/
def odRows16 : List OdEntry := [
  ⟨0x8000, 1, 1, 0x01, .u8, .rwt, 8, true, false, 1, 24⟩,
  ⟨0x8000, 1, 1, 0x02, .u16, .ro, 0, false, false, 0, 65535⟩,
  ⟨0x8000, 1, 1, 0x03, .u16, .ro, 26, false, false, 0, 65535⟩,
  ⟨0x8000, 1, 1, 0x04, .u32, .ro, 0, false, false, 0, 4294967295⟩,
  ⟨0x8000, 1, 1, 0x05, .u16, .rw, 0, false, false, 0, 65535⟩,
  ⟨0x8000, 1, 1, 0x06, .octets, .ro, 0, false, false, 0, 0⟩,
  ⟨0x8000, 1, 1, 0x07, .u32, .ro, 0, false, false, 0, 4294967295⟩,
  ⟨0x8001, 1, 1, 0x01, .enum, .ro, 0, false, false, 0, 255⟩,
  ⟨0x8001, 1, 1, 0x02, .u8, .ro, 8, false, false, 0, 255⟩,
  ⟨0x8001, 1, 1, 0x03, .bool, .ro, 0, false, false, 0, 1⟩,
  ⟨0x8001, 1, 1, 0x04, .octets, .ro, 0, false, false, 0, 0⟩,
  ⟨0x8002, 1, 1, 0x01, .octets, .ro, 0, false, false, 0, 0⟩,
  ⟨0x8002, 1, 1, 0x02, .u16, .ro, 0, false, false, 0, 65535⟩,
  ⟨0x8010, 1, 1, 0x01, .u32, .rwt, 30, true, false, 0, 600⟩,
  ⟨0x8020, 1, 1, 0x01, .octets, .rwt, 0, false, false, 0, 0⟩,
  ⟨0x8020, 1, 1, 0x02, .octets, .ro, 0, false, false, 0, 0⟩,
  ⟨0x8020, 1, 1, 0x03, .bool, .rwt, 0, false, false, 0, 1⟩,
  ⟨0x8020, 1, 1, 0x04, .u32, .rwt, 600, true, false, 60, 86400⟩,
  ⟨0x8020, 1, 1, 0x05, .enum, .ro, 0, false, false, 0, 255⟩,
  ⟨0x8020, 1, 1, 0x06, .bool, .wo, 0, false, false, 0, 1⟩,
  ⟨0x8021, 1, 1, 0x01, .u8, .ro, 0, false, false, 0, 255⟩,
  ⟨0x9071, 1, 1, 0x01, .u64, .ro, 0, false, true, 0, 18446744073709551615⟩,
  ⟨0x9071, 1, 1, 0x02, .u32, .ro, 0, false, true, 0, 4294967295⟩,
  ⟨0x9071, 1, 1, 0x03, .u64, .ro, 0, false, true, 0, 18446744073709551615⟩]

/-- Entries of chapter 17. -/
def odRows17 : List OdEntry := [
  ⟨0x7114, 1, 1, 0x01, .u64, .wo, 0, false, false, 0, 18446744073709551615⟩,
  ⟨0x7114, 1, 1, 0x02, .bool, .wo, 0, false, false, 0, 1⟩,
  ⟨0x7114, 1, 1, 0x03, .u32, .ro, 4294967295, false, false, 0, 4294967295⟩,
  ⟨0x8100, 1, 1, 0x01, .enum, .ro, 0, false, false, 0, 255⟩,
  ⟨0x8100, 1, 1, 0x02, .octets, .ro, 0, false, false, 0, 0⟩,
  ⟨0x8100, 1, 1, 0x03, .octets, .ro, 0, false, false, 0, 0⟩,
  ⟨0x8100, 1, 1, 0x04, .octets, .ro, 0, false, false, 0, 0⟩,
  ⟨0x8100, 1, 1, 0x05, .u32, .ro, 0, false, false, 0, 4294967295⟩,
  ⟨0x8100, 1, 1, 0x06, .enum, .ro, 0, false, false, 0, 255⟩,
  ⟨0x8100, 1, 1, 0x07, .u8, .ro, 0, false, false, 0, 255⟩,
  ⟨0x8100, 1, 1, 0x08, .u8, .ro, 0, false, false, 0, 255⟩,
  ⟨0x8101, 1, 1, 0x01, .enum, .rwt, 4, true, false, 0, 4⟩,
  ⟨0x8101, 1, 1, 0x02, .u8, .rwt, 4, true, false, 1, 4⟩,
  ⟨0x8101, 1, 1, 0x03, .u32, .rwt, 1000, true, false, 10, 60000⟩,
  ⟨0x8102, 1, 1, 0x01, .bool, .wo, 0, false, false, 0, 1⟩,
  ⟨0x8102, 1, 1, 0x02, .bool, .wo, 0, false, false, 0, 1⟩,
  ⟨0x8102, 1, 1, 0x03, .bool, .wo, 0, false, false, 0, 1⟩,
  ⟨0x8102, 1, 1, 0x04, .bool, .wo, 0, false, false, 0, 1⟩,
  ⟨0x8102, 1, 1, 0x05, .octets, .ro, 0, false, false, 0, 0⟩,
  ⟨0x8103, 1, 1, 0x01, .octets, .ro, 0, false, false, 0, 0⟩,
  ⟨0x8108, 2, 1, 0x01, .enum, .ro, 0, false, false, 0, 255⟩,
  ⟨0x8108, 2, 1, 0x02, .octets, .ro, 0, false, false, 0, 0⟩,
  ⟨0x8108, 2, 1, 0x03, .u8, .ro, 0, false, false, 0, 255⟩,
  ⟨0x8108, 2, 1, 0x04, .u32, .ro, 0, false, false, 0, 4294967295⟩,
  ⟨0x8110, 1, 1, 0x01, .u8, .wo, 0, false, false, 0, 255⟩,
  ⟨0x8110, 1, 1, 0x05, .bool, .wo, 0, false, false, 0, 1⟩,
  ⟨0x8110, 1, 1, 0x06, .u32, .rwt, 1800, true, false, 60, 14400⟩,
  ⟨0x8111, 1, 1, 0x01, .octets, .rw, 0, false, false, 0, 0⟩,
  ⟨0x8112, 1, 1, 0x01, .octets, .ro, 0, false, false, 0, 0⟩,
  ⟨0x9072, 1, 1, 0x01, .u32, .ro, 0, false, true, 0, 4294967295⟩,
  ⟨0x9072, 1, 1, 0x02, .u32, .ro, 0, false, true, 0, 4294967295⟩,
  ⟨0x9072, 1, 1, 0x03, .u32, .ro, 0, false, true, 0, 4294967295⟩,
  ⟨0x9073, 1, 1, 0x01, .enum, .ro, 0, false, false, 0, 255⟩,
  ⟨0x9073, 1, 1, 0x02, .enum, .ro, 0, false, false, 0, 255⟩,
  ⟨0x9073, 1, 1, 0x03, .u8, .ro, 0, false, false, 0, 255⟩,
  ⟨0x9073, 1, 1, 0x04, .octets, .ro, 0, false, false, 0, 0⟩,
  ⟨0x9073, 1, 1, 0x05, .octets, .ro, 0, false, false, 0, 0⟩]

/-- Entries of chapter 18, part 1. -/
def odRows18a : List OdEntry := [
  ⟨0x9000, 1, 1, 0x01, .enum, .ro, 0, false, false, 0, 255⟩,
  ⟨0x9000, 1, 1, 0x02, .bool, .ro, 0, false, false, 0, 1⟩,
  ⟨0x9000, 1, 1, 0x03, .u8, .ro, 0, false, false, 0, 255⟩,
  ⟨0x9000, 1, 1, 0x04, .u8, .ro, 0, false, false, 0, 255⟩,
  ⟨0x9001, 1, 1, 0x01, .octets, .wo, 0, false, false, 0, 0⟩,
  ⟨0x9001, 1, 1, 0x02, .u64, .ro, 0, false, false, 0, 18446744073709551615⟩,
  ⟨0x9001, 1, 1, 0x03, .octets, .ro, 0, false, false, 0, 0⟩,
  ⟨0x9001, 1, 1, 0x04, .u32, .ro, 0, false, true, 0, 4294967295⟩,
  ⟨0x9002, 1, 1, 0x01, .u32, .rwt, 60, true, false, 10, 3600⟩,
  ⟨0x9002, 1, 1, 0x02, .octets, .wo, 0, false, false, 0, 0⟩,
  ⟨0x9002, 1, 1, 0x03, .u8, .ro, 8, false, false, 0, 255⟩,
  ⟨0x9002, 1, 1, 0x04, .time64, .ro, 0, false, false, 0, 18446744073709551615⟩,
  ⟨0x9002, 1, 1, 0x05, .u8, .rwt, 3, true, false, 0, 16⟩,
  ⟨0x9002, 1, 1, 0x06, .u8, .wo, 0, false, false, 0, 255⟩,
  ⟨0x9002, 1, 1, 0x07, .u32, .rwt, 600, true, false, 60, 86400⟩,
  ⟨0x9002, 1, 1, 0x08, .time64, .ro, 0, false, false, 0, 18446744073709551615⟩,
  ⟨0x9004, 1, 1, 0x01, .u16, .rw, 0, false, false, 0, 65535⟩,
  ⟨0x9004, 1, 1, 0x02, .octets, .ro, 0, false, false, 0, 0⟩,
  ⟨0x9004, 1, 1, 0x03, .u64, .ro, 0, false, true, 0, 18446744073709551615⟩,
  ⟨0x9004, 1, 1, 0x04, .u32, .ro, 0, false, true, 0, 4294967295⟩,
  ⟨0x9005, 1, 1, 0x01, .u64, .ro, 0, false, true, 0, 18446744073709551615⟩,
  ⟨0x9005, 1, 1, 0x02, .u64, .ro, 0, false, true, 0, 18446744073709551615⟩,
  ⟨0x9005, 1, 1, 0x03, .octets, .ro, 0, false, false, 0, 0⟩,
  ⟨0x9010, 1, 1, 0x01, .u8, .rw, 1, false, false, 0, 255⟩,
  ⟨0x9010, 1, 1, 0x02, .u16, .rw, 0, false, false, 0, 65535⟩,
  ⟨0x9010, 1, 1, 0x03, .u16, .ro, 0, false, false, 0, 65535⟩,
  ⟨0x9010, 1, 1, 0x04, .u32, .ro, 0, false, false, 0, 4294967295⟩,
  ⟨0x9010, 1, 1, 0x05, .u32, .ro, 0, false, false, 0, 4294967295⟩,
  ⟨0x9010, 1, 1, 0x06, .time64, .ro, 0, false, false, 0, 18446744073709551615⟩,
  ⟨0x9012, 1, 1, 0x01, .u16, .rwt, 2, true, false, 1, 1000⟩,
  ⟨0x9012, 1, 1, 0x02, .u32, .rwt, 3600, true, false, 1, 604800⟩,
  ⟨0x9013, 1, 1, 0x01, .u16, .rwt, 64, true, false, 1, 1000⟩,
  ⟨0x9013, 1, 1, 0x02, .u32, .rwt, 1, true, false, 1, 604800⟩,
  ⟨0x9014, 1, 1, 0x01, .u16, .rwt, 1000, true, false, 1, 1000⟩,
  ⟨0x9014, 1, 1, 0x02, .u32, .rwt, 1, true, false, 1, 604800⟩,
  ⟨0x9015, 1, 1, 0x01, .u16, .rwt, 3, true, false, 1, 1000⟩,
  ⟨0x9015, 1, 1, 0x02, .u32, .rwt, 10, true, false, 1, 604800⟩,
  ⟨0x9016, 1, 1, 0x01, .u16, .rwt, 100, true, false, 1, 1000⟩,
  ⟨0x9016, 1, 1, 0x02, .u32, .rwt, 1, true, false, 1, 604800⟩,
  ⟨0x9017, 1, 1, 0x01, .u16, .rwt, 16, true, false, 1, 1000⟩]

/-- Entries of chapter 18, part 2. -/
def odRows18b : List OdEntry := [
  ⟨0x9017, 1, 1, 0x02, .u32, .rwt, 86400, true, false, 1, 604800⟩,
  ⟨0x2000, 1, 1, 0x01, .u8, .rw, 0, false, false, 0, 255⟩,
  ⟨0x2000, 1, 1, 0x02, .u16, .ro, 0, false, false, 0, 65535⟩,
  ⟨0x2000, 1, 1, 0x03, .u16, .ro, 0, false, false, 0, 65535⟩,
  ⟨0x2000, 1, 1, 0x04, .u16, .ro, 0, false, false, 0, 65535⟩,
  ⟨0x2010, 1, 1, 0x01, .u16, .ro, 0, false, false, 0, 65535⟩,
  ⟨0x2010, 1, 1, 0x02, .u32, .ro, 0, false, false, 0, 4294967295⟩,
  ⟨0x2010, 1, 1, 0x03, .time64, .ro, 0, false, false, 0, 18446744073709551615⟩,
  ⟨0x2010, 1, 1, 0x04, .u16, .rwt, 200, true, false, 10, 2000⟩,
  ⟨0x2010, 1, 1, 0x05, .u32, .ro, 0, false, false, 0, 4294967295⟩,
  ⟨0x2010, 1, 1, 0x06, .u32, .rwt, 0, true, false, 0, 4294967295⟩,
  ⟨0x2010, 1, 1, 0x07, .u32, .ro, 0, false, false, 0, 4294967295⟩,
  ⟨0x2010, 1, 1, 0x08, .bool, .wo, 0, false, false, 0, 1⟩,
  ⟨0x2020, 1, 1, 0x01, .i16, .ro, 0, false, false, -32768, 32767⟩,
  ⟨0x2020, 1, 1, 0x02, .i16, .ro, 0, false, false, -32768, 32767⟩,
  ⟨0x2020, 1, 1, 0x03, .octets, .ro, 0, false, false, 0, 0⟩,
  ⟨0x2100, 4, 1, 0x01, .enum, .ro, 0, false, false, 0, 255⟩,
  ⟨0x2100, 4, 1, 0x02, .octets, .ro, 0, false, false, 0, 0⟩,
  ⟨0x2100, 4, 1, 0x03, .u64, .ro, 0, false, true, 0, 18446744073709551615⟩,
  ⟨0x2100, 4, 1, 0x04, .u64, .ro, 0, false, true, 0, 18446744073709551615⟩,
  ⟨0x2119, 1, 1, 0x01, .u8, .ro, 0, false, false, 0, 255⟩,
  ⟨0x2119, 1, 1, 0x02, .u8, .ro, 0, false, false, 0, 255⟩,
  ⟨0x2121, 1, 1, 0x01, .u8, .rw, 0, false, false, 0, 255⟩,
  ⟨0x2122, 1, 1, 0x01, .octets, .ro, 0, false, false, 0, 0⟩,
  ⟨0x3002, 9, 256, 0x01, .octets, .ro, 0, false, false, 0, 0⟩,
  ⟨0x3002, 9, 256, 0x02, .u32, .ro, 0, false, true, 0, 4294967295⟩,
  ⟨0x3002, 9, 256, 0x03, .u32, .ro, 0, false, true, 0, 4294967295⟩,
  ⟨0x3002, 9, 256, 0x04, .u8, .ro, 0, false, false, 0, 255⟩,
  ⟨0x3002, 9, 256, 0x05, .u8, .ro, 0, false, false, 0, 255⟩]

/-- Identity (Table 13-15), certificate chain (02 R62), transmit latencies (R41), discard counters
(Table 02-19) and paired state groups (Table 13-14). -/
def odRowsOther : List OdEntry := [
  ⟨0x1000, 1, 1, 0x01, .str, .const, 0, false, false, 0, 0⟩,
  ⟨0x1000, 1, 1, 0x02, .str, .const, 0, false, false, 0, 0⟩,
  ⟨0x1000, 1, 1, 0x03, .str, .const, 0, false, false, 0, 0⟩,
  ⟨0x1000, 1, 1, 0x04, .u8, .const, 1, false, false, 0, 255⟩,
  ⟨0x1000, 1, 1, 0x05, .u8, .ro, 1, false, false, 0, 255⟩,
  ⟨0x1000, 1, 1, 0x06, .octets, .const, 0, false, false, 0, 0⟩,
  ⟨0x1000, 1, 1, 0x07, .str, .ro, 0, false, false, 0, 0⟩,
  ⟨0x1000, 1, 1, 0x09, .u16, .ro, 0, false, false, 0, 65535⟩,
  ⟨0x1008, 1, 1, 0x01, .octets, .rwt, 0, true, false, 0, 0⟩,
  ⟨0x2104, 1, 1, 0x01, .u32, .ro, 0, false, false, 0, 4294967295⟩,
  ⟨0x2104, 1, 1, 0x02, .u32, .ro, 0, false, false, 0, 4294967295⟩,
  ⟨0x2104, 1, 1, 0x03, .u32, .ro, 0, false, false, 0, 4294967295⟩,
  ⟨0x2104, 1, 1, 0x04, .u32, .ro, 0, false, false, 0, 4294967295⟩,
  ⟨0x2104, 1, 1, 0x05, .u32, .ro, 0, false, false, 0, 4294967295⟩,
  ⟨0x2104, 1, 1, 0x06, .u32, .ro, 0, false, false, 0, 4294967295⟩,
  ⟨0x2104, 1, 1, 0x07, .u32, .ro, 0, false, false, 0, 4294967295⟩,
  ⟨0x2110, 4, 1, 0x01, .enum, .ro, 0, false, false, 0, 255⟩,
  ⟨0x2110, 4, 1, 0x02, .enum, .ro, 0, false, false, 0, 255⟩,
  ⟨0x2110, 4, 1, 0x03, .u32, .ro, 0, false, false, 0, 4294967295⟩,
  ⟨0x2118, 1, 1, 0x01, .enum, .ro, 0, false, false, 0, 255⟩,
  ⟨0x2118, 1, 1, 0x02, .enum, .ro, 0, false, false, 0, 255⟩,
  ⟨0x2118, 1, 1, 0x03, .u32, .ro, 0, false, false, 0, 4294967295⟩,
  ⟨0x3001, 9, 256, 0x01, .enum, .ro, 0, false, false, 0, 255⟩,
  ⟨0x3001, 9, 256, 0x02, .enum, .ro, 0, false, false, 0, 255⟩,
  ⟨0x3001, 9, 256, 0x03, .u32, .ro, 0, false, false, 0, 4294967295⟩,
  ⟨0x3001, 9, 256, 0x04, .u64, .ro, 0, false, false, 0, 18446744073709551615⟩,
  ⟨0x3001, 9, 256, 0x05, .u64, .ro, 0, false, false, 0, 18446744073709551615⟩,
  ⟨0x9040, 16, 1, 0x01, .u32, .ro, 0, false, true, 0, 4294967295⟩,
  ⟨0x9040, 16, 1, 0x02, .u32, .ro, 0, false, true, 0, 4294967295⟩,
  ⟨0x9040, 16, 1, 0x03, .u32, .ro, 0, false, true, 0, 4294967295⟩,
  ⟨0x9040, 16, 1, 0x04, .u32, .ro, 0, false, true, 0, 4294967295⟩,
  ⟨0x9040, 16, 1, 0x05, .u32, .ro, 0, false, true, 0, 4294967295⟩,
  ⟨0x9040, 16, 1, 0x06, .u32, .ro, 0, false, true, 0, 4294967295⟩,
  ⟨0x9040, 16, 1, 0x07, .u32, .ro, 0, false, true, 0, 4294967295⟩,
  ⟨0x9040, 16, 1, 0x08, .u32, .ro, 0, false, true, 0, 4294967295⟩,
  ⟨0x9040, 16, 1, 0x09, .u32, .ro, 0, false, true, 0, 4294967295⟩,
  ⟨0x9040, 16, 1, 0x0A, .u32, .ro, 0, false, true, 0, 4294967295⟩]

/-- Every row of the dictionary. -/
def odRows : List OdEntry :=
  odRows02 ++ odRows03 ++ odRows04 ++ odRows05 ++ odRows06 ++ odRows07 ++ odRows08 ++ odRows10 ++
  odRows11 ++ odRows12 ++ odRows13 ++ odRows14a ++ odRows14b ++ odRows15a ++ odRows15b ++ odRows16 ++
  odRows17 ++ odRows18a ++ odRows18b ++ odRowsOther

/-- Does the row serve this index and subindex? -/
def OdEntry.serves (e : OdEntry) (index sub : Nat) : Bool :=
  e.sub = sub && e.index ≤ index && (index - e.index) % e.stride = 0 && (index - e.index) / e.stride < e.count

/-- The row of an entry, if the dictionary has it. -/
def odFind (index sub : Nat) : Option OdEntry :=
  odRows.find? (fun e => e.serves index sub)

/-- Key of a scalar entry in the value store. -/
def odKey (index sub : Nat) : Nat := index * 256 + sub

/-- Default of a scalar entry. -/
def odDefault (key : Nat) : Int :=
  match odFind (key / 256) (key % 256) with
  | some e => e.dflt
  | none => 0

end Sys2Proof.Machine
end

