-- ==== Sys2Proof/Config.lean ====
section
/-! DEFINITION. What the spec leaves open, as constants with no body: the free values, and values that it names
and does not state. Nothing in Lean can evaluate one of them, so a statement that holds, holds for every choice. -/

namespace Sys2Proof.Config

/-- DESIGN CHOICE (log 2). The value the spec leaves open, for the n-th open value of a run. -/
opaque freeValue : Nat → Nat

/-- The key of a direction of the Plinth link (true: to the main die) under the boot's link key, and the direction
and boot field of its nonce: the spec leaves open how they come from the link key (R18). -/
opaque linkKeyOf (linkKey : Bytes) (toMain : Bool) : Bytes
opaque linkField (linkKey : Bytes) (toMain : Bool) : Bytes

/-- Octets of an entry whose value the spec does not state: the firmware release string and the certificate chain of
the Patina keys. -/
opaque fixedOctets (index sub : Nat) : Bytes

/-- Transmit buffer latency of a port at OD 0x2104 (R41), whose unit the spec does not state. -/
opaque latencies (sub : Nat) : Nat

end Sys2Proof.Config
end

