-- ==== Sys2Proof/Machine/CoreState.lean ====
section
/-! DEFINITION. State of the 74 Ortan cores, the channel interrupt controllers, the access table, the
memory protection engine and the debug port (chapters 09 to 12). -/

namespace Sys2Proof.Machine

/-- STATUS, Table 09-2, without its reserved bits, which read zero (R308). -/
structure Status where
  bprog : BitVec 32 := 0
  satf : Bool := false
  iml : BitVec 4 := 15
  pl : BitVec 2 := 0
deriving DecidableEq, Repr

/-- A multiplication in flight (R321): the m register, the product, and the first cycle at which a
MOVM reads it (issue cycle + L). Oldest first. -/
structure MulFlight where
  m : Nat
  product : BitVec 128
  ready : Nat
deriving DecidableEq, Repr

/-- An entry of the 8-entry store buffer (R330): physical address, size in bytes, data, and the level
at which the store was issued. Oldest first. -/
structure BufStore where
  addr : Nat
  size : Nat
  data : Nat
  pl : BitVec 2
deriving DecidableEq, Repr

/-- A record of an event record queue (Table 11-4). `seq` counts presentations without wrapping; SEQ
shows it modulo 256 (00 R10). -/
structure EvRec where
  event : Nat
  level : Nat
  count : Nat := 0
  seq : Nat
  data : Nat := 0
  tRaise : Nat := 0
  claimed : Bool := false
deriving DecidableEq, Repr

/-- ABE_INFO and ABE_ADDR (R358, Table 10-6). -/
structure AbeInfo where
  valid : Bool := false
  more : Nat := 0
  moreOvf : Bool := false
  cls : Nat := 0
  rule : Nat := 0
  storePl : BitVec 2 := 0
  addr : Nat := 0
deriving DecidableEq, Repr

/-- The exception control registers of Tables 10-2 and 10-3. -/
structure ExcRegs where
  vbase : Nat := 0
  lseg0 : BitVec 128 := 0
  lsp0 : BitVec 64 := 0
  lseg1 : BitVec 128 := 0
  lsp1 : BitVec 64 := 0
  escDepth : Nat := 0
  fsDepth : Nat := 0
  fsLock : Bool := false
  abePend : Bool := false
  onFs : Bool := false
  fsEntry : BitVec 64 := 0
  fsCode : BitVec 128 := 0
  msel : BitVec 2 := 0
  mlo : BitVec 64 := 0
  abe : AbeInfo := {}
  /-- the 1,024 bytes of the fault stack (R364), by offset; absent bytes read 0 -/
  faultStack : Tab Byte := []
deriving DecidableEq, Repr

/-- The event control registers of Table 11-5. -/
structure EvRegs where
  /-- ERQ_CFG: EN and the queue's address -/
  erqEn : Bool := false
  erqAddr : Nat := 0
  erq : Tab EvRec := []
  nextSeq : Nat := 0
  tpr : BitVec 4 := 0
  holdGrant : Bool := false
  holdEn : Bool := false
  holdWord : BitVec 4 := 0
  deep : Bool := false
deriving DecidableEq, Repr

/-- What a core is doing (R363, R379, R384, R408). -/
inductive RunState where
  | reset | running | lightSleep | deepSleep | halted | lockedUp
deriving DecidableEq, Repr

/-- One Ortan core (Table 09-1, Tables 09-3, 10-2 and 11-5, and its debug status R322). -/
structure Core where
  run : RunState := .reset
  g : Tab Word := []
  p : BitVec 8 := 1
  a : Tab (BitVec 72) := []
  m : Tab (BitVec 128) := []
  sg : Tab (BitVec 128) := []
  pc : BitVec 32 := 0
  status : Status := {}
  cycle : Nat := 0
  emuWord : Word := 0
  gateBase : Nat := 0
  gateCount : Nat := 0
  exc : ExcRegs := {}
  ev : EvRegs := {}
  muls : List MulFlight := []
  storeBuf : List BufStore := []
  /-- the core wrote the access table and has not completed a FENCE.ACL since (R339) -/
  aclPending : Bool := false
  /-- cycle from which each g register or accumulator may be used (R343), key 0-31 and 32-35 -/
  ready : Tab Nat := []
  earlyRead : Option (BitVec 32 × BitVec 2) := none
  /-- a hand-over store that waits (R206, R239, R249): register offset and value -/
  stalled : Option (Nat × Nat) := none
  /-- a BRK halts the core (R408) -/
  armed : Bool := false
  /-- the run state a halt found -/
  haltedFrom : RunState := .running
deriving DecidableEq, Repr

/-- A request event waiting at a channel's queue port to be presented (R369, R377). -/
structure ReqEvent where
  event : Nat
  data : Nat
  tRaise : Nat
deriving DecidableEq, Repr

/-- A channel's interrupt controller (Tables 11-2, 11-3; R374, R382, R385). -/
structure Intc where
  /-- LINECFG values that differ from Table 11-1 -/
  linecfg : Tab Nat := []
  mask : Tab Nat := []
  pend : Tab Nat := []
  srcin : Tab Nat := []
  c0busy : BitVec 8 := 0
  nbusy : BitVec 8 := 0
  reqs : List ReqEvent := []
  /-- device time (bits 31:0) at which each pending line was raised -/
  raisedAt : Tab Nat := []
  /-- edge raises latched and unmasks deferred while a word is held (R382), by word -/
  latched : Tab Nat := []
  unmasks : Tab Nat := []
  retained : Bool := false
  /-- edges captured in retention sleep (R385), by word -/
  captured : Tab Nat := []
deriving DecidableEq, Repr

/-- A pending latch of the device event controller (R386), in order of first raise. -/
structure DevLatch where
  event : Nat
  data : Nat
  count : Nat := 0
  tRaise : Nat
deriving DecidableEq, Repr

/-- One copy of the central access table (R395, R398). Rules by index, profiles by number. -/
structure AclTable where
  extended : Bool := false
  rules : Tab (BitVec 128) := []
  profiles : Tab (BitVec 512) := []
  /-- reserved bits of ACL_CTRL as written, checked by R400 -/
  ctrlReserved : Nat := 0
deriving DecidableEq, Repr

/-- The access-table block (Tables 12-9 to 12-11). -/
structure Acl where
  shadow : AclTable := {}
  live : AclTable := {}
  committed : Bool := false
  busy : Bool := false
  checked : Bool := false
  ruleA : Nat := 0
  ruleB : Nat := 0
  result : Nat := 0
  epoch : Nat := 0
  vcount : Nat := 0
  vlost : Nat := 0
  log : List (BitVec 128) := []
  /-- sealed regions recorded at each commit since reset (R403) -/
  sealedUnion : List (Nat × Nat) := []
deriving DecidableEq, Repr

/-- A poison list entry (R412): first byte offset and size of the unit in protected DDR, and class. -/
structure Poison where
  start : Nat
  size : Nat
  cls : Nat
deriving DecidableEq, Repr

/-- The memory protection engine (R409 to R415). -/
structure Mpe where
  kenc : BitVec 256 := 0
  kmac : BitVec 256 := 0
  /-- MINOR of each data line and MAJOR of each level-0 line -/
  minor : Tab Nat := []
  major : Tab Nat := []
  /-- versions of level-1 and level-2 children, and the root array -/
  ctr1 : Tab Nat := []
  ctr2 : Tab Nat := []
  root : Tab Nat := []
  poison : List Poison := []
  /-- groups of 64 lines being re-encrypted -/
  reencrypting : List Nat := []
  /-- counter-line units under MPE_ZERO: start, size -/
  zeroing : List (Nat × Nat) := []
deriving DecidableEq, Repr

/-- DDR: capacity per channel, spare units, copies (R391, R418). -/
structure Ddr where
  /-- C in GiB, 0 while the devices are not measured -/
  cap : Nat := 0
  /-- spare units used per controller -/
  spareUsed : Tab Nat := []
  /-- remapped 256 KiB units: part unit number to spare index -/
  remap : Tab Nat := []
  /-- units being copied to a spare -/
  copying : List Nat := []
deriving DecidableEq, Repr

/-- The debug access port (R407) and the TAP (19_balls_power_and_electrical.md R626). -/
structure Debug where
  req : BitVec 136 := 0
  rsp : BitVec 80 := 0
deriving DecidableEq, Repr

end Sys2Proof.Machine
end

