-- ==== Sys2Proof/Machine/TamperState.lean ====
section
/-! DEFINITION. State of the alarm machine, the Armature, the battery domain, the Patina log, the
fault histories and the measurements (chapters 15 and 18). -/

namespace Sys2Proof.Machine

/-- The states of an alarm (R483), in the order of OD 0x7040+n.03. -/
inductive AlarmState where
  | clear | active | held
deriving DecidableEq, Repr

/-- One alarm of Table 15-1. Level and flags differ from the table only where configured, so they are
held as overrides. -/
structure Alarm where
  state : AlarmState := .clear
  level : Option Nat := none
  flags : Option Nat := none
  /-- level at its raise: for 0x23 the highest of its raises since it was CLEAR, for 0x24 the level taken -/
  raised : Nat := 0
  count : Nat := 0
  activeSince : Nat := 0
  leftAt : Nat := 0
  /-- raised for a single event: HELD at the end of its decision window (R483) -/
  oneShot : Bool := false
  /-- outcome of the L4 erase in its raise entry (R492): 0 none, 1 zero, 2 not zero -/
  erase : Nat := 0
  /-- set aside by the last re-initialization (R537) -/
  aside : Bool := false
deriving DecidableEq, Repr

/-- A Patina entry (Table 15-7). LINK is held once the entry is linked. -/
structure Entry where
  seq : Nat := 0
  time : Nat
  source : Nat
  code : Nat
  level : Nat := 0xFF
  eflags : Nat := 0
  group : Nat := 0x0100
  data : Bytes
  link : Bytes := []
  /-- device time at which it entered the buffer -/
  entered : Nat := 0
deriving DecidableEq, Repr

/-- A report in the open decision window (R493): alarm, level, SDATA, and whether it writes a raise
entry. -/
structure WinReport where
  alarm : Nat
  level : Nat
  sdata : Bytes
deriving DecidableEq, Repr

/-- The open decision window: time of its first report, its reports. -/
structure Window where
  openedAt : Nat
  /-- level held before its first report -/
  before : Nat
  reports : List WinReport
deriving DecidableEq, Repr

/-- The Armature's nets and groups (R485, R486), the TAMP_IN inputs (R488) and the detector tests (R484). -/
structure Armature where
  /-- per net: the last four period results, newest first (R485) -/
  hist : Tab (List Bool) := []
  /-- per group: baseline resistance and capacitance, last measurement, deviation of the last one -/
  baseR : Tab Nat := []
  baseC : Tab Nat := []
  lastR : Tab Nat := []
  lastC : Tab Nat := []
  deviated : Tab Bool := []
  /-- trained loop resistance of each TAMP_IN; its last resistance measured; device time from which its level
  comparator has read the condition without a break -/
  trained : Tab Nat := []
  tampR : Tab Nat := []
  tampSince : Tab Nat := []
  /-- detectors that did not report their last stimulus (R484) -/
  failed : List Nat := []
deriving DecidableEq, Repr

/-- The battery domain (R498 to R501). -/
structure Battery where
  valid : Bool := true
  /-- main power is present -/
  mainPower : Bool := true
  /-- real-time count, and the device time at which it was recorded; it stands while the crystal is stopped -/
  rtc : Nat := 0
  rtcAt : Nat := 0
  rtcRuns : Bool := true
  /-- real-time count at which main power failed -/
  failRtc : Nat := 0
  /-- onset latch of each alarm source: the real-time count -/
  onset : Tab Nat := []
  /-- entries formed without main power, oldest first, at most 64 -/
  entries : List Entry := []
  lost : Nat := 0
  lostMask : Nat := 0
  /-- levels and flags copied from the configuration (R497) -/
  levels : Tab Nat := []
  flags : Tab Nat := []
  interval : Nat := 4
  /-- alarms reporting at the last sample -/
  reporting : List Nat := []
  /-- an L4 erase read back bits that are not zero (R492) -/
  eraseBad : Bool := false
  /-- the battery domain erased the master key register without main power (R499, R500) -/
  erased : Bool := false
deriving DecidableEq, Repr

/-- An open or closed log block in flash (Table 15-11). -/
structure LogBlock where
  /-- position in the ring of 64 -/
  pos : Nat
  openCount : Nat
  firstSeq : Nat
  linkBefore : Bytes
  entries : List Entry := []
  pages : Nat := 0
  closed : Bool := false
deriving DecidableEq, Repr

/-- The Patina log (R502 to R515). -/
structure Patina where
  headSeq : Nat := 0
  /-- HEAD_SEQ at the last power-up -/
  bootSeq : Nat := 0
  headLink : Bytes := []
  /-- Plinth queue of entries not yet in the buffer, in arrival order, at most 256 -/
  queue : List Entry := []
  /-- battery-backed buffer, linked, oldest first, at most 64 -/
  buffer : List Entry := []
  /-- last entry programmed in flash -/
  progSeq : Nat := 0
  progLink : Bytes := []
  /-- closed and open log blocks, oldest first; at most 64 -/
  blocks : List LogBlock := []
  /-- OPEN_COUNT of each of the 64 blocks by position; ring position of the next block -/
  openCounts : Tab Nat := []
  nextBlock : Nat := 0
  suppressed : Tab Nat := []
  lost : Nat := 0
  lostMask : Nat := 0
  lastCp : Nat := 0
  lastCpLink : Bytes := []
  lastCpTime : Nat := 0
  sinceCp : Nat := 0
  /-- checkpoints not yet acknowledged, oldest first -/
  openCps : List Entry := []
  /-- checkpoints whose statement was read or exported since the part started -/
  readCps : List Nat := []
  lastAck : Nat := 0
deriving DecidableEq, Repr

/-- History of a fault source's unit (R584, R588). -/
structure FaultUnit where
  times : List Nat := []
  transients : Nat := 0
  lasting : Nat := 0
  lastTime : Nat := 0
deriving DecidableEq, Repr

/-- A health record (R587). -/
structure HealthRec where
  source : Nat
  unit : Nat
  count : Nat
  lasting : Bool
  time : Nat
  read : Bool := false
deriving DecidableEq, Repr

/-- Health, counters' saturation list and measurements (chapter 18). -/
structure Health where
  /-- fault units, key source * 2^32 + unit -/
  faults : Tab FaultUnit := []
  ring : List HealthRec := []
  /-- saturated entries: INDEX * 256 + SUB -/
  saturated : List Nat := []
  /-- present, lowest and highest mV of each rail -/
  railNow : Tab Nat := []
  railMin : Tab Nat := []
  railMax : Tab Nat := []
  temps : Tab Int := []
  battMv : Nat := 0
  battRes : Nat := 0
  battTest : Nat := 0
  /-- charge drawn, tenths of a nAh, held in the battery domain -/
  charge : Nat := 0
  unavailable : Nat := 0
  unavailableSinceClear : Nat := 0
  stateMs : Tab Nat := []
  sharedPassEnd : Nat := 0
  /-- shared blocks' cells retired, MPE units withdrawn per controller, regions remapped -/
  sharedRetired : Tab Nat := []
  mpeWithdrawn : Tab Nat := []
  regionsRemapped : Nat := 0
  /-- JEDEC data of each DDR controller's devices -/
  ddrDevices : Tab Bytes := []
deriving DecidableEq, Repr

end Sys2Proof.Machine
end

