-- ==== Sys2Proof/Machine/State.lean ====
section
/-! DEFINITION. The state of the part as plain data: every register, store, buffer, counter, mode and
pin that the spec gives it, the queue of waiting commands, and what the part has sent. -/

namespace Sys2Proof.Machine

/-- What the part sends or answers, newest first in `State.out`. -/
inductive Out where
  /-- a frame to the peer of an Ethernet session: port, SESSION_ID, TYPE, SEQ, REKEY_DUE, body -/
  | frame (port session typ seq : Nat) (rekey : Bool) (body : Bytes)
  /-- a RESET frame: port, peer IP address, peer UDP port, SESSION_ID named, reason -/
  | reset (port ip udp session reason : Nat)
  /-- an ARP, neighbour or ICMP answer on a port: 0 ARP, 1 neighbour, 2 echo -/
  | netReply (port kind : Nat) (data : Bytes)
  /-- a response frame written to host memory: function, address, bytes -/
  | hostWrite (f addr : Nat) (data : Bytes)
  /-- a completion entry: function, ring, TAG, RSP_LEN, CSTATUS, PHASE -/
  | completion (f r tag rspLen cstatus : Nat) (phase : Bool)
  /-- a host memory read: function, address, length -/
  | hostRead (f addr len : Nat)
  /-- an MSI-X vector of a function -/
  | msix (f vec : Nat)
  /-- a value returned to the reader of a register -/
  | value (v : Nat)
  /-- DBGRSP: STATUS and DATA -/
  | dbg (status data : Nat)
  /-- a CAN frame: identifier, bytes -/
  | can (id : Nat) (data : Bytes)
  /-- a Frieze flit message: port, virtual channel, kind, fields -/
  | frieze (port vc kind : Nat) (data : Bytes)
  /-- a Plinth link frame or replay request -/
  | plink (kind : Nat) (data : Bytes)
  /-- an SD command: index, argument -/
  | sd (cmd arg : Nat)
  /-- a command to the officer card of slot k -/
  | officer (k : Nat) (data : Bytes)
  /-- the TAP's data register selected: 0 identification, 1 bypass, 2 boundary; driven or not -/
  | tap (reg : Nat) (drives : Bool)
deriving DecidableEq, Repr

/-- Output pins of the part (15 R496, 10 R365) and the supply and clock pins it watches (19). -/
structure Pins where
  /-- ALM_N[0] and ALM_N[1] are driven low -/
  alm0 : Bool := true
  alm1 : Bool := true
  alm0At : Nat := 0
  alm1At : Nat := 0
  /-- ROM has not yet restored the held states: both ALM_N low (R496) -/
  almForced : Bool := true
  /-- CORE_LOCK_N is low -/
  coreLock : Bool := false
  coreLockAt : Nat := 0
  /-- SYS_RST_N is low; the part is held in reset (R611 to R614) -/
  sysRst : Bool := false
  held : Bool := true
  /-- TAP instruction, by its code of Table 19-8 -/
  tapIr : Nat := 1
deriving DecidableEq, Repr

/-- Reasons a step can stop. None of them is raised by ordinary data; see the docstrings. -/
inductive Fault where
  /-- Raised by no command of this model today; it stands for a machine that cannot go on. Safe: it can
  only make a claim unprovable. -/
  | stuck (why : String)
deriving DecidableEq, Repr

/-- Commands without a meaning. -/
inductive Refusal where
  /-- Raised by Dispatch alone, for a command that is not modelled yet. Safe: no claim can be proved
  about the command's effect. -/
  | notModelled (mnemonic : String)
deriving DecidableEq, Repr

/-- The state of the part. -/
structure State where
  /-- commands waiting, first in, first out -/
  pending : List Instr := []
  /-- device time, 1 ns ticks -/
  time : Nat := 0
  /-- the model's own counter of free values used (log 2) -/
  free : Nat := 0
  out : List Out := []
  pins : Pins := {}
  -- chapters 09 to 12
  cores : Tab Core := []
  intc : Tab Intc := []
  devEv : List DevLatch := []
  acl : Acl := {}
  mpe : Mpe := {}
  ddr : Ddr := {}
  /-- words (8 bytes, local memories) and lines (64 bytes, DDR) with an uncorrectable error, by address -/
  ecc : Tab Nat := []
  mem : List Host.Cell := []
  dbg : Debug := {}
  lockup : Bytes := []
  supRestarting : Bool := false
  devEvMax : Nat := 0
  -- chapters 01 to 05
  plink : Plink := {}
  clear : ClearLines := {}
  chans : Tab Channel := []
  rest : Rest := {}
  reqs : Tab Request := []
  sessions : Tab Session := []
  nextSession : Nat := 0
  resets : Tab Nat := []
  rings : Tab Ring := []
  eth : Tab EthPort := []
  pcie : Pcie := {}
  qm : QueueMgr := {}
  svc : Services := {}
  -- chapter 14
  frz : Frieze := {}
  -- chapter 13
  mgmt : Mgmt := {}
  -- chapters 15 and 18
  alarms : Tab Alarm := []
  window : Option Window := none
  arm : Armature := {}
  batt : Battery := {}
  pat : Patina := {}
  health : Health := {}
  -- chapters 06 to 08
  eng : Tab Engines := []
  ks : KeyStore := {}
  /-- generators outside the channels: 0 ingress parser, 1 egress assembler, 2 key fetch unit -/
  gens : Tab Generator := []
  noiseJitterBad : Bool := false
  noiseLatchBad : Bool := false
  -- chapter 16
  life : Life := {}
  flash : Flash := {}
  -- chapter 17
  cards : Cards := {}
  -- object dictionary: scalar and octet values, counters by entry and unit, overflow flags
  od : Tab Int := []
  odb : Tab Bytes := []
  ctr : Tab Nat := []
  ovf : List Nat := []
deriving DecidableEq, Repr

/-- The machine right after reset: every field at the value that the spec or the log names. -/
def State.reset : State := {}

/-- The answer of a meaning. -/
abbrev Res := Host.Outcome State Fault Refusal

end Sys2Proof.Machine
end

