-- ==== Sys2Proof/Machine/Tab.lean ====
section
/-! DEFINITION. Operations on sparse tables and on byte strings: the named helpers over which every
meaning is written. Byte order is little-endian unless a name says otherwise (00_scope.md R8). -/

namespace Sys2Proof.Machine

/-- The value of a key, if the table lists it. -/
def tfind {α : Type} : Tab α → Nat → Option α
  | [], _ => none
  | (k', v) :: t, k => if k' = k then some v else tfind t k

/-- Replace or insert a key, in key order. -/
def tput {α : Type} : Tab α → Nat → α → Tab α
  | [], k, v => [(k, v)]
  | (k', v') :: t, k, v =>
    if k < k' then (k, v) :: (k', v') :: t
    else if k = k' then (k, v) :: t
    else (k', v') :: tput t k v

/-- Remove a key. -/
def tdel {α : Type} (t : Tab α) (k : Nat) : Tab α := t.filter (fun e => !(e.1 == k))

/-- The value of a key, `d` when the table does not list it. -/
def tget {α : Type} (d : α) (t : Tab α) (k : Nat) : α := (tfind t k).getD d

/-- Set a key; a value equal to the default removes the entry, so that equal tables are equal data. -/
def tset {α : Type} [DecidableEq α] (d : α) (t : Tab α) (k : Nat) (v : α) : Tab α :=
  if v = d then tdel t k else tput t k v

/-- Keys strictly rising. -/
def tsorted {α : Type} : Tab α → Bool
  | [] => true
  | [_] => true
  | (k, _) :: (k', v') :: t => decide (k < k') && tsorted ((k', v') :: t)

/-- The canonical form: keys strictly rising, and no entry equal to the default. -/
def twf {α : Type} [DecidableEq α] (d : α) (t : Tab α) : Bool :=
  tsorted t && t.all (fun e => !(decide (e.2 = d)))

/-- The least key not in a table whose keys start at `k` (structural on the list). -/
def firstFree {α : Type} : Tab α → Nat → Nat
  | [], k => k
  | (k', _) :: t, k => if k' = k then firstFree t (k + 1) else if k < k' then k else firstFree t k

/-- The low `n` bytes of a value, least significant first. -/
def leBytes : Nat → Nat → Bytes
  | 0, _ => []
  | n + 1, v => BitVec.ofNat 8 v :: leBytes n (v / 256)

/-- The value of a little-endian byte string. -/
def leNat : Bytes → Nat
  | [] => 0
  | b :: t => b.toNat + 256 * leNat t

/-- The value of a big-endian byte string. -/
def beNat (b : Bytes) : Nat := leNat b.reverse

/-- The low `n` bytes of a value, most significant first. -/
def beBytes (n v : Nat) : Bytes := (leBytes n v).reverse

/-- The little-endian field of `n` bytes at an offset; missing bytes read as zero. -/
def leAt (b : Bytes) (off n : Nat) : Nat := leNat ((b.drop off).take n)

/-- `n` bytes at an offset. -/
def slice (b : Bytes) (off n : Nat) : Bytes := (b.drop off).take n

/-- `n` zero bytes. -/
def zeros (n : Nat) : Bytes := List.replicate n 0

/-- A string cut or zero-filled to `n` bytes. -/
def padTo (n : Nat) (b : Bytes) : Bytes := (b ++ zeros n).take n

/-- Bits h down to l of a value (00_scope.md R7). -/
def bits (v h l : Nat) : Nat := v / 2 ^ l % 2 ^ (h + 1 - l)

/-- Bit i of a value. -/
def bit (v i : Nat) : Bool := v / 2 ^ i % 2 = 1

/-- 1 for true. -/
def b2n (b : Bool) : Nat := if b then 1 else 0

/-- Are all bytes zero? -/
def allZero (b : Bytes) : Bool := b.all (fun x => x = 0)

/-- XOR of two byte strings, as long as the shorter. -/
def xorBytes (a b : Bytes) : Bytes := List.zipWith (fun x y => x ^^^ y) a b

/-- Replace the element at a position. -/
def setAt {α : Type} : List α → Nat → α → List α
  | [], _, _ => []
  | _ :: t, 0, v => v :: t
  | x :: t, n + 1, v => x :: setAt t n v

/-- First failing condition of a list of (fails, status) pairs. -/
def firstFail : List (Bool × Nat) → Option Nat
  | [] => none
  | (b, st) :: t => if b then some st else firstFail t

end Sys2Proof.Machine
end

