-- ==== Sys2Proof/Machine/Ops.lean ====
section
/-! DEFINITION. Shared operations of every family: access to the tables of the state, object dictionary
values, saturating counters (R10), device events (R386), the raise of alarms (R482, R483), Patina
entries (R502 to R506) and the count-in-window rule (R584 to R587). -/

namespace Sys2Proof.Machine

/-- Send: `out` is newest first. -/
def emit (o : Out) (s : State) : State := { s with out := o :: s.out }

/-- The next free value below `n`, and the state that has used it (log 2). -/
def freeNat (n : Nat) (s : State) : Nat := Config.freeValue s.free % n

/-- Advance the free-value counter. -/
def useFree (s : State) : State := { s with free := s.free + 1 }

/-- A free byte string of `n` bytes. -/
def freeBytes (n : Nat) (s : State) : Bytes := leBytes n (Config.freeValue s.free)

-- Units of the state by number.

def State.core (s : State) (c : Nat) : Core := tget {} s.cores c
def State.setCore (s : State) (c : Nat) (k : Core) : State := { s with cores := tset {} s.cores c k }
def State.intcOf (s : State) (n : Nat) : Intc := tget {} s.intc n
def State.setIntc (s : State) (n : Nat) (k : Intc) : State := { s with intc := tset {} s.intc n k }
def State.chan (s : State) (n : Nat) : Channel := tget {} s.chans n
def State.setChan (s : State) (n : Nat) (k : Channel) : State := { s with chans := tset {} s.chans n k }
def State.req? (s : State) (r : Nat) : Option Request := tfind s.reqs r
def State.setReq (s : State) (r : Nat) (k : Request) : State := { s with reqs := tput s.reqs r k }
def State.port (s : State) (p : Nat) : EthPort := tget {} s.eth p
def State.setPort (s : State) (p : Nat) (k : EthPort) : State := { s with eth := tset {} s.eth p k }
def State.ring (s : State) (f r : Nat) : Ring := tget {} s.rings (f * 256 + r)
def State.setRing (s : State) (f r : Nat) (k : Ring) : State := { s with rings := tset {} s.rings (f * 256 + r) k }
def State.queue (s : State) (q : Nat) : Queue := tget {} s.qm.queues q
def State.setQueue (s : State) (q : Nat) (k : Queue) : State :=
  { s with qm := { s.qm with queues := tset {} s.qm.queues q k } }
def State.alarm (s : State) (a : Nat) : Alarm := tget {} s.alarms a
def State.setAlarm (s : State) (a : Nat) (k : Alarm) : State := { s with alarms := tset {} s.alarms a k }
def State.engOf (s : State) (n : Nat) : Engines := tget {} s.eng n
def State.modEng (s : State) (n : Nat) (f : Engines → Engines) : State := { s with eng := tset {} s.eng n (f (s.engOf n)) }
def State.slot (s : State) (i : Nat) : Slot := tget {} s.ks.slots i
def State.setSlot (s : State) (i : Nat) (k : Slot) : State := { s with ks := { s.ks with slots := tset {} s.ks.slots i k } }
def State.tenant (s : State) (t : Nat) : Tenant := tget {} s.ks.tenants t
def State.setTenant (s : State) (t : Nat) (k : Tenant) : State :=
  { s with ks := { s.ks with tenants := tset {} s.ks.tenants t k } }
def State.modCore (s : State) (c : Nat) (f : Core → Core) : State := s.setCore c (f (s.core c))
def State.modChan (s : State) (n : Nat) (f : Channel → Channel) : State := s.setChan n (f (s.chan n))
def State.modIntc (s : State) (n : Nat) (f : Intc → Intc) : State := s.setIntc n (f (s.intcOf n))
def State.modReq (s : State) (r : Nat) (f : Request → Request) : State :=
  match s.req? r with
  | some k => s.setReq r (f k)
  | none => s

/-- Is the debug protocol enabled (Table 16-9, R536)? -/
def debugEnabled (s : State) : Bool :=
  match s.life.state with
  | .operational | .recovery => s.life.unlocked
  | _ => true

-- Object dictionary values (R9, R12).

/-- Value of a scalar entry: as set, or its default. -/
def State.odInt (s : State) (index sub : Nat) : Int :=
  tget (odDefault (odKey index sub)) s.od (odKey index sub)

/-- Value of an unsigned scalar entry. -/
def State.cfg (s : State) (index sub : Nat) : Nat := (s.odInt index sub).toNat

/-- Value of a BOOL entry. -/
def State.cfgB (s : State) (index sub : Nat) : Bool := s.odInt index sub != 0

def State.setOd (s : State) (index sub : Nat) (v : Int) : State :=
  { s with od := tset (odDefault (odKey index sub)) s.od (odKey index sub) v }

/-- Value of an OCTETS entry. -/
def State.octets (s : State) (index sub : Nat) : Bytes := tget [] s.odb (odKey index sub)

def State.setOctets (s : State) (index sub : Nat) (v : Bytes) : State :=
  { s with odb := tset [] s.odb (odKey index sub) v }

/-- A 32-bit count that saturates (R10). -/
def sat32 (v : Nat) : Nat := Nat.min (2 ^ 32 - 1) v

/-- The serial number, OD 0x1000.06 (R532). -/
def serialBytes (s : State) : Bytes := leBytes 8 s.life.fuses.serial.toNat

/-- A notice for a session (R446): with 64 held, the oldest is replaced and bit 15 set in the CODE of the next. -/
def pushNotice (code v : Nat) (l : List (Nat × Nat)) : List (Nat × Nat) :=
  if l.length < 64 then l ++ [(code, v)]
  else
    match l with
    | _ :: (c, w) :: t => (c ||| 0x8000, w) :: (t ++ [(code, v)])
    | _ => [(code, v)]

-- Device events (R386).

/-- One raise at the latch of an event source; further raises of a latched event coalesce. -/
def latchEvent (event data : Nat) (s : State) : State × Bool :=
  if s.devEv.any (fun l => l.event = event) then
    ({ s with devEv := s.devEv.map (fun l =>
        if l.event = event then { l with count := Nat.min 255 (l.count + 1) } else l) }, true)
  else
    ({ s with devEv := s.devEv ++ [{ event := event, data := data, tRaise := s.time % 2 ^ 32 }] }, false)

/-- Key of a counter: entry and unit (tenant, port, channel ...) that it counts for. -/
def ctrKey (index sub unit : Nat) : Nat := odKey index sub * 2 ^ 32 + unit

def State.count (s : State) (index sub unit : Nat) : Nat := tget 0 s.ctr (ctrKey index sub unit)

/-- Largest value of a counter entry, by its type. -/
def ctrMax (index sub : Nat) : Nat :=
  match odFind index sub with
  | some e => e.hi.toNat
  | none => 2 ^ 32 - 1

/-- A counter entry joins the list of saturated entries, or is counted at OD 0x9001.04 (R589). -/
def listSaturated (key : Nat) (s : State) : State :=
  if s.health.saturated.contains key then s
  else if s.health.saturated.length < 256 then
    { s with health := { s.health with saturated := s.health.saturated ++ [key] } }
  else
    { s with ctr := tset 0 s.ctr (ctrKey 0x9001 4 0) (Nat.min (2 ^ 32 - 1) (s.count 0x9001 4 0 + 1)) }

/-- Device event 0x8030 of a saturated counter (R10). -/
def saturated (index sub : Nat) (s : State) : State :=
  listSaturated (odKey index sub) ((latchEvent 0x8030 (odKey index sub) s).1)

/-- Add to an RS counter (R10): it stops at its largest value, sets its overflow flag and raises the
saturation event. -/
def bumpBy (index sub unit n : Nat) (s : State) : State :=
  let v := s.count index sub unit
  let m := ctrMax index sub
  let s' := { s with ctr := tset 0 s.ctr (ctrKey index sub unit) (Nat.min m (v + n)) }
  if v < m ∧ m ≤ v + n then
    saturated index sub { s' with ovf := if s'.ovf.contains (ctrKey index sub unit) then s'.ovf
      else s'.ovf ++ [ctrKey index sub unit] }
  else s'

def bump (index sub unit : Nat) (s : State) : State := bumpBy index sub unit 1 s

/-- Raise a device event (R386); a coalesced raise counts at OD 0x9064.01. -/
def devEvent (event data : Nat) (s : State) : State :=
  let (s', merged) := latchEvent event data s
  if merged then bump 0x9064 1 0 s' else s'

/-- Keep the largest value seen at a largest-value entry (OD 0x9053.03, 0x9053.04, 0x9064.02). -/
def largest (index sub v : Nat) (s : State) : State :=
  { s with ctr := tset 0 s.ctr (ctrKey index sub 0) (Nat.max (s.count index sub 0) v) }

-- Patina entries (R502 to R506).

/-- The class of a SOURCE in the SUPPRESSED entry (Table 15-9), 0 to 5; 6 for log and alarm entries. -/
def suppressClass (source : Nat) : Nat :=
  if source / 256 = 2 then 0 else if source / 256 = 3 then 1 else if source / 256 = 4 then 2
  else if source / 256 = 5 then 3 else if source / 256 = 6 then 4
  else if 7 ≤ source / 256 ∧ source / 256 ≤ 15 then 5 else 6

/-- Alarm raise and clear entries (R506). -/
def isAlarmEntry (e : Entry) : Bool := e.source / 256 = 1 && (e.code = 1 || e.code = 2)

/-- Entries of the debug access port and of the Plinth die wait for a place; those of the main die do not. -/
def entryWaits (source : Nat) : Bool := suppressClass source = 1 || suppressClass source = 5 || suppressClass source = 6

/-- An entry is not written, and counted by its class. -/
def suppress (e : Entry) (s : State) : State :=
  let k := suppressClass e.source
  bump 0x9070 2 0 { s with pat := { s.pat with suppressed := tset 0 s.pat.suppressed k (sat32 (tget 0 s.pat.suppressed k + 1)) } }

/-- An entry joins the Plinth queue of 256 (R506). -/
def logPush (e : Entry) (s : State) : State :=
  if s.pat.queue.length < 256 ∨ entryWaits e.source then { s with pat := { s.pat with queue := s.pat.queue ++ [e] } }
  else suppress e s

/-- Write a Patina entry that is no alarm entry. -/
def logEntry (source code : Nat) (data : Bytes) (s : State) : State :=
  logPush { time := s.time, source := source, code := code, data := padTo 24 data } s

-- Alarms (R482, R483, R493).

/-- Table 15-1: default level, least level, latched, armed (0 no or not watched, 1 yes, 2 always). -/
def alarmTable : List (Nat × Nat × Bool × Nat) := [
  (4, 3, true, 1), (4, 3, true, 1), (3, 2, false, 0), (3, 2, false, 0), (3, 2, false, 0),
  (3, 2, false, 0), (3, 1, false, 1), (3, 1, false, 1), (4, 3, true, 1), (4, 3, true, 1),
  (0, 0, false, 0), (0, 0, false, 0), (0, 0, false, 0), (0, 0, false, 0),
  (0, 0, false, 0), (0, 0, false, 0), (0, 0, false, 0), (0, 0, false, 0),
  (3, 3, true, 0), (3, 3, true, 0), (3, 3, true, 1), (3, 3, true, 0), (3, 2, true, 0), (3, 2, true, 0),
  (1, 0, false, 0), (1, 1, false, 0), (2, 2, false, 0), (2, 1, true, 0), (2, 2, true, 0),
  (2, 1, false, 0), (1, 0, false, 0), (1, 0, false, 2), (1, 0, false, 0), (2, 1, true, 0),
  (2, 2, false, 0), (0, 0, true, 0), (1, 0, false, 0)]

def alarmDefault (a : Nat) : Nat × Nat × Bool × Nat := alarmTable.getD a (0, 0, false, 0)

/-- Configured level of an alarm; 0x23 shows the highest of its raises, 0x24 takes OD 0x6030.02. -/
def alarmLevel (s : State) (a : Nat) : Nat :=
  if a = 0x23 then (s.alarm a).raised
  else if a = 0x24 then s.cfg 0x6030 2
  else ((s.alarm a).level).getD (alarmDefault a).1

/-- Flags of an alarm: bit 0 LATCHED, bit 1 ARMED. -/
def alarmFlags (s : State) (a : Nat) : Nat :=
  if a = 0x23 then 1
  else ((s.alarm a).flags).getD (b2n (alarmDefault a).2.2.1 + 2 * (if (alarmDefault a).2.2.2 = 0 then 0 else 1))

def alarmLatched (s : State) (a : Nat) : Bool := alarmFlags s a % 2 = 1
def alarmArmed (s : State) (a : Nat) : Bool := bit (alarmFlags s a) 1 || (alarmDefault a).2.2.2 = 2

/-- Level at which an alarm that is not CLEAR is held. -/
def alarmHeldLevel (s : State) (a : Nat) : Nat := (s.alarm a).raised

/-- The level held (R495): the highest level among alarms that are ACTIVE or HELD. -/
def levelHeld (s : State) : Nat :=
  s.alarms.foldl (fun m e => if e.2.state = .clear then m else Nat.max m e.2.raised) 0

/-- A report joins the open decision window, or opens one (R493). -/
def joinWindow (before : Nat) (r : WinReport) (s : State) : State :=
  match s.window with
  | some w => { s with window := some { w with reports := w.reports ++ [r] } }
  | none => { s with window := some { openedAt := s.time, before := before, reports := [r] } }

-- The real-time counter (R467, R501): 32,768 counts a second.

/-- The real-time count under main power. -/
def rtcNow (s : State) : Nat :=
  if s.batt.rtcRuns then s.batt.rtc + (s.time - s.batt.rtcAt) * 32768 / 1000000000 else s.batt.rtc

/-- A count in ticks of device time, rounded down. -/
def rtcTicks (n : Nat) : Nat := n * 1000000000 / 32768

/-- Record the count now; the crystal runs from here or stands. -/
def rtcMark (runs : Bool) (s : State) : State :=
  { s with batt := { s.batt with rtc := rtcNow s, rtcAt := s.time, rtcRuns := runs } }

/-- The onset latch of an alarm source: the count at its first report since power-up (R501). -/
def latchOnset (a : Nat) (s : State) : State :=
  if (tfind s.batt.onset a).isSome then s
  else { s with batt := { s.batt with onset := tput s.batt.onset a (rtcNow s) } }

/-- The alarm machine watches: main power is present and the part is not held in reset (R498, R613). -/
def watching (s : State) : Bool := s.batt.mainPower && !s.pins.held

/-- The alarm machine takes a report of alarm `a` at a level (R483). `oneShot`: raised by a rule for a
single event, so HELD from the end of its decision window. -/
def alarmReport (a lvl : Nat) (sdata : Bytes) (oneShot : Bool) (s : State) : State :=
  if !watching s then s
  else
    let before := levelHeld s
    let s := latchOnset a (if a = 0x20 && (s.alarm a).state != .active then rtcMark false s else s)
    let k := s.alarm a
    let s := bump (0x7040 + a) 4 0 s
    match k.state with
    | .clear =>
      joinWindow before { alarm := a, level := lvl, sdata := padTo 16 sdata }
        (s.setAlarm a { k with state := .active, raised := lvl, activeSince := s.time, oneShot := oneShot, erase := 0 })
    | .held =>
      if a = 0x23 then
        joinWindow before { alarm := a, level := lvl, sdata := padTo 16 sdata }
          (s.setAlarm a { k with state := .active, raised := Nat.max k.raised lvl, activeSince := s.time,
                                 oneShot := oneShot })
      else s.setAlarm a { k with state := .active, activeSince := s.time, oneShot := oneShot }
    | .active =>
      if a = 0x23 then
        joinWindow before { alarm := a, level := lvl, sdata := padTo 16 sdata }
          (s.setAlarm a { k with raised := Nat.max k.raised lvl })
      else s.setAlarm a { k with oneShot := k.oneShot && oneShot }

/-- Raise alarm `a` at its configured level. -/
def raiseAlarm (a : Nat) (sdata : Bytes) (s : State) : State :=
  alarmReport a (alarmLevel s a) sdata false s

/-- Alarm 0x23 for a lasting fault of a source, at the level its action names (R482, R586). -/
def raiseLasting (source lvl : Nat) (s : State) : State :=
  alarmReport 0x23 lvl (leBytes 2 source) true s

/-- Alarm 0x23 ordered by a rule for a unit that Table 18-1 does not number: its SDATA names no source that the
spec states, so it is a free value. -/
def raiseOther (lvl : Nat) (s : State) : State := raiseLasting (freeNat 65536 s) lvl (useFree s)

-- Fault sources (R584 to R588).

/-- N and W entries of a fault source (Table 18-1); N = 1 and no window for the last three. -/
def faultParams (s : State) (source : Nat) : Nat × Nat :=
  match source with
  | 0x01 => (s.cfg 0x9065 1, s.cfg 0x9065 2)
  | 0x02 => (s.cfg 0x9065 3, s.cfg 0x9065 2)
  | 0x03 => (s.cfg 0x9065 4, s.cfg 0x9065 5)
  | 0x04 => (s.cfg 0x9017 1, s.cfg 0x9017 2)
  | 0x05 => (s.cfg 0x9060 1, s.cfg 0x9060 2)
  | 0x06 => (s.cfg 0x9061 1, s.cfg 0x9061 2)
  | 0x07 => (s.cfg 0x9012 1, s.cfg 0x9012 2)
  | 0x08 => (s.cfg 0x9062 1, s.cfg 0x9062 2)
  | 0x09 => (s.cfg 0x9062 3, s.cfg 0x9062 4)
  | 0x0A => (s.cfg 0x9013 1, s.cfg 0x9013 2)
  | 0x0B => (s.cfg 0x9069 1, s.cfg 0x9069 2)
  | 0x0C => (s.cfg 0x9014 1, s.cfg 0x9014 2)
  | 0x0D => (s.cfg 0x9016 1, s.cfg 0x9016 2)
  | 0x0E => (s.cfg 0x9015 1, s.cfg 0x9015 2)
  | 0x0F => (s.cfg 0x9063 9, s.cfg 0x9063 0xA)
  | _ => (1, 0)

/-- Level that a source's action names (Table 18-1): L2 or, for the other actions, L0. -/
def faultLevel (source : Nat) : Nat :=
  if source = 0x04 ∨ source = 0x08 ∨ source = 0x09 ∨ source = 0x0F then 2 else 0

/-- The channel whose lasting fault raises device event 0x8020 + n (R586, R588). -/
def faultChannel (source unit : Nat) : Option Nat :=
  match source with
  | 0x01 | 0x02 | 0x07 | 0x10 => some unit
  | 0x05 => some (unit / 512)
  | 0x06 => some (unit / 16)
  | _ => none

def faultKey (source unit : Nat) : Nat := source * 2 ^ 32 + unit

def State.faultUnit (s : State) (source unit : Nat) : FaultUnit := tget {} s.health.faults (faultKey source unit)

def State.setFaultUnit (s : State) (source unit : Nat) (f : FaultUnit) : State :=
  { s with health := { s.health with faults := tset {} s.health.faults (faultKey source unit) f } }

/-- Write a health record to the ring of 256, newest first (R587). -/
def healthRecord (r : HealthRec) (s : State) : State :=
  let s := bump 0x9004 3 0 s
  let full := s.health.ring.length ≥ 256
  let oldUnread := match s.health.ring.getLast? with | some o => !o.read | none => false
  let s := if full && oldUnread then bump 0x9004 4 0 s else s
  { s with health := { s.health with ring := r :: s.health.ring.take 255 } }

/-- Does a channel's state keep its units' events from counting (R587)? -/
def chanNotCounted (s : State) (n : Nat) : Bool :=
  (s.chan n).data = .restTest || (s.chan n).data = .quarantine

/-- Judge one event of a fault source's unit (R584): the answer says whether it is a lasting fault. The
source's action is the caller's. `lvl`: the level of the raise of 0x23 for a lasting fault. -/
def countFault (source unit lvl : Nat) (s : State) : State × Bool :=
  if (match faultChannel source unit with | some n => source != 0x10 && source != 0x11 && chanNotCounted s n | none => false)
  then (s, false)
  else
    let (n, w) := faultParams s source
    let f := s.faultUnit source unit
    let inWin := f.times.filter (fun t => decide (s.time < t + w * 1000000000))
    if n - 1 ≤ inWin.length then
      let s := s.setFaultUnit source unit { f with times := [], lasting := sat32 (f.lasting + 1), lastTime := s.time }
      let s := healthRecord { source := source, unit := unit, count := inWin.length + 1, lasting := true, time := s.time } s
      let s := raiseLasting source lvl s
      let s := match faultChannel source unit with
        | some ch => devEvent (0x8020 + ch) source s
        | none => s
      (s, true)
    else
      let s := s.setFaultUnit source unit
        { f with times := (s.time :: f.times).take (n - 1), transients := sat32 (f.transients + 1), lastTime := s.time }
      (healthRecord { source := source, unit := unit, count := inWin.length + 1, lasting := false, time := s.time } s, false)

-- Segments.

/-- A descriptor from its fields. -/
def mkSeg (base limit lvl : Nat) (v x w r : Bool) : BitVec 128 :=
  BitVec.ofNat 128 (limit * 2 ^ 64 + b2n v * 2 ^ 55 + lvl * 2 ^ 53 + b2n x * 2 ^ 52 + b2n w * 2 ^ 51 + b2n r * 2 ^ 50 + base)

-- Firmware banks (R548, R549).

/-- Bank that the selection record names, and the other one. -/
def selectedBank (s : State) : Bank := if s.life.selB then s.life.bankB else s.life.bankA
def otherBank (s : State) : Bank := if s.life.selB then s.life.bankA else s.life.bankB
def setSelected (b : Bank) (s : State) : State :=
  { s with life := if s.life.selB then { s.life with bankB := b } else { s.life with bankA := b } }
def setOther (b : Bank) (s : State) : State :=
  { s with life := if s.life.selB then { s.life with bankA := b } else { s.life with bankB := b } }

/-- Entry of the bank that the selection record names (Table 16-14). -/
def bankEntry (code : Nat) (inactive : Bool) (s : State) : State :=
  let b := if inactive then otherBank s else selectedBank s
  logEntry 0x0900 code (leBytes 1 (b2n (s.life.selB != inactive)) ++ leBytes 4 b.release ++ leBytes 4 b.secver) s

/-- Steps 1 and 2 of Table 16-15: the selection record names the bank that was inactive, TRIAL. -/
def beginActivation (s : State) : State :=
  let s : State := { s with life := { s.life with act := 1, selB := !s.life.selB, fwRestart := true, olds := [], trialBooted := false } }
  bankEntry 2 false (setSelected { selectedBank s with state := .trial } s)

/-- A trial runs from the record that names a bank TRIAL to its confirmation or reversion. -/
def inTrial (s : State) : Bool := s.life.act = 1 || s.life.act = 2

/-- Reversion during the trial (R549): the selection record names the confirmed bank, and the firmware restarts from
it. -/
def beginRevert (s : State) : State :=
  if !inTrial s then s
  else
    let s := setSelected { selectedBank s with state := .loaded } s
    bankEntry 4 false { s with life := { s.life with act := 3, selB := !s.life.selB, fwRestart := true } }

end Sys2Proof.Machine
end

