-- ==== Sys2Proof/Machine/Mem.lean ====
section
/-! DEFINITION. The address map (R45, R388 to R392), the central access table (R394 to R405), the memory
protection engine (R409 to R414) and the bytes of memory. -/

namespace Sys2Proof.Machine

/-- What an unlisted address of memory reads as: zero (log 4; for protected DDR, R414). -/
def memDefault : Byte := 0

/-- The memory's canonical form. -/
def memWf (m : List Host.Cell) : Bool := twf memDefault m

/-- One byte of memory by its key. -/
def memByte (m : List Host.Cell) (k : Nat) : Byte := tget memDefault m k

/-- `n` bytes from a key upward. -/
def memBytes (m : List Host.Cell) (k : Nat) : Nat → Bytes
  | 0 => []
  | n + 1 => memByte m k :: memBytes m (k + 1) n

/-- Write bytes from a key upward. -/
def memPut (m : List Host.Cell) (k : Nat) : Bytes → List Host.Cell
  | [] => m
  | b :: t => memPut (tset memDefault m k b) (k + 1) t

def State.memWrite (s : State) (k : Nat) (b : Bytes) : State := { s with mem := memPut s.mem k b }
def State.memRead (s : State) (k n : Nat) : Bytes := memBytes s.mem k n

/-- What an address is (R45, R388, R390). Offsets are within the target. -/
inductive Target where
  | sram (n off : Nat)
  | intc (n off : Nat)
  | block (n off : Nat)
  | ctl (n off : Nat)
  | dev (off : Nat)
  | ddr (off : Nat)
  /-- local memory of master 0x50 or 0x51 (log 5) -/
  | localMem (m addr : Nat)
  /-- the Plinth core's flash array, flash controller registers and boot record (R517, R551) -/
  | flash (off : Nat)
  | flashReg (off : Nat)
  | bootRec (off : Nat)
  | hole
deriving DecidableEq, Repr

/-- Usable bytes of protected DDR (Table 12-4); 0 while the devices are not measured. -/
def ddrUsable (s : State) : Nat :=
  8 * 1048576 * (if s.ddr.cap = 8 then 7120 else if s.ddr.cap = 16 then 14256 else if s.ddr.cap = 32 then 28512 else 0)

/-- Spare 256 KiB units of each controller (Table 12-4). -/
def ddrSpares (s : State) : Nat :=
  if s.ddr.cap = 8 then 222 else if s.ddr.cap = 16 then 445 else if s.ddr.cap = 32 then 891 else 0

/-- Ranges of the device control and status space (Table 12-3). -/
def devListed (o : Nat) : Bool :=
  o ≤ 0x2FFFF || (0x100000 ≤ o && o ≤ 0x17FFFF) || (0x180000 ≤ o && o ≤ 0x18FFFF) ||
  (0x1000000 ≤ o && o ≤ 0x1FFFFFF) || (0x10000000 ≤ o && o ≤ 0x107FFFFF) ||
  (0x20000000 ≤ o && o ≤ 0x20000007)

/-- Resolve a physical address for a master (R45, R388). -/
def resolve (s : State) (master a : Nat) : Target :=
  if a < 0x400000 then (if master < 72 then .sram (master / 8) a else .hole)
  else if a < 0x100000000 then
    if master = 0x51 ∧ 0x40000000 ≤ a ∧ a < 0x42000000 then .flash (a - 0x40000000)
    else if master = 0x51 ∧ 0x50000000 ≤ a ∧ a < 0x50000200 then .flashReg (a - 0x50000000)
    else if master = 0x51 ∧ 0x30000000 ≤ a ∧ a < 0x30000040 then .bootRec (a - 0x30000000)
    else if master = 0x50 ∨ master = 0x51 then .localMem master a
    else .hole
  else if a < 0x109000000 then
    let n := (a - 0x100000000) / 0x1000000
    let o := (a - 0x100000000) % 0x1000000
    if o < 0x400000 then .sram n o
    else if 0x800000 ≤ o ∧ o ≤ 0x800FFF then .intc n (o - 0x800000)
    else if 0x810000 ≤ o ∧ o ≤ 0x8107FF then .block n (o - 0x810000)
    else if 0x820000 ≤ o ∧ o ≤ 0x82FFFF then .ctl n (o - 0x820000)
    else .hole
  else if 0x200000000 ≤ a ∧ a < 0x300000000 then
    (if devListed (a - 0x200000000) then .dev (a - 0x200000000) else .hole)
  else if 0x1000000000 ≤ a ∧ a < 0x1000000000 + ddrUsable s then .ddr (a - 0x1000000000)
  else .hole

/-- The address under which the access table checks an access (R388: the alias is checked as the window). -/
def checkAddr (master a : Nat) : Nat :=
  if a < 0x400000 ∧ master < 72 then 0x100000000 + master / 8 * 0x1000000 + a else a

/-- Key of a target's byte in `State.mem`. -/
def memKey : Target → Nat
  | .sram n o => 0x100000000 + n * 0x1000000 + o
  | .ctl n o => 0x100820000 + n * 0x1000000 + o
  | .ddr o => 0x1000000000 + o
  | .localMem m a => (m - 0x4F) * 2 ^ 48 + a
  | .intc n o => 0x100800000 + n * 0x1000000 + o
  | .block n o => 0x100810000 + n * 0x1000000 + o
  | .dev o => 0x200000000 + o
  | .flash _ | .flashReg _ | .bootRec _ | .hole => 0

/-- Is the target the core's own SRAM, window or local memory, so that stores to it are unbuffered (R330)? -/
def ownTarget (c : Nat) : Target → Bool
  | .sram n _ => c < 72 && n == c / 8
  | .intc n _ => c < 72 && n == c / 8
  | .block n _ => c < 72 && n == c / 8
  | .ctl n _ => c < 72 && n == c / 8
  | .localMem m _ => m == c
  | .flash _ | .flashReg _ | .bootRec _ => c == 0x51
  | _ => false

/-- Access kinds (Table 12-6). -/
inductive AccKind where
  | read | write | fetch | keyFetch | debugRead | debugWrite | atomic
deriving DecidableEq, Repr

/-- KIND of a violation record (Table 12-11). -/
def AccKind.code : AccKind → Nat
  | .read => 0 | .write => 1 | .fetch => 2 | .keyFetch => 3 | .debugRead => 4 | .debugWrite => 4 | .atomic => 1

/-- Do a right set's bits (R, W, X, K from bit 0) allow the kind? -/
def AccKind.allowed (k : AccKind) (rights : Nat) : Bool :=
  match k with
  | .read | .debugRead => bit rights 0
  | .write | .debugWrite => bit rights 1
  | .fetch => bit rights 2
  | .keyFetch => bit rights 3
  | .atomic => bit rights 0 && bit rights 1

def AccKind.isDebug : AccKind → Bool
  | .debugRead | .debugWrite => true
  | _ => false

-- Fields of a rule (Table 12-7).
def ruleStart (r : BitVec 128) : Nat := bits r.toNat 47 0
def ruleEnd (r : BitVec 128) : Nat := bits r.toNat 95 48
def ruleProfile (r : BitVec 128) : Nat := bits r.toNat 101 96
def ruleValid (r : BitVec 128) : Bool := bit r.toNat 104
def ruleSealed (r : BitVec 128) : Bool := bit r.toNat 105
/-- Reserved content of a rule: PROFILE bits 7:6, RFLAGS bits 7:2 and the last two bytes. -/
def ruleReserved (r : BitVec 128) : Nat := bits r.toNat 103 102 + bits r.toNat 111 106 + bits r.toNat 127 112

/-- Why an access is refused (R404). -/
structure Viol where
  rule : Nat
  noMatch : Bool := false
  straddle : Bool := false
  sealed : Bool := false
deriving DecidableEq, Repr

/-- The valid rule that contains a granule. -/
def ruleOf (t : AclTable) (g : Nat) : Option (Nat × BitVec 128) :=
  t.rules.find? (fun e => ruleValid e.2 && ruleStart e.2 ≤ g && g ≤ ruleEnd e.2)

/-- Rights of a master under a rule. -/
def rightsOf (t : AclTable) (r : BitVec 128) (master : Nat) : Nat :=
  bits (tget 0 t.profiles (ruleProfile r)).toNat (4 * master + 3) (4 * master)

/-- Addresses of the granules that an access touches (Table 12-8). -/
def granules (t : AclTable) (a size : Nat) : List Nat :=
  if t.extended then [a / 64 * 64]
  else (List.range ((a + size - 1) / 16 - a / 16 + 1)).map (fun i => (a / 16 + i) * 16)

/-- Refusal of one granule, if it is refused. -/
def granuleRefused (t : AclTable) (master : Nat) (k : AccKind) (g : Nat) : Option Viol :=
  match ruleOf t g with
  | none => some { rule := 0xFFF, noMatch := true }
  | some (i, r) =>
    if k.isDebug && ruleSealed r then some { rule := i, sealed := true }
    else if k.allowed (rightsOf t r master) then none
    else some { rule := i }

/-- Verdict of the live table on an access (R394, R396): none is granted. -/
def aclVerdict (t : AclTable) (master : Nat) (k : AccKind) (a size : Nat) : Option Viol :=
  let gs := granules t a size
  let rs := gs.map (fun g => (ruleOf t g).map (·.1))
  let straddle := !t.extended && rs.any (fun r => r != rs.headD none)
  match gs.findSome? (granuleRefused t master k) with
  | none => none
  | some v => some { v with straddle := straddle }

/-- Check of an access at a resolved target: none is granted (R45, R390, R394, R398). -/
def accessVerdict (s : State) (master : Nat) (k : AccKind) (a size : Nat) : Option Viol :=
  match resolve s master a with
  | .hole => some { rule := 0xFFF, noMatch := true }
  | .localMem _ _ | .flash _ | .flashReg _ | .bootRec _ => none
  | .dev o =>
    if o ≤ 0x2FFFF then
      if (master = 0x50 ∧ (k = .read ∨ k = .write)) ∨ (master = 0x51 ∧ k = .read) then none
      else some { rule := 0xFFF, noMatch := true }
    else if s.acl.committed then aclVerdict s.acl.live master k (checkAddr master a) size
    else if (master = 0x50 ∨ master = 0x51) ∧ (k = .read ∨ k = .write) then none
    else some { rule := 0xFFF, noMatch := true }
  | .ddr _ =>
    if s.acl.committed then aclVerdict s.acl.live master k (checkAddr master a) size
    else if (master = 0x50 ∨ master = 0x51) ∧ (k = .read ∨ k = .write) then none
    else some { rule := 0xFFF, noMatch := true }
  | _ =>
    if s.acl.committed then aclVerdict s.acl.live master k (checkAddr master a) size
    else some { rule := 0xFFF, noMatch := true }

/-- The violation record of Table 12-11. -/
def violRecord (s : State) (master : Nat) (k : AccKind) (a : Nat) (v : Viol) : BitVec 128 :=
  BitVec.ofNat 128 (s.time % 2 ^ 32 * 2 ^ 96 + b2n v.sealed * 2 ^ 91 + b2n v.noMatch * 2 ^ 90 +
    b2n v.straddle * 2 ^ 89 + v.rule % 4096 * 2 ^ 76 + master % 256 * 2 ^ 64 + k.code * 2 ^ 48 + a % 2 ^ 48)

/-- A refused access: record, ACL_VCOUNT, ACL_VLOST and the entries (R404). -/
def logViolation (master : Nat) (k : AccKind) (a : Nat) (v : Viol) (s : State) : State :=
  let s := bump 0x9066 1 0 { s with acl := { s.acl with vcount := sat32 (s.acl.vcount + 1) } }
  if s.acl.log.length < 64 then
    { s with acl := { s.acl with log := s.acl.log ++ [violRecord s master k a v] } }
  else bump 0x9066 2 0 { s with acl := { s.acl with vlost := sat32 (s.acl.vlost + 1) } }

-- The memory protection engine.

/-- The poison list entry that covers a DDR offset (R412). -/
def poisonAt (s : State) (off : Nat) : Option Poison :=
  s.mpe.poison.find? (fun p => p.start ≤ off && off < p.start + p.size)

/-- Error class of a read of memory at a target: poison, or uncorrectable ECC (Table 12-15, R416). -/
def readError (s : State) (t : Target) (size : Nat) : Option Nat :=
  match t with
  | .ddr o =>
    match poisonAt s o with
    | some p => some p.cls
    | none => if tget 0 s.ecc (0x1000000000 + o / 64 * 64) = 0 then none else some 4
  | .sram _ _ | .localMem _ _ =>
    if s.ecc.any (fun e => e.2 != 0 && decide (e.1 < memKey t + size ∧ memKey t < e.1 + 8)) then some 4 else none
  | _ => none

/-- Add a unit to the poison list of 4,096; a full list takes response L2 (R412). -/
def addPoison (p : Poison) (s : State) : State :=
  if s.mpe.poison.any (fun q => q.start = p.start && q.size = p.size) then s
  else if s.mpe.poison.length < 4096 then { s with mpe := { s.mpe with poison := s.mpe.poison ++ [p] } }
  else raiseOther 2 s

/-- The version of a data line advances at a write; a minor that would pass 63 increments MAJOR and
starts the re-encryption of its group (R411). -/
def mpeWriteLine (line : Nat) (s : State) : State :=
  let g := line / 64
  let m := tget 0 s.mpe.minor line
  if m < 63 then { s with mpe := { s.mpe with minor := tset 0 s.mpe.minor line (m + 1) } }
  else if tget 0 s.mpe.major g = 2 ^ 64 - 1 then addPoison { start := g * 4096, size := 4096, cls := 2 } s
  else
    { s with mpe := { s.mpe with
      major := tset 0 s.mpe.major g (tget 0 s.mpe.major g + 1),
      minor := s.mpe.minor.map (fun e => if e.1 / 64 = g then (e.1, 1) else e),
      reencrypting := if s.mpe.reencrypting.contains g then s.mpe.reencrypting else s.mpe.reencrypting ++ [g] } }

/-- Write `b` at a memory target that has no error: the bytes, the line's version, and the ECC of each
word or line written whole. -/
def putTarget (t : Target) (b : Bytes) (s : State) : State :=
  let s := s.memWrite (memKey t) b
  match t with
  | .ddr o => mpeWriteLine (o / 64) s
  | _ => { s with ecc := s.ecc.filter (fun e => !(memKey t ≤ e.1 && e.1 + 8 ≤ memKey t + b.length)) }

/-- A whole-line write of 64 bytes to a poisoned data line whose ancestors verify clears its poison
(R413); a poisoned counter-line unit stays. -/
def putLine (o : Nat) (b : Bytes) (s : State) : State :=
  let s := { s with mpe := { s.mpe with poison := s.mpe.poison.filter (fun p => !(p.start == o && p.size == 64)) },
                    ecc := tset 0 s.ecc (0x1000000000 + o) 0 }
  putTarget (.ddr o) b s

end Sys2Proof.Machine
end

