-- ==== Sys2Proof/Machine/AclOps.lean ====
section
/-! DEFINITION. Writing, checking and committing the central access table (R398 to R403). -/

namespace Sys2Proof.Machine

/-- The grain of a table's mode, in bytes (Table 12-8). -/
def aclGrain (t : AclTable) : Nat := if t.extended then 64 else 16

/-- RESULT 0x0004: reserved content, the lowest rule concerned. -/
def chkReserved (t : AclTable) : Option (Nat × Nat) :=
  match t.rules.find? (fun e => ruleReserved e.2 != 0) with
  | some e => some (e.1, 0)
  | none => if t.ctrlReserved = 0 then none else some (0xFFF, 0)

/-- RESULT 0x0007: a valid rule above index 255 in compact mode. -/
def chkIndex (t : AclTable) : Option (Nat × Nat) :=
  (t.rules.find? (fun e => ruleValid e.2 && !t.extended && decide (255 < e.1))).map (fun e => (e.1, 0))

/-- RESULT 0x0003: END below START. -/
def chkOrder (t : AclTable) : Option (Nat × Nat) :=
  (t.rules.find? (fun e => ruleValid e.2 && decide (ruleEnd e.2 < ruleStart e.2))).map (fun e => (e.1, 0))

/-- RESULT 0x0002: the grain of START or END. -/
def chkGrain (t : AclTable) : Option (Nat × Nat) :=
  (t.rules.find? (fun e => ruleValid e.2 &&
    (ruleStart e.2 % aclGrain t != 0 || ruleEnd e.2 % aclGrain t != aclGrain t - 1))).map (fun e => (e.1, 0))

/-- Do two rules' regions share a byte? -/
def rulesMeet (a b : BitVec 128) : Bool :=
  ruleValid a && ruleValid b && decide (ruleStart a ≤ ruleEnd b) && decide (ruleStart b ≤ ruleEnd a)

/-- RESULT 0x0001: overlapping regions; RULE_A the lowest rule that overlaps another, RULE_B the lowest
index that overlaps it. -/
def chkOverlap (t : AclTable) : Option (Nat × Nat) :=
  t.rules.findSome? (fun e =>
    (t.rules.find? (fun f => f.1 != e.1 && rulesMeet e.2 f.2)).map (fun f => (e.1, f.1)))

/-- Is [a, b] covered by the intervals of a list sorted by start? -/
def covered : List (Nat × Nat) → Nat → Nat → Bool
  | [], _, _ => false
  | (x, y) :: l, a, b =>
    if y < a then covered l a b
    else if a < x then false
    else if b ≤ y then true
    else covered l (y + 1) b

/-- Insert an interval by its start. -/
def insertIv (i : Nat × Nat) : List (Nat × Nat) → List (Nat × Nat)
  | [] => [i]
  | j :: l => if i.1 ≤ j.1 then i :: j :: l else j :: insertIv i l

/-- The sealed intervals of a table, by start. -/
def sealedOf (t : AclTable) : List (Nat × Nat) :=
  t.rules.foldl (fun l e =>
    if ruleValid e.2 && ruleSealed e.2 then insertIv (ruleStart e.2, ruleEnd e.2) l else l) []

/-- RESULT 0x0005: the sealed union would shrink (R403). -/
def chkSealed (s : State) : Option (Nat × Nat) :=
  if s.acl.sealedUnion.all (fun i => covered (sealedOf s.acl.shadow) i.1 i.2) then none else some (0xFFF, 0)

/-- The result of a check of the shadow (R400): RESULT, RULE_A, RULE_B. -/
def aclCheckResult (s : State) : Nat × Nat × Nat :=
  let t := s.acl.shadow
  match chkReserved t with
  | some p => (4, p)
  | none =>
  match chkIndex t with
  | some p => (7, p)
  | none =>
  match chkOrder t with
  | some p => (3, p)
  | none =>
  match chkGrain t with
  | some p => (2, p)
  | none =>
  match chkOverlap t with
  | some p => (1, p)
  | none =>
  match chkSealed s with
  | some p => (5, p)
  | none => (0, 0xFFF, 0)

/-- A write to ACL_CHECK starts a check of the shadow (R399). -/
def aclStartCheck (s : State) : State := { s with acl := { s.acl with busy := true, checked := false } }

/-- The check ends (R400). Nothing happens when none is in progress. -/
def aclEndCheck (s : State) : State :=
  if s.acl.busy then
    let (r, a, b) := aclCheckResult s
    { s with acl := { s.acl with busy := false, checked := decide (r = 0), result := r, ruleA := a, ruleB := b } }
  else s

/-- A write to ACL_COMMIT (R401, R403). -/
def aclDoCommit (s : State) : State :=
  if !s.acl.checked || s.acl.busy then
    { s with acl := { s.acl with result := 6, ruleA := 0xFFF, ruleB := 0 } }
  else
    { s with acl := { s.acl with
        live := s.acl.shadow, committed := true, epoch := Nat.min (2 ^ 32 - 1) (s.acl.epoch + 1), result := 0,
        ruleA := 0xFFF, ruleB := 0,
        sealedUnion := (sealedOf s.acl.shadow).foldl (fun l i => insertIv i l) s.acl.sealedUnion } }

/-- Any shadow write clears CHECKED and ends a check in progress with 0x0008 (R400). -/
def aclTouched (s : State) : State :=
  { s with acl := { s.acl with
      checked := false, busy := false,
      result := if s.acl.busy then 8 else s.acl.result,
      ruleA := if s.acl.busy then 0xFFF else s.acl.ruleA,
      ruleB := if s.acl.busy then 0 else s.acl.ruleB } }

/-- Replace bytes `off` to `off + size - 1` of a value of the table. -/
def patch (w old off size v : Nat) : BitVec w :=
  BitVec.ofNat w (old - bits old (8 * (off + size) - 1) (8 * off) * 2 ^ (8 * off) + v % 2 ^ (8 * size) * 2 ^ (8 * off))

/-- A write by the supervisor to the shadow: ACL_CTRL, the profiles or the rules (Table 12-9). Other
offsets have no shadow byte. -/
def aclShadowPut (off size v : Nat) (s : State) : State :=
  let t := s.acl.shadow
  if off = 0 then
    { aclTouched s with acl := { (aclTouched s).acl with
        shadow := { t with extended := v % 2 = 1, ctrlReserved := bits v 31 9 + bits v 7 1 } } }
  else if 0x1000 ≤ off ∧ off < 0x2000 then
    let p := (off - 0x1000) / 64
    { aclTouched s with acl := { (aclTouched s).acl with
        shadow := { t with profiles := tset 0 t.profiles p (patch 512 (tget 0 t.profiles p).toNat (off % 64) size v) } } }
  else if 0x10000 ≤ off ∧ off < 0x20000 then
    let i := (off - 0x10000) / 16
    { aclTouched s with acl := { (aclTouched s).acl with
        shadow := { t with rules := tset 0 t.rules i (patch 128 (tget 0 t.rules i).toNat (off % 16) size v) } } }
  else s

/-- ACL_CSTAT (Table 12-10). -/
def aclCstat (s : State) : Nat :=
  b2n s.acl.busy * 2 ^ 63 + b2n s.acl.checked * 2 ^ 62 + s.acl.ruleB % 4096 * 2 ^ 36 + s.acl.ruleA % 4096 * 2 ^ 24 +
  s.acl.result % 65536

/-- A write to ACL_VPOP removes the oldest violation record. -/
def aclPopViolation (s : State) : State := { s with acl := { s.acl with log := s.acl.log.tail } }

/-- A copy's bytes: profiles and rules. -/
def aclProfileByte (t : AclTable) (o size : Nat) : Nat :=
  bits (tget 0 t.profiles (o / 64)).toNat (8 * (o % 64 + size) - 1) (8 * (o % 64))
def aclRuleByte (t : AclTable) (o size : Nat) : Nat :=
  bits (tget 0 t.rules (o / 16)).toNat (8 * (o % 16 + size) - 1) (8 * (o % 16))

/-- Reads of the access-table block. `none`: a target error, the width not the register's own (R390). -/
def aclRead (o size : Nat) (s : State) : Option Nat :=
  if o = 0 ∧ size = 4 then
    some (b2n s.acl.shadow.extended + b2n s.acl.live.extended * 256 )
  else if o = 8 ∧ size = 4 then some 0
  else if o = 0xC ∧ size = 4 then some 0
  else if o = 0x10 ∧ size = 8 then some (aclCstat s)
  else if o = 0x18 ∧ size = 4 then some s.acl.epoch
  else if o = 0x20 ∧ size = 4 then some s.acl.vcount
  else if o = 0x24 ∧ size = 4 then some s.acl.vlost
  else if o = 0x28 ∧ size = 4 then some 0
  else if o = 0x40 ∧ size = 16 then some (s.acl.log.headD 0).toNat
  else if 0x1000 ≤ o ∧ o < 0x2000 then some (aclProfileByte s.acl.shadow (o - 0x1000) size)
  else if 0x2000 ≤ o ∧ o < 0x3000 then some (aclProfileByte s.acl.live (o - 0x2000) size)
  else if 0x10000 ≤ o ∧ o < 0x20000 then some (aclRuleByte s.acl.shadow (o - 0x10000) size)
  else if 0x20000 ≤ o ∧ o < 0x30000 then some (aclRuleByte s.acl.live (o - 0x20000) size)
  else none

/-- Writes of the access-table block by master 0x50. -/
def aclWrite (o size v : Nat) (s : State) : Option State :=
  if o = 0 ∧ size = 4 then some (aclShadowPut 0 4 v s)
  else if o = 8 ∧ size = 4 then some (aclStartCheck s)
  else if o = 0xC ∧ size = 4 then some (aclDoCommit s)
  else if o = 0x28 ∧ size = 4 then some (aclPopViolation s)
  else if (o = 0x10 ∨ o = 0x18 ∨ o = 0x20 ∨ o = 0x24 ∨ o = 0x40) then none
  else if (0x1000 ≤ o ∧ o < 0x2000) ∨ (0x10000 ≤ o ∧ o < 0x20000) then some (aclShadowPut o size v s)
  else none

end Sys2Proof.Machine
end

