-- ==== Sys2Proof/Machine/CardEnd.lean ====
section
/-! DEFINITION. The outcome of a set on the SD card (17, R565) and the end of a ceremony (R580), which an alarm
response may bring about. -/

namespace Sys2Proof.Machine

def State.modSd (s : State) (f : Sd → Sd) : State := { s with cards := { s.cards with sd := f s.cards.sd } }
def State.modCer (s : State) (f : Ceremony → Ceremony) : State := { s with cards := { s.cards with cer := f s.cards.cer } }
def State.modOfficers (s : State) (f : OfficerSlot → OfficerSlot) : State :=
  { s with cards := { s.cards with slot0 := f s.cards.slot0, slot1 := f s.cards.slot1 } }

/-- Record a set's outcome at OD 0x8102.05, with its entry (Table 17-13), and count one that is not 0 (R565). -/
def setOutcome (no stype outcome blocks : Nat) (s : State) : State :=
  let s := s.modSd (fun d => { d with
    outcome := leBytes 4 no ++ leBytes 1 stype ++ leBytes 1 outcome ++ leBytes 4 blocks ++ zeros 6, job := none, written := 0 })
  if outcome = 0 then logEntry 0x0B00 3 (leBytes 4 no ++ leBytes 1 stype ++ leBytes 4 blocks) s
  else bump 0x9072 2 0 (logEntry 0x0B00 4 (leBytes 4 no ++ leBytes 1 stype ++ leBytes 1 outcome) s)

/-- STYPE of a set (Table 17-4). -/
def SetBody.stype : SetBody → Nat
  | .backup _ => 1 | .exported _ _ => 2 | .recovery _ _ => 3 | .ack _ => 4

/-- The set in progress ends without its commit block. -/
def abandonSet (outcome : Nat) (s : State) : State :=
  match s.cards.sd.job with
  | some j => setOutcome j.no j.body.stype outcome s.cards.sd.written s
  | none => s

/-- L3 or L4 during a key-store backup set (Table 17-5): the card is ready again. -/
def stopBackup (s : State) : State :=
  match s.cards.sd.job with
  | some j => if j.body.stype = 1 then abandonSet 5 (s.modSd (fun d => { d with state := .ready, lastXfer := s.time })) else s
  | none => s

/-- Is a ceremony open? -/
def cerOpen (s : State) : Bool :=
  match s.cards.cer.state with
  | .collecting | .applying | .writingCards => true
  | _ => false

/-- What a ceremony held is cleared at its end, however it ends (R578). -/
def cerClear (s : State) : State :=
  (s.modCer (fun c => { c with secret := [], shares := [], given := [], confirmed := [], imaging := false })).modOfficers (fun o =>
    { o with state := if o.state = .inCeremony then .ready else o.state, step := if 3 ≤ o.step then 0 else o.step, authed := false,
             keys := [], eph := [], sent := [], share := [] })

/-- A ceremony ends without effect (R580), with the result of Table 17-12. -/
def endCer (result : Nat) (s : State) : State :=
  if !cerOpen s then s
  else
    let c := s.cards.cer
    cerClear (logEntry 0x0D00 3 (leBytes 8 c.cnum ++ leBytes 1 c.ctype ++ leBytes 1 result)
      (s.modCer (fun c => { c with state := .ended, result := result })))

/-- A ceremony is done: result 1, and its entry with the MKID or slot. -/
def doneCer (what : Bytes) (s : State) : State :=
  let c := s.cards.cer
  cerClear (logEntry 0x0D00 2 (leBytes 8 c.cnum ++ leBytes 1 c.ctype ++ padTo 8 what)
    (s.modCer (fun c => { c with state := .done, result := 1 })))

/-- A raise at L3 or above ends a ceremony, but for ZEROIZE (R580). -/
def alarmEndsCer (reports : List WinReport) (s : State) : State :=
  if reports.any (fun r => 3 ≤ r.level) && s.cards.cer.ctype != 4 then endCer 7 s else s

end Sys2Proof.Machine
end

