-- ==== Sys2Proof/Machine/Cipher.lean ====
section
/-! DEFINITION. The block ciphers of the cipher cells (Table 06-1) and the modes that the standards named in
Tables 03-10a, 06-5 and R214 build from them: AES (FIPS 197), TDES (NIST SP 800-67), CMAC, GCM, FF1, AES key
wrap, ANSI X9.143 key blocks of version "D" and ANSI X9.24-3 AES DUKPT. The spec names these standards and does
not restate them: what stands here is PRESUMED from the standards (log 16). The entry points are irreducible, so
that no proof unfolds a cipher unless it asks to; the kernel evaluates them. -/

namespace Sys2Proof.Machine

-- Algorithms (Table 08-4). 0x108 stands for a single-DES step on one half of a TDES key (R201).

def isTdes (a : Nat) : Bool := a = 0x110 || a = 0x118
def isAes (a : Nat) : Bool := a = 0x210 || a = 0x218 || a = 0x220

/-- Bytes of material of a symmetric ALG: the low byte counts them. -/
def algBytes (a : Nat) : Nat := a % 256

/-- Block size of a cipher ALG, bytes. -/
def blockLen (alg : Nat) : Nat := if isAes alg then 16 else 8

/-- Cut a string into pieces of `n` bytes, the last one as long as remains. `fuel` bounds the pieces. -/
def chunks (n : Nat) : Nat → Bytes → List Bytes
  | 0, _ => []
  | fuel + 1, b => if b.isEmpty || n = 0 then [] else b.take n :: chunks n fuel (b.drop n)

def blocksOf (n : Nat) (b : Bytes) : List Bytes := chunks n (b.length + 1) b

def natsOf (b : Bytes) : List Nat := b.map (fun x => x.toNat)
def bytesOf (l : List Nat) : Bytes := l.map (fun x => BitVec.ofNat 8 x)
def xorNats (a b : List Nat) : List Nat := List.zipWith (fun x y => x ^^^ y) a b

-- AES (FIPS 197). A state is its 16 bytes in column order.

/-- The S-box and its inverse, entry 0 in the most significant byte. -/
def aesSbox : Nat := 0x637C777BF26B6FC53001672BFED7AB76CA82C97DFA5947F0ADD4A2AF9CA472C0B7FD9326363FF7CC34A5E5F171D8311504C723C31896059A071280E2EB27B27509832C1A1B6E5AA0523BD6B329E32F8453D100ED20FCB15B6ACBBE394A4C58CFD0EFAAFB434D338545F9027F503C9FA851A3408F929D38F5BCB6DA2110FFF3D2CD0C13EC5F974417C4A77E3D645D197360814FDC222A908846EEB814DE5E0BDBE0323A0A4906245CC2D3AC629195E479E7C8376D8DD54EA96C56F4EA657AAE08BA78252E1CA6B4C6E8DD741F4BBD8B8A703EB5664803F60E613557B986C11D9EE1F8981169D98E949B1E87E9CE5528DF8CA1890DBFE6426841992D0FB054BB16
def aesInvSbox : Nat := 0x52096AD53036A538BF40A39E81F3D7FB7CE339829B2FFF87348E4344C4DEE9CB547B9432A6C2233DEE4C950B42FAC34E082EA16628D924B2765BA2496D8BD12572F8F66486689816D4A45CCC5D65B6926C704850FDEDB9DA5E154657A78D9D8490D8AB008CBCD30AF7E45805B8B34506D02C1E8FCA3F0F02C1AFBD0301138A6B3A9111414F67DCEA97F2CFCEF0B4E67396AC7422E7AD3585E2F937E81C75DF6E47F11A711D29C5896FB7620EAA18BE1BFC563E4BC6D279209ADBC0FE78CD5AF41FDDA8338807C731B11210592780EC5F60517FA919B54A0D2DE57A9F93C99CEFA0E03B4DAE2AF5B0C8EBBB3C83539961172B047EBA77D626E169146355210C7D

def aesSub (box : Nat) (st : List Nat) : List Nat := st.map (fun x => box >>> (8 * (255 - x)) % 256)

/-- The bytes of a state in the order given: ShiftRows and its inverse. -/
def pickNats (order st : List Nat) : List Nat := order.map (fun i => st.getD i 0)
def aesShift : List Nat → List Nat := pickNats [0, 5, 10, 15, 4, 9, 14, 3, 8, 13, 2, 7, 12, 1, 6, 11]
def aesUnshift : List Nat → List Nat := pickNats [0, 13, 10, 7, 4, 1, 14, 11, 8, 5, 2, 15, 12, 9, 6, 3]

/-- Multiplication by x in the field of AES. -/
def xtime (x : Nat) : Nat := if x < 128 then 2 * x else (2 * x) ^^^ 0x11B

def aesMix : List Nat → List Nat
  | a :: b :: c :: d :: t =>
    let e := a ^^^ b ^^^ c ^^^ d
    (a ^^^ e ^^^ xtime (a ^^^ b)) :: (b ^^^ e ^^^ xtime (b ^^^ c)) :: (c ^^^ e ^^^ xtime (c ^^^ d)) ::
      (d ^^^ e ^^^ xtime (d ^^^ a)) :: aesMix t
  | _ => []

/-- What brings MixColumns to its inverse: multiplication by the polynomial 4x^2 + 5. -/
def aesPreMix : List Nat → List Nat
  | a :: b :: c :: d :: t =>
    let u := xtime (xtime (a ^^^ c))
    let v := xtime (xtime (b ^^^ d))
    (a ^^^ u) :: (b ^^^ v) :: (c ^^^ u) :: (d ^^^ v) :: aesPreMix t
  | _ => []

def aesUnmix (st : List Nat) : List Nat := aesMix (aesPreMix st)

/-- The words of the key schedule, the newest first: `n` more of them from word `i` on. -/
def aesSchedule (nk : Nat) : Nat → Nat → Nat → List (List Nat) → List (List Nat)
  | 0, _, _, ws => ws
  | n + 1, i, rcon, ws =>
    let t := ws.headD []
    let u := if i % nk = 0 then
        (match aesSub aesSbox (t.drop 1 ++ t.take 1) with | a :: r => (a ^^^ rcon) :: r | [] => [])
      else if 6 < nk && i % nk = 4 then aesSub aesSbox t else t
    aesSchedule nk n (i + 1) (if i % nk = 0 then xtime rcon else rcon) (xorNats u (ws.getD (nk - 1) []) :: ws)

/-- Pieces of 16 of a flat schedule. -/
def roundKeysOf : Nat → List Nat → List (List Nat)
  | 0, _ => []
  | n + 1, l => l.take 16 :: roundKeysOf n (l.drop 16)

/-- The round keys of a key of 16, 24 or 32 bytes. -/
def aesRoundKeys (key : Bytes) : List (List Nat) :=
  let nk := key.length / 4
  let start := (blocksOf 4 key).map natsOf
  let words := (aesSchedule nk (4 * (nk + 7) - nk) nk 1 start.reverse).reverse
  roundKeysOf (nk + 7) words.flatten

def aesRounds : List (List Nat) → List Nat → List Nat
  | [], st => st
  | [k], st => xorNats (aesShift (aesSub aesSbox st)) k
  | k :: ks, st => aesRounds ks (xorNats (aesMix (aesShift (aesSub aesSbox st))) k)

def aesUnrounds : List (List Nat) → List Nat → List Nat
  | [], st => st
  | [k], st => xorNats (aesSub aesInvSbox (aesUnshift st)) k
  | k :: ks, st => aesUnrounds ks (aesUnmix (xorNats (aesSub aesInvSbox (aesUnshift st)) k))

def aesE (key block : Bytes) : Bytes :=
  match aesRoundKeys key with
  | k :: ks => bytesOf (aesRounds ks (xorNats (natsOf block) k))
  | [] => []

def aesD (key block : Bytes) : Bytes :=
  match (aesRoundKeys key).reverse with
  | k :: ks => bytesOf (aesUnrounds ks (xorNats (natsOf block) k))
  | [] => []

-- DES (FIPS 46-3) and TDES. Bits of a value are numbered from 1 at the most significant end.

/-- The bits of an `n`-bit value that a table names, the first named most significant. -/
def desPick (n : Nat) (table : List Nat) (v : Nat) : Nat := table.foldl (fun a p => 2 * a + v >>> (n - p) % 2) 0

def desIp : List Nat :=
  [58, 50, 42, 34, 26, 18, 10, 2, 60, 52, 44, 36, 28, 20, 12, 4, 62, 54, 46, 38, 30, 22, 14, 6, 64, 56, 48, 40, 32, 24, 16, 8,
   57, 49, 41, 33, 25, 17, 9, 1, 59, 51, 43, 35, 27, 19, 11, 3, 61, 53, 45, 37, 29, 21, 13, 5, 63, 55, 47, 39, 31, 23, 15, 7]
def desFp : List Nat :=
  [40, 8, 48, 16, 56, 24, 64, 32, 39, 7, 47, 15, 55, 23, 63, 31, 38, 6, 46, 14, 54, 22, 62, 30, 37, 5, 45, 13, 53, 21, 61, 29,
   36, 4, 44, 12, 52, 20, 60, 28, 35, 3, 43, 11, 51, 19, 59, 27, 34, 2, 42, 10, 50, 18, 58, 26, 33, 1, 41, 9, 49, 17, 57, 25]
def desP : List Nat :=
  [16, 7, 20, 21, 29, 12, 28, 17, 1, 15, 23, 26, 5, 18, 31, 10, 2, 8, 24, 14, 32, 27, 3, 9, 19, 13, 30, 6, 22, 11, 4, 25]
def desPc1 : List Nat :=
  [57, 49, 41, 33, 25, 17, 9, 1, 58, 50, 42, 34, 26, 18, 10, 2, 59, 51, 43, 35, 27, 19, 11, 3, 60, 52, 44, 36,
   63, 55, 47, 39, 31, 23, 15, 7, 62, 54, 46, 38, 30, 22, 14, 6, 61, 53, 45, 37, 29, 21, 13, 5, 28, 20, 12, 4]
def desPc2 : List Nat :=
  [14, 17, 11, 24, 1, 5, 3, 28, 15, 6, 21, 10, 23, 19, 12, 4, 26, 8, 16, 7, 27, 20, 13, 2,
   41, 52, 31, 37, 47, 55, 30, 40, 51, 45, 33, 48, 44, 49, 39, 56, 34, 53, 46, 42, 50, 36, 29, 32]

/-- The S-boxes S1 to S8, four rows of sixteen entries, the first entry most significant. -/
def desBoxes : List Nat :=
  [0xE4D12FB83A6C59070F74E2D1A6CB953841E8D62BFC973A50FC8249175B3EA06D,
   0xF18E6B34972DC05A3D47F28EC01A69B50E7BA4D158C6932FD8A13F42B67C05E9,
   0xA09E63F51DC7B428D709346A285ECBF1D6498F30B12C5AE71AD069874FE3B52C,
   0x7DE3069A1285BC4FD8B56F03472C1AE9A690CB7DF13E52843F06A1D8945BC72E,
   0x2C417AB6853FD0E9EB2C47D150FA3986421BAD78F9C5630EB8C71E2D6F09A453,
   0xC1AF92680D34E75BAF427C9561DE0B389EF528C3704A1DB6432C95FABE17608D,
   0x4B2EF08D3C975A61D0B7491AE35C2F8614BDC37EAF6805926BD814A7950FE23C,
   0xD2846FB1A93E50C71FD8A374C56B0E927B419CE206ADF35821E74A8DFC90356B]

/-- The round function: six bits of the expanded half for each S-box, from the left. -/
def desF (r k : Nat) : Nat :=
  let wide := (r % 2) <<< 33 ||| r <<< 1 ||| r >>> 31
  let out := (desBoxes.foldl (fun (a : Nat × Nat) box =>
    let v := (wide >>> (28 - 4 * a.2) ^^^ k >>> (42 - 6 * a.2)) % 64
    let i := (v / 32 * 2 + v % 2) * 16 + v / 2 % 16
    (16 * a.1 + box >>> (4 * (63 - i)) % 16, a.2 + 1)) (0, 0)).1
  desPick 32 desP out

/-- A 28-bit half of the key turned left. -/
def desTurn (n c : Nat) : Nat := (c <<< n ||| c >>> (28 - n)) % 2 ^ 28

def desKeysFrom : List Nat → Nat → Nat → List Nat
  | [], _, _ => []
  | n :: t, c, d => desPick 56 desPc2 (desTurn n c <<< 28 ||| desTurn n d) :: desKeysFrom t (desTurn n c) (desTurn n d)

/-- The sixteen round keys of an 8-byte key. -/
def desKeys (key : Bytes) : List Nat :=
  let cd := desPick 64 desPc1 (beNat key)
  desKeysFrom [1, 1, 2, 2, 2, 2, 2, 2, 1, 2, 2, 2, 2, 2, 2, 1] (cd >>> 28) (cd % 2 ^ 28)

def desRounds : List Nat → Nat → Nat → Nat
  | [], l, r => r <<< 32 ||| l
  | k :: ks, l, r => desRounds ks r (l ^^^ desF r k)

def desWith (ks : List Nat) (v : Nat) : Nat :=
  let x := desPick 64 desIp v
  desPick 64 desFp (desRounds ks (x >>> 32) (x % 2 ^ 32))

def desE (key : Bytes) (v : Nat) : Nat := desWith (desKeys key) v
def desD (key : Bytes) (v : Nat) : Nat := desWith (desKeys key).reverse v

/-- TDES under a key of 16 or 24 bytes. -/
def tdesE (key : Bytes) (v : Nat) : Nat :=
  desE (if key.length ≤ 16 then key.take 8 else slice key 16 8) (desD (slice key 8 8) (desE (key.take 8) v))
def tdesD (key : Bytes) (v : Nat) : Nat :=
  desD (key.take 8) (desE (slice key 8 8) (desD (if key.length ≤ 16 then key.take 8 else slice key 16 8) v))

-- One block under an ALG.

/-- The block cipher of an ALG of Table 08-4 under a key: one block encrypted. -/
@[irreducible] def blockE (alg : Nat) (key block : Bytes) : Bytes :=
  if alg = 0x108 then beBytes 8 (desE (padTo 8 key) (beNat (padTo 8 block)))
  else if isTdes alg then beBytes 8 (tdesE (padTo (algBytes alg) key) (beNat (padTo 8 block)))
  else aesE (padTo (if isAes alg then algBytes alg else 32) key) (padTo 16 block)

/-- One block decrypted. -/
@[irreducible] def blockD (alg : Nat) (key block : Bytes) : Bytes :=
  if alg = 0x108 then beBytes 8 (desD (padTo 8 key) (beNat (padTo 8 block)))
  else if isTdes alg then beBytes 8 (tdesD (padTo (algBytes alg) key) (beNat (padTo 8 block)))
  else aesD (padTo (if isAes alg then algBytes alg else 32) key) (padTo 16 block)

/-- The AES ALG of a key by its length. -/
def aesAlg (key : Bytes) : Nat := if key.length = 16 then 0x210 else if key.length = 24 then 0x218 else 0x220

-- CMAC (NIST SP 800-38B).

/-- Doubling in the field of a block of `n` bytes. -/
def cmacDouble (n v : Nat) : Nat :=
  let w := 2 * v
  if w < 2 ^ (8 * n) then w else (w % 2 ^ (8 * n)) ^^^ (if n = 16 then 0x87 else 0x1B)

def cmacChain (alg : Nat) (key k1 k2 : Bytes) : Bytes → List Bytes → Bytes
  | h, [] => blockE alg key (xorBytes (xorBytes h (padTo (blockLen alg) [0x80])) k2)
  | h, [b] =>
    if b.length = blockLen alg then blockE alg key (xorBytes (xorBytes h b) k1)
    else blockE alg key (xorBytes (xorBytes h (padTo (blockLen alg) (b ++ [0x80]))) k2)
  | h, b :: t => cmacChain alg key k1 k2 (blockE alg key (xorBytes h b)) t

/-- CMAC under a block cipher. -/
@[irreducible] def cmac (alg : Nat) (key msg : Bytes) : Bytes :=
  let n := blockLen alg
  let k1 := cmacDouble n (beNat (blockE alg key (zeros n)))
  cmacChain alg key (beBytes n k1) (beBytes n (cmacDouble n k1)) (zeros n) (blocksOf n msg)

-- Chaining and counter modes (NIST SP 800-38A).

def cbcEnc (alg : Nat) (key : Bytes) : Bytes → List Bytes → Bytes
  | _, [] => []
  | iv, b :: t => let c := blockE alg key (xorBytes b iv); c ++ cbcEnc alg key c t

def cbcDec (alg : Nat) (key : Bytes) : Bytes → List Bytes → Bytes
  | _, [] => []
  | iv, b :: t => xorBytes (blockD alg key b) iv ++ cbcDec alg key b t

/-- The rightmost `w` bits of a block advanced by one, big-endian. -/
def ctrNext (w : Nat) (b : Bytes) : Bytes :=
  let v := beNat b
  beBytes b.length (v / 2 ^ w * 2 ^ w + (v + 1) % 2 ^ w)

def ctrMode (alg w : Nat) (key : Bytes) : Bytes → List Bytes → Bytes
  | _, [] => []
  | ic, b :: t => xorBytes b (blockE alg key ic) ++ ctrMode alg w key (ctrNext w ic) t

-- GCM (NIST SP 800-38D) with a 96-bit IV.

/-- Product of blocks in the field of GHASH: the count is of the bits of `x` that remain, from the left. -/
def ghashMul (x : Nat) : Nat → Nat → Nat → Nat
  | 0, _, z => z
  | i + 1, v, z =>
    ghashMul x i (if v % 2 = 1 then v / 2 ^^^ 0xE1000000000000000000000000000000 else v / 2)
      (if x >>> i % 2 = 1 then z ^^^ v else z)

/-- GHASH over whole blocks. -/
def ghash (h : Nat) (bs : List Bytes) : Nat := bs.foldl (fun y b => ghashMul (y ^^^ beNat b) 128 h 0) 0

def zeroFill16 (b : Bytes) : Bytes := b ++ zeros ((16 - b.length % 16) % 16)

/-- The ciphertext of an input, or the input of a ciphertext. -/
@[irreducible] def gcmCrypt (key iv input : Bytes) : Bytes :=
  ctrMode (aesAlg key) 32 key (padTo 12 iv ++ [0, 0, 0, 2]) (blocksOf 16 input)

/-- The 16-byte tag over additional data and ciphertext. -/
@[irreducible] def gcmTag (key iv aad cipher : Bytes) : Bytes :=
  let h := beNat (blockE (aesAlg key) key (zeros 16))
  let s := ghash h (blocksOf 16 (zeroFill16 aad ++ zeroFill16 cipher ++ beBytes 8 (8 * aad.length) ++ beBytes 8 (8 * cipher.length)))
  xorBytes (beBytes 16 s) (blockE (aesAlg key) key (padTo 12 iv ++ [0, 0, 0, 1]))

-- FF1 (NIST SP 800-38G Rev. 1).

/-- The value of a numeral string, most significant first. -/
def numRadix (radix : Nat) (xs : List Nat) : Nat := xs.foldl (fun a x => radix * a + x) 0

/-- `m` numerals of a value, most significant first. -/
def strRadix (radix : Nat) : Nat → Nat → List Nat
  | 0, _ => []
  | m + 1, x => strRadix radix m (x / radix) ++ [x % radix]

/-- CBC-MAC of whole blocks under AES: PRF of FF1. -/
def aesPrf (key : Bytes) (b : Bytes) : Bytes := (blocksOf 16 b).foldl (fun h x => blockE (aesAlg key) key (xorBytes h x)) (zeros 16)

/-- The value y of round `i`: `d` bytes of S for the value of a half. -/
def ff1Round (key p tweak : Bytes) (b d i half : Nat) : Nat :=
  let q := tweak ++ zeros ((16 - (tweak.length + b + 1) % 16) % 16) ++ [BitVec.ofNat 8 i] ++ beBytes b half
  let r := aesPrf key (p ++ q)
  let more := (List.range ((d + 15) / 16 - 1)).flatMap (fun j => blockE (aesAlg key) key (xorBytes r (beBytes 16 (j + 1))))
  beNat ((r ++ more).take d)

/-- The rounds of FF1 in the order given, on the values of the halves, of lengths `u` and `v`. -/
def ff1Rounds (dec : Bool) (key p tweak : Bytes) (radix u v b d : Nat) : List Nat → Nat → Nat → Nat × Nat
  | [], x, y => (x, y)
  | i :: t, x, y =>
    let m := radix ^ (if i % 2 = 0 then u else v)
    if dec then ff1Rounds dec key p tweak radix u v b d t ((y + (m - ff1Round key p tweak b d i x % m)) % m) x
    else ff1Rounds dec key p tweak radix u v b d t y ((x + ff1Round key p tweak b d i y) % m)

/-- FF1 encryption or decryption of a symbol string. -/
@[irreducible] def ff1 (decrypt : Bool) (key : Bytes) (radix : Nat) (tweak symbols : Bytes) : Bytes :=
  let n := symbols.length
  let u := n / 2
  let v := n - u
  let b := ((radix ^ v - 1).log2 + 8) / 8
  let d := 4 * ((b + 3) / 4) + 4
  let p := [1, 2, 1] ++ beBytes 3 radix ++ [10, BitVec.ofNat 8 u] ++ beBytes 4 n ++ beBytes 4 tweak.length
  let xs := natsOf symbols
  let rs := List.range 10
  let r := ff1Rounds decrypt key p tweak radix u v b d (if decrypt then rs.reverse else rs) (numRadix radix (xs.take u))
    (numRadix radix (xs.drop u))
  bytesOf (strRadix radix u r.1 ++ strRadix radix v r.2)

-- AES key wrap (RFC 3394) with the default IV.

/-- One of the six passes over the semiblocks, the step counter at `t`. -/
def kwPass (kek : Bytes) : Nat → Bytes → List Bytes → Bytes × List Bytes
  | _, a, [] => (a, [])
  | t, a, r :: rs =>
    let b := blockE (aesAlg kek) kek (a ++ r)
    let w := kwPass kek (t + 1) (xorBytes (b.take 8) (beBytes 8 t)) rs
    (w.1, b.drop 8 :: w.2)

def kwPasses (kek : Bytes) (n : Nat) : Nat → Bytes → List Bytes → Bytes × List Bytes
  | 0, a, rs => (a, rs)
  | j + 1, a, rs =>
    let w := kwPass kek (n * (5 - j) + 1) a rs
    kwPasses kek n j w.1 w.2

/-- One inverse pass over the semiblocks, the last first, the step counter at `t`. -/
def kwUnpass (kek : Bytes) : Nat → Bytes → List Bytes → Bytes × List Bytes
  | _, a, [] => (a, [])
  | t, a, r :: rs =>
    let b := blockD (aesAlg kek) kek (xorBytes a (beBytes 8 t) ++ r)
    let w := kwUnpass kek (t - 1) (b.take 8) rs
    (w.1, b.drop 8 :: w.2)

def kwUnpasses (kek : Bytes) (n : Nat) : Nat → Bytes → List Bytes → Bytes × List Bytes
  | 0, a, rs => (a, rs)
  | j + 1, a, rs =>
    let w := kwUnpass kek (n * (j + 1)) a rs
    kwUnpasses kek n j w.1 w.2

def kwIv : Bytes := List.replicate 8 0xA6

@[irreducible] def kwWrap (kek key : Bytes) : Bytes :=
  let rs := blocksOf 8 key
  let w := kwPasses kek rs.length 6 kwIv rs
  w.1 ++ w.2.flatten

/-- The key of a wrapped string; none when the check value fails. -/
@[irreducible] def kwUnwrap (kek wrapped : Bytes) : Option Bytes :=
  let rs := (blocksOf 8 (wrapped.drop 8)).reverse
  let w := kwUnpasses kek rs.length 6 (wrapped.take 8) rs
  if wrapped.length % 8 = 0 && 24 ≤ wrapped.length && w.1 = kwIv then some w.2.reverse.flatten else none

-- ANSI X9.143 key blocks of version "D" (R214).

/-- A key derived from a key-block protection key: 0 for encryption, 1 for authentication. -/
def kbDerive (kbpk : Bytes) (use : Nat) : Bytes :=
  let bits := 8 * kbpk.length
  let alg := if kbpk.length = 16 then 2 else if kbpk.length = 24 then 3 else 4
  ((List.range ((bits + 127) / 128)).flatMap (fun i =>
    cmac (aesAlg kbpk) kbpk ([BitVec.ofNat 8 (i + 1)] ++ beBytes 2 use ++ [0] ++ beBytes 2 alg ++ beBytes 2 bits))).take kbpk.length

def hexChar (n : Nat) : Byte := BitVec.ofNat 8 (if n < 10 then 0x30 + n else 0x37 + n)
def hexText (b : Bytes) : Bytes := b.flatMap (fun x => [hexChar (x.toNat / 16), hexChar (x.toNat % 16)])

/-- The value of a hexadecimal digit. -/
def hexDigit (c : Byte) : Option Nat :=
  let n := c.toNat
  if 0x30 ≤ n ∧ n ≤ 0x39 then some (n - 0x30) else if 0x41 ≤ n ∧ n ≤ 0x46 then some (n - 0x37) else none

/-- The bytes of hexadecimal text; none for any other character or an odd count. -/
def hexBytes : Bytes → Option Bytes
  | [] => some []
  | [_] => none
  | h :: l :: t =>
    match hexDigit h, hexDigit l, hexBytes t with
    | some a, some b, some r => some (BitVec.ofNat 8 (16 * a + b) :: r)
    | _, _, _ => none

/-- The value of decimal text. -/
def decText (b : Bytes) : Option Nat :=
  b.foldl (fun a c => match a, hexDigit c with | some n, some d => if d < 10 then some (10 * n + d) else none | _, _ => none) (some 0)

/-- The block of a key under a header and a protection key; the payload is filled from `pad`. -/
@[irreducible] def kbWrap (kbpk header key pad : Bytes) : Bytes :=
  let clear := beBytes 2 (8 * key.length) ++ key
  let clear := clear ++ padTo ((16 - clear.length % 16) % 16) pad
  let mac := cmac (aesAlg kbpk) (kbDerive kbpk 1) (header ++ clear)
  header ++ hexText (cbcEnc (aesAlg kbpk) (kbDerive kbpk 0) mac (blocksOf 16 clear)) ++ hexText mac

/-- Characters of `n` optional blocks at the head of a string; none where one is malformed. -/
def kbOptLen : Nat → Bytes → Option Nat
  | 0, _ => some 0
  | n + 1, b =>
    match hexBytes (slice b 2 2) with
    | some [0] =>
      match hexBytes (slice b 4 2) with
      | some [l] =>
        match hexBytes (slice b 6 l.toNat) with
        | some v =>
          if beNat v < 6 + l.toNat ∨ b.length < beNat v then none else (kbOptLen n (b.drop (beNat v))).map (fun r => beNat v + r)
        | none => none
      | _ => none
    | some [l] => if l.toNat < 4 ∨ b.length < l.toNat then none else (kbOptLen n (b.drop l.toNat)).map (fun r => l.toNat + r)
    | _ => none

/-- The key of a block; none when any check fails. -/
@[irreducible] def kbUnwrap (kbpk block : Bytes) : Option Bytes :=
  match decText (slice block 1 4), decText (slice block 12 2) with
  | some len, some opts =>
    match kbOptLen opts (block.drop 16) with
    | some o =>
      let head := block.take (16 + o)
      match hexBytes (slice block (16 + o) (block.length - 48 - o)), hexBytes (block.drop (block.length - 32)) with
      | some ct, some mac =>
        let clear := cbcDec (aesAlg kbpk) (kbDerive kbpk 0) mac (blocksOf 16 ct)
        let bits := beNat (clear.take 2)
        if leAt block 0 1 = 0x44 && len = block.length && o % 16 = 0 && 48 + o < block.length && ct.length % 16 = 0 && bits % 8 = 0 &&
            2 + bits / 8 ≤ clear.length && cmac (aesAlg kbpk) (kbDerive kbpk 1) (head ++ clear) = mac then some (slice clear 2 (bits / 8))
        else none
      | _, _ => none
    | none => none
  | _, _ => none

-- AES DUKPT (ANSI X9.24-3).

/-- Algorithm indicator of an ALG. -/
def dukptAlgCode (alg : Nat) : Nat :=
  if alg = 0x110 then 0 else if alg = 0x118 then 1 else if alg = 0x210 then 2 else if alg = 0x218 then 3 else 4

/-- A key derived from a key: usage indicator, ALG of the result, and the last 8 bytes of the derivation data. -/
def dukptDerive (key : Bytes) (usage alg : Nat) (data : Bytes) : Bytes :=
  ((List.range ((algBytes alg + 15) / 16)).flatMap (fun i =>
    blockE (aesAlg key) key ([1, BitVec.ofNat 8 (i + 1)] ++ beBytes 2 usage ++ beBytes 2 (dukptAlgCode alg) ++
      beBytes 2 (8 * algBytes alg) ++ data))).take (algBytes alg)

/-- The initial key of an initial key identifier, of the base derivation key's length. -/
@[irreducible] def dukptInitial (bdk ikid : Bytes) : Bytes := dukptDerive bdk 0x8001 (aesAlg bdk) (padTo 8 ikid)

/-- The derivation key of a transaction counter: one derivation for each set bit, from the most significant. -/
def dukptChain (id : Bytes) (counter : Nat) : Nat → Nat → Bytes → Bytes
  | 0, _, key => key
  | i + 1, work, key =>
    if counter >>> i % 2 = 1 then
      dukptChain id counter i (work + 2 ^ i) (dukptDerive key 0x8000 (aesAlg key) (id ++ beBytes 4 (work + 2 ^ i)))
    else dukptChain id counter i work key

/-- The working key of a KSN: its ALG, and its use, 0 to 2 as DUKPT_USE (R116) and 3 for PIN encryption. -/
@[irreducible] def dukpt (bdk ksn : Bytes) (wkAlg use : Nat) : Bytes :=
  let id := slice ksn 4 4
  let counter := beNat (slice ksn 8 4)
  dukptDerive (dukptChain id counter 32 0 (dukptInitial bdk (ksn.take 8)))
    (if use = 0 then 0x2000 else if use = 1 then 0x2001 else if use = 2 then 0x2002 else 0x1000) wkAlg (id ++ beBytes 4 counter)

end Sys2Proof.Machine
end

