-- ==== Sys2Proof/Machine/Hash.lean ====
section
/-! DEFINITION. The digest functions of Table 07-1: SHA-2 (FIPS 180-4), SHA-3 and SHAKE (FIPS 202), with the
padding of R237, and HMAC and HKDF over them (R247, R61). A chain is the CHAIN field of a saved state (Table 07-5).
The round functions are PRESUMED from the standards that the spec names (log 16). -/

namespace Sys2Proof.Machine

-- SHA-2 (FIPS 180-4). Words of `w` bits.

def turnR (w n x : Nat) : Nat := x >>> n ||| (x <<< (w - n)) % 2 ^ w

/-- The constants of SHA-512; those of SHA-256 are the first 32 bits of the first 64 of them. -/
def sha2K : List Nat :=
  [0x428A2F98D728AE22, 0x7137449123EF65CD, 0xB5C0FBCFEC4D3B2F, 0xE9B5DBA58189DBBC, 0x3956C25BF348B538,
   0x59F111F1B605D019, 0x923F82A4AF194F9B, 0xAB1C5ED5DA6D8118, 0xD807AA98A3030242, 0x12835B0145706FBE,
   0x243185BE4EE4B28C, 0x550C7DC3D5FFB4E2, 0x72BE5D74F27B896F, 0x80DEB1FE3B1696B1, 0x9BDC06A725C71235,
   0xC19BF174CF692694, 0xE49B69C19EF14AD2, 0xEFBE4786384F25E3, 0x0FC19DC68B8CD5B5, 0x240CA1CC77AC9C65,
   0x2DE92C6F592B0275, 0x4A7484AA6EA6E483, 0x5CB0A9DCBD41FBD4, 0x76F988DA831153B5, 0x983E5152EE66DFAB,
   0xA831C66D2DB43210, 0xB00327C898FB213F, 0xBF597FC7BEEF0EE4, 0xC6E00BF33DA88FC2, 0xD5A79147930AA725,
   0x06CA6351E003826F, 0x142929670A0E6E70, 0x27B70A8546D22FFC, 0x2E1B21385C26C926, 0x4D2C6DFC5AC42AED,
   0x53380D139D95B3DF, 0x650A73548BAF63DE, 0x766A0ABB3C77B2A8, 0x81C2C92E47EDAEE6, 0x92722C851482353B] ++
  [0xA2BFE8A14CF10364, 0xA81A664BBC423001, 0xC24B8B70D0F89791, 0xC76C51A30654BE30, 0xD192E819D6EF5218,
   0xD69906245565A910, 0xF40E35855771202A, 0x106AA07032BBD1B8, 0x19A4C116B8D2D0C8, 0x1E376C085141AB53,
   0x2748774CDF8EEB99, 0x34B0BCB5E19B48A8, 0x391C0CB3C5C95A63, 0x4ED8AA4AE3418ACB, 0x5B9CCA4F7763E373,
   0x682E6FF3D6B2B8A3, 0x748F82EE5DEFB2FC, 0x78A5636F43172F60, 0x84C87814A1F0AB72, 0x8CC702081A6439EC,
   0x90BEFFFA23631E28, 0xA4506CEBDE82BDE9, 0xBEF9A3F7B2C67915, 0xC67178F2E372532B, 0xCA273ECEEA26619C,
   0xD186B8C721C0C207, 0xEADA7DD6CDE0EB1E, 0xF57D4F7FEE6ED178, 0x06F067AA72176FBA, 0x0A637DC5A2C898A6,
   0x113F9804BEF90DAE, 0x1B710B35131C471B, 0x28DB77F523047D84, 0x32CAAB7B40C72493, 0x3C9EBE0A15C9BEBC,
   0x431D67C49C100D4C, 0x4CC5D4BECB3E42B6, 0x597F299CFC657E2A, 0x5FCB6FAB3AD6FAEC, 0x6C44198C4A475817]

/-- Rotations and shifts of the functions Sigma0, Sigma1, sigma0 and sigma1. -/
structure Sha2 where
  w : Nat
  rounds : Nat
  s0 : Nat × Nat × Nat
  s1 : Nat × Nat × Nat
  g0 : Nat × Nat × Nat
  g1 : Nat × Nat × Nat

def sha2Of (wide : Bool) : Sha2 :=
  if wide then { w := 64, rounds := 80, s0 := (28, 34, 39), s1 := (14, 18, 41), g0 := (1, 8, 7), g1 := (19, 61, 6) }
  else { w := 32, rounds := 64, s0 := (2, 13, 22), s1 := (6, 11, 25), g0 := (7, 18, 3), g1 := (17, 19, 10) }

def sha2Sigma (w : Nat) (r : Nat × Nat × Nat) (x : Nat) : Nat := turnR w r.1 x ^^^ turnR w r.2.1 x ^^^ turnR w r.2.2 x
def sha2Small (w : Nat) (r : Nat × Nat × Nat) (x : Nat) : Nat := turnR w r.1 x ^^^ turnR w r.2.1 x ^^^ x >>> r.2.2

/-- The message schedule, the newest word first: `n` more words. -/
def sha2Schedule (p : Sha2) : Nat → List Nat → List Nat
  | 0, ws => ws
  | n + 1, ws =>
    sha2Schedule p n ((sha2Small p.w p.g1 (ws.getD 1 0) + ws.getD 6 0 + sha2Small p.w p.g0 (ws.getD 14 0) + ws.getD 15 0) % 2 ^ p.w :: ws)

def sha2Rounds (p : Sha2) : List Nat → List Nat → List Nat → List Nat
  | k :: ks, x :: xs, [a, b, c, d, e, f, g, h] =>
    let m := 2 ^ p.w
    let t1 := h + sha2Sigma p.w p.s1 e + (e &&& f ^^^ (m - 1 - e) &&& g) + (if p.w = 32 then k >>> 32 else k) + x
    let t2 := sha2Sigma p.w p.s0 a + (a &&& b ^^^ a &&& c ^^^ b &&& c)
    sha2Rounds p ks xs [(t1 + t2) % m, a, b, c, (d + t1) % m, e, f, g]
  | _, _, v => v

def sha2Step (p : Sha2) (chain block : Bytes) : Bytes :=
  let n := p.w / 8
  let hs := (blocksOf n (padTo (8 * n) chain)).map leNat
  let ws := (sha2Schedule p (p.rounds - 16) ((blocksOf n (padTo (16 * n) block)).map beNat).reverse).reverse
  (List.zipWith (fun a b => (a + b) % 2 ^ p.w) hs (sha2Rounds p sha2K ws hs)).flatMap (leBytes n)

def sha256Init : List Nat :=
  [0x6A09E667, 0xBB67AE85, 0x3C6EF372, 0xA54FF53A, 0x510E527F, 0x9B05688C, 0x1F83D9AB, 0x5BE0CD19]
def sha384Init : List Nat :=
  [0xCBBB9D5DC1059ED8, 0x629A292A367CD507, 0x9159015A3070DD17, 0x152FECD8F70E5939,
   0x67332667FFC00B31, 0x8EB44A8768581511, 0xDB0C2E0D64F98FA7, 0x47B5481DBEFA4FA4]
def sha512Init : List Nat :=
  [0x6A09E667F3BCC908, 0xBB67AE8584CAA73B, 0x3C6EF372FE94F82B, 0xA54FF53A5F1D36F1,
   0x510E527FADE682D1, 0x9B05688C2B3E6C1F, 0x1F83D9ABFB41BD6B, 0x5BE0CD19137E2179]

-- Keccak (FIPS 202): 25 lanes, lane x + 5y of the state's column x and row y.

def keccakConsts : List Nat :=
  [0x0000000000000001, 0x0000000000008082, 0x800000000000808A, 0x8000000080008000, 0x000000000000808B,
   0x0000000080000001, 0x8000000080008081, 0x8000000000008009, 0x000000000000008A, 0x0000000000000088,
   0x0000000080008009, 0x000000008000000A, 0x000000008000808B, 0x800000000000008B, 0x8000000000008089,
   0x8000000000008003, 0x8000000000008002, 0x8000000000000080, 0x000000000000800A, 0x800000008000000A,
   0x8000000080008081, 0x8000000000008080, 0x0000000080000001, 0x8000000080008008]

/-- Turns of the lanes in rho, by lane. -/
def keccakTurns : List Nat :=
  [0, 1, 62, 28, 27, 36, 44, 6, 55, 20, 3, 10, 43, 25, 39, 41, 45, 15, 21, 8, 18, 2, 61, 56, 14]

def keccakTurn (n x : Nat) : Nat := (x <<< n ||| x >>> (64 - n)) % 2 ^ 64

def keccakRound (a : List Nat) (rc : Nat) : List Nat :=
  let c := (List.range 5).map (fun x => a.getD x 0 ^^^ a.getD (x + 5) 0 ^^^ a.getD (x + 10) 0 ^^^ a.getD (x + 15) 0 ^^^ a.getD (x + 20) 0)
  let d := (List.range 5).map (fun x => c.getD ((x + 4) % 5) 0 ^^^ keccakTurn 1 (c.getD ((x + 1) % 5) 0))
  let t := List.zipWith keccakTurn keccakTurns (xorNats a (d ++ d ++ d ++ d ++ d))
  let b := (List.range 25).map (fun i => t.getD ((i % 5 + 3 * (i / 5)) % 5 + 5 * (i % 5)) 0)
  let e := (List.range 25).map (fun i =>
    b.getD i 0 ^^^ ((2 ^ 64 - 1 - b.getD ((i % 5 + 1) % 5 + i / 5 * 5) 0) &&& b.getD ((i % 5 + 2) % 5 + i / 5 * 5) 0))
  match e with
  | x :: r => (x ^^^ rc) :: r
  | [] => []

def keccakF (a : List Nat) : List Nat := keccakConsts.foldl keccakRound a

def keccakBytes (chain : Bytes) : Bytes := (keccakF ((blocksOf 8 (padTo 200 chain)).map leNat)).flatMap (leBytes 8)

/-- `n` bytes squeezed from a state at a rate; `fuel` bounds the permutations. -/
def squeeze (rate : Nat) : Nat → Nat → Bytes → Bytes
  | 0, _, _ => []
  | fuel + 1, n, st => if n ≤ rate then st.take n else st.take rate ++ squeeze rate fuel (n - rate) (keccakBytes st)

-- Digests (Table 07-1, R237).

/-- Block or rate, output and cycles per block of a digest ALG; none for a code that is no digest. -/
def digestParams (alg : Nat) : Option (Nat × Nat × Nat) :=
  match alg with
  | 0x01 => some (64, 32, 160)
  | 0x02 => some (128, 48, 200)
  | 0x03 => some (128, 64, 200)
  | 0x11 => some (136, 32, 96)
  | 0x12 => some (104, 48, 96)
  | 0x13 => some (72, 64, 96)
  | 0x18 => some (168, 0, 96)
  | 0x19 => some (136, 0, 96)
  | _ => none

def digestRate (alg : Nat) : Nat := match digestParams alg with | some p => p.1 | none => 64
def digestOut (alg xof : Nat) : Nat := match digestParams alg with | some (_, 0, _) => xof | some (_, n, _) => n | none => 0

/-- The initial chain of a function. -/
@[irreducible] def hashInit (alg : Nat) : Bytes :=
  if alg = 1 then sha256Init.flatMap (leBytes 4)
  else if alg = 2 then sha384Init.flatMap (leBytes 8)
  else if alg = 3 then sha512Init.flatMap (leBytes 8)
  else zeros 200

/-- The chain after one block or rate. -/
@[irreducible] def hashStep (alg : Nat) (chain block : Bytes) : Bytes :=
  if alg < 0x10 then sha2Step (sha2Of (alg != 1)) chain block
  else keccakBytes (xorBytes (padTo 200 chain) (padTo 200 block))

/-- `n` bytes of output from the chain after the last block. -/
@[irreducible] def hashOut (alg n : Nat) (chain : Bytes) : Bytes :=
  if alg < 0x10 then
    let w := if alg = 1 then 4 else 8
    ((blocksOf w (padTo (8 * w) chain)).flatMap (fun b => b.reverse)).take n
  else squeeze (digestRate alg) (n / digestRate alg + 1) n (padTo 200 chain)

/-- The padding of a message of `count` bytes of which `buf` remain unabsorbed. -/
def digestPad (alg count : Nat) (buf : Bytes) : Bytes :=
  let r := digestRate alg
  if alg < 0x10 then
    let l := if alg = 1 then 8 else 16
    let b := buf ++ [0x80]
    b ++ zeros ((2 * r - l - b.length % r) % r) ++ beBytes l (8 * count)
  else
    let dom : Byte := if alg < 0x18 then 0x06 else 0x1F
    let z := r - 1 - buf.length % r
    if z = 0 then buf ++ [dom ||| 0x80] else buf ++ [dom] ++ zeros (z - 1) ++ [0x80]

/-- Absorb whole blocks; the chain after them and the bytes left over. -/
def absorb (alg : Nat) (chain buf : Bytes) : Bytes × Bytes :=
  let r := digestRate alg
  (blocksOf r buf).foldl (fun st b => if b.length = r then (hashStep alg st.1 b, []) else (st.1, b)) (chain, [])

/-- Finish a chain that holds `buf` after `count` bytes. -/
def digestFinish (alg n count : Nat) (chain buf : Bytes) : Bytes :=
  hashOut alg n (absorb alg chain (digestPad alg count buf)).1

/-- The digest of a message; `xof`: bytes of a SHAKE output. -/
def digest (alg : Nat) (m : Bytes) (xof : Nat) : Bytes :=
  let st := absorb alg (hashInit alg) m
  digestFinish alg (digestOut alg xof) m.length st.1 st.2

/-- The KEY block: the key zero-filled to the block size, XORed with the pad byte (R236). -/
def hmacPad (alg : Nat) (outer : Bool) (key : Bytes) : Bytes :=
  (padTo (digestRate alg) key).map (fun b => b ^^^ (if outer then 0x5C else 0x36))

/-- HMAC composed as R247 gives. -/
def hmac (alg : Nat) (key m : Bytes) : Bytes :=
  digest alg (hmacPad alg true key ++ digest alg (hmacPad alg false key ++ m) 0) 0

/-- The blocks of HKDF's expansion (RFC 5869): `n` of them from block `i`. -/
def hkdfBlocks (prk info : Bytes) : Nat → Nat → Bytes → Bytes
  | 0, _, _ => []
  | n + 1, i, prev =>
    let t := hmac 2 prk (prev ++ info ++ [BitVec.ofNat 8 i])
    t ++ hkdfBlocks prk info n (i + 1) t

/-- HKDF over SHA-384 (R61): `n` bytes for an input, salt and info. -/
@[irreducible] def hkdf (input salt info : Bytes) (n : Nat) : Bytes :=
  (hkdfBlocks (hmac 2 (if salt.length ≤ 128 then salt else digest 2 salt 0) input) info ((n + 47) / 48) 1 []).take n

end Sys2Proof.Machine
end

