-- ==== Sys2Proof/Machine/Curve.lean ====
section
/-! DEFINITION. Signatures and key agreement on elliptic curves, and RSA (R248 to R255): ECDSA and ECDH on P-256 and
P-384 (FIPS 186-5, SP 800-186), Ed25519 (RFC 8032) and RSA signatures (RFC 8017). PRESUMED from the standards that
the spec names (log 16). -/

namespace Sys2Proof.Machine

-- Arithmetic modulo m.

/-- `b ^ e` modulo `m`; `fuel` bounds the bits of `e`. -/
def powModFuel (m : Nat) : Nat → Nat → Nat → Nat
  | 0, _, _ => 1 % m
  | fuel + 1, b, e => if e = 0 then 1 % m else
    let h := powModFuel m fuel (b * b % m) (e / 2)
    if e % 2 = 1 then b * h % m else h

def powMod (m b e : Nat) : Nat := powModFuel m (e.log2 + 1) (b % m) e

def subMod (m a b : Nat) : Nat := (a + (m - b % m)) % m

/-- The inverse of `a`: the extended algorithm of Euclid on remainders `r`, `q` with coefficients `x`, `y`. -/
def invFuel (m : Nat) : Nat → Nat → Nat → Nat → Nat → Nat
  | 0, _, _, x, _ => x
  | fuel + 1, r, q, x, y => if q = 0 then x else invFuel m fuel q (r % q) y (subMod m x (r / q * y))

def invMod (m a : Nat) : Nat := invFuel m (2 * m.log2 + 4) m (a % m) 0 1

-- Curves y^2 = x^3 - 3x + b over a prime field; points in Jacobian coordinates, Z zero at infinity.

structure Curve where
  bytes : Nat
  p : Nat
  b : Nat
  n : Nat
  gx : Nat
  gy : Nat

def p256 : Curve :=
  { bytes := 32
    p := 0xFFFFFFFF00000001000000000000000000000000FFFFFFFFFFFFFFFFFFFFFFFF
    b := 0x5AC635D8AA3A93E7B3EBBD55769886BC651D06B0CC53B0F63BCE3C3E27D2604B
    n := 0xFFFFFFFF00000000FFFFFFFFFFFFFFFFBCE6FAADA7179E84F3B9CAC2FC632551
    gx := 0x6B17D1F2E12C4247F8BCE6E563A440F277037D812DEB33A0F4A13945D898C296
    gy := 0x4FE342E2FE1A7F9B8EE7EB4A7C0F9E162BCE33576B315ECECBB6406837BF51F5 }

def p384 : Curve :=
  { bytes := 48
    p := 0xFFFFFFFFFFFFFFFFFFFFFFFFFFFFFFFFFFFFFFFFFFFFFFFFFFFFFFFFFFFFFFFEFFFFFFFF0000000000000000FFFFFFFF
    b := 0xB3312FA7E23EE7E4988E056BE3F82D19181D9C6EFE8141120314088F5013875AC656398D8A2ED19D2A85C8EDD3EC2AEF
    n := 0xFFFFFFFFFFFFFFFFFFFFFFFFFFFFFFFFFFFFFFFFFFFFFFFFC7634D81F4372DDF581A0DB248B0A77AECEC196ACCC52973
    gx := 0xAA87CA22BE8B05378EB1C71EF320AD746E1D3B628BA79B9859F741E082542A385502F25DBF55296C3A545E3872760AB7
    gy := 0x3617DE4A96262C6F5D9E98BF9292DC29F8F41DBD289A147CE9DA3113B5F0B8C00A60B1CE1D7E819D7A431D7C90EA0E5F }

def curveOf (pkalg : Nat) : Curve := if pkalg = 1 then p256 else p384

structure Point where
  x : Nat
  y : Nat
  z : Nat

def Point.infinity : Point := { x := 1, y := 1, z := 0 }

def Curve.double (c : Curve) (a : Point) : Point :=
  let m := c.p
  let yy := a.y * a.y % m
  let s := 4 * a.x * yy % m
  let zz := a.z * a.z % m
  let t := 3 * (subMod m a.x zz) * (a.x + zz) % m
  let x := subMod m (t * t) (2 * s)
  { x := x, y := subMod m (t * subMod m s x) (8 * yy * yy), z := 2 * a.y * a.z % m }

def Curve.add (c : Curve) (a b : Point) : Point :=
  let m := c.p
  if a.z = 0 then b
  else if b.z = 0 then a
  else
    let za := a.z * a.z % m
    let zb := b.z * b.z % m
    let u := a.x * zb % m
    let s := a.y * zb * b.z % m
    let h := subMod m (b.x * za) u
    let r := subMod m (b.y * za * a.z) s
    if h = 0 then (if r = 0 then c.double a else Point.infinity)
    else
      let hh := h * h % m
      let x := subMod m (r * r) (hh * h + 2 * u * hh)
      { x := x, y := subMod m (r * subMod m (u * hh) x) (s * hh * h), z := h * a.z * b.z % m }

/-- `k` times a point; `fuel` bounds the bits of `k`. -/
def Curve.mulFuel (c : Curve) (a : Point) : Nat → Nat → Point
  | 0, _ => Point.infinity
  | fuel + 1, k => if k = 0 then Point.infinity else
    let h := c.double (c.mulFuel a fuel (k / 2))
    if k % 2 = 1 then c.add h a else h

def Curve.mul (c : Curve) (k : Nat) (a : Point) : Point := c.mulFuel a (k.log2 + 1) k

def Curve.base (c : Curve) : Point := { x := c.gx, y := c.gy, z := 1 }

/-- Affine coordinates; both zero at infinity. -/
def Curve.affine (c : Curve) (a : Point) : Nat × Nat :=
  let i := invMod c.p a.z
  if a.z = 0 then (0, 0) else (a.x * i * i % c.p, a.y * i * i % c.p * i % c.p)

def Curve.onCurve (c : Curve) (x y : Nat) : Bool :=
  x < c.p && y < c.p && y * y % c.p = (x * x * x + subMod c.p c.b (3 * x)) % c.p

/-- SEC 1 uncompressed encoding (Table 07-11). -/
def Curve.encode (c : Curve) (a : Point) : Bytes :=
  [4] ++ beBytes c.bytes (c.affine a).1 ++ beBytes c.bytes (c.affine a).2

/-- The point of an encoding; none when it is malformed or off the curve (R255). -/
def Curve.decode (c : Curve) (b : Bytes) : Option Point :=
  let x := beNat (slice b 1 c.bytes)
  let y := beNat (slice b (1 + c.bytes) c.bytes)
  if b.length = 1 + 2 * c.bytes && leAt b 0 1 = 4 && c.onCurve x y then some { x := x, y := y, z := 1 } else none

/-- The number that a signature takes from a digest: its leftmost bits, as many as the order has. -/
def Curve.digestNat (c : Curve) (d : Bytes) : Nat := beNat (d.take c.bytes)

/-- A number from 1 to n - 1 for a byte string. -/
def Curve.scalarOf (c : Curve) (b : Bytes) : Nat := beNat b % (c.n - 1) + 1

/-- ECDSA (FIPS 186-5) with nonce `k`; when r or s is zero another nonce is taken (R252). -/
def Curve.signFuel (c : Curve) (d z : Nat) : Nat → Nat → Bytes
  | 0, _ => zeros (2 * c.bytes)
  | fuel + 1, k =>
    let r := (c.affine (c.mul k c.base)).1 % c.n
    let s := invMod c.n k * (z + r * d) % c.n
    if r = 0 ∨ s = 0 then c.signFuel d z fuel (k % (c.n - 1) + 1) else beBytes c.bytes r ++ beBytes c.bytes s

def Curve.sign (c : Curve) (key dig rnd : Bytes) : Bytes := c.signFuel (beNat key) (c.digestNat dig) 4 (c.scalarOf rnd)

def Curve.verify (c : Curve) (pub dig sig : Bytes) : Bool :=
  match c.decode pub with
  | none => false
  | some q =>
    let r := beNat (sig.take c.bytes)
    let s := beNat (sig.drop c.bytes)
    let w := invMod c.n s
    let a := c.add (c.mul (c.digestNat dig * w % c.n) c.base) (c.mul (r * w % c.n) q)
    sig.length = 2 * c.bytes && 0 < r && r < c.n && 0 < s && s < c.n && a.z != 0 && (c.affine a).1 % c.n = r

-- Ed25519 (RFC 8032): points in projective coordinates.

def edP : Nat := 2 ^ 255 - 19
def edL : Nat := 2 ^ 252 + 27742317777372353535851937790883648493
def edD : Nat := 37095705934669439343138083508754565189542113879843219016388785533085940283555
def edBase : Point :=
  { x := 15112221349535400772501151409588531511454012693041857206046113283949847762202
    y := 46316835694926478169428394003475163141307993866256225615783033603165251855960, z := 1 }

def edAdd (a b : Point) : Point :=
  let m := edP
  let z := a.z * b.z % m
  let zz := z * z % m
  let x := a.x * b.x % m
  let y := a.y * b.y % m
  let e := edD * (x * y % m) % m
  let f := subMod m zz e
  let g := (zz + e) % m
  { x := z * f % m * subMod m ((a.x + a.y) * (b.x + b.y)) (x + y) % m, y := z * g % m * (y + x) % m, z := f * g % m }

def edMulFuel (a : Point) : Nat → Nat → Point
  | 0, _ => { x := 0, y := 1, z := 1 }
  | fuel + 1, k => if k = 0 then { x := 0, y := 1, z := 1 } else
    let h := edMulFuel a fuel (k / 2)
    if k % 2 = 1 then edAdd (edAdd h h) a else edAdd h h

def edMul (k : Nat) (a : Point) : Point := edMulFuel a (k.log2 + 1) k

def edEncode (a : Point) : Bytes :=
  let i := invMod edP a.z
  leBytes 32 (a.y * i % edP + a.x * i % edP % 2 * 2 ^ 255)

/-- The point of an encoding; none for a non-canonical or invalid one (R252). -/
def edDecode (b : Bytes) : Option Point :=
  let v := leNat b
  let y := v % 2 ^ 255
  let u := subMod edP (y * y) 1
  let w := (edD * (y * y % edP) + 1) % edP
  let x := u * powMod edP w 3 % edP * powMod edP (u * powMod edP w 7) ((edP - 5) / 8) % edP
  let x := if w * x % edP * x % edP = u then x else x * powMod edP 2 ((edP - 1) / 4) % edP
  if b.length = 32 && y < edP && w * x % edP * x % edP = u && !(x = 0 && 2 ^ 255 ≤ v) then
    some { x := if x % 2 = v / 2 ^ 255 then x else subMod edP 0 x, y := y, z := 1 }
  else none

def edSecret (seed : Bytes) : Nat :=
  let h := leNat ((digest 3 seed 0).take 32)
  h % 2 ^ 254 / 8 * 8 + 2 ^ 254

def edPublic (seed : Bytes) : Bytes := edEncode (edMul (edSecret seed) edBase)

def edSign (seed msg : Bytes) : Bytes :=
  let r := leNat (digest 3 ((digest 3 seed 0).drop 32 ++ msg) 0) % edL
  let rb := edEncode (edMul r edBase)
  let k := leNat (digest 3 (rb ++ edPublic seed ++ msg) 0) % edL
  rb ++ leBytes 32 ((r + k * edSecret seed) % edL)

/-- The cofactored equation (R252). -/
def edVerify (pub msg sig : Bytes) : Bool :=
  match edDecode pub, edDecode (sig.take 32) with
  | some a, some r =>
    let s := leNat (sig.drop 32)
    let k := leNat (digest 3 (sig.take 32 ++ pub ++ msg) 0) % edL
    sig.length = 64 && s < edL && edEncode (edMul (8 * s) edBase) = edEncode (edAdd (edMul 8 r) (edMul (8 * k) a))
  | _, _ => false

-- RSA (RFC 8017). A modulus has as many bytes as its PKALG gives.

def rsaBytes (pkalg : Nat) : Nat := if pkalg = 0x10 then 256 else if pkalg = 0x11 then 384 else 512

def hashBytes (hash : Nat) : Nat := digestOut hash 0

/-- MGF1 of a hash: `n` bytes. -/
def mgf1 (hash : Nat) (seed : Bytes) (n : Nat) : Bytes :=
  ((List.range (n / hashBytes hash + 1)).flatMap (fun i => digest hash (seed ++ beBytes 4 i) 0)).take n

/-- EMSA-PSS encoding of a digest under a salt, the leftmost bit cleared. -/
def pssEncode (hash k : Nat) (dig salt : Bytes) : Bytes :=
  let h := digest hash (zeros 8 ++ dig ++ salt) 0
  let db := zeros (k - salt.length - h.length - 2) ++ [1] ++ salt
  let masked := xorBytes db (mgf1 hash h db.length)
  (match masked with | b :: t => (b &&& 0x7F) :: t | [] => []) ++ h ++ [0xBC]

/-- EMSA-PSS verification, for a salt of the hash's length. -/
def pssVerify (hash k : Nat) (dig em : Bytes) : Bool :=
  let n := hashBytes hash
  let masked := em.take (k - n - 1)
  let h := slice em (k - n - 1) n
  let db := match xorBytes masked (mgf1 hash h (k - n - 1)) with | b :: t => (b &&& 0x7F) :: t | [] => []
  em.length = k && leAt em (k - 1) 1 = 0xBC && leAt em 0 1 < 0x80 && db.take (k - 2 * n - 1) = zeros (k - 2 * n - 2) ++ [1] &&
    digest hash (zeros 8 ++ dig ++ db.drop (k - 2 * n - 1)) 0 = h

/-- EMSA-PKCS1-v1_5 encoding of a digest. -/
def v15Encode (hash k : Nat) (dig : Bytes) : Bytes :=
  let n := hashBytes hash
  let t : Bytes := [0x30, BitVec.ofNat 8 (17 + n), 0x30, 0x0D, 0x06, 0x09, 0x60, 0x86, 0x48, 0x01, 0x65, 0x03, 0x04, 0x02, BitVec.ofNat 8 hash,
    0x05, 0x00, 0x04, BitVec.ofNat 8 n] ++ dig
  [0, 1] ++ List.replicate (k - 3 - t.length) 0xFF ++ [0] ++ t

/-- The parts p, q, dP, dQ and qInv of a private operand (Table 07-12). -/
def rsaPart (pkalg i : Nat) (key : Bytes) : Nat := beNat (slice key (i * (rsaBytes pkalg / 2)) (rsaBytes pkalg / 2))

def rsaPublic (pkalg : Nat) (key : Bytes) : Bytes := beBytes (rsaBytes pkalg) (rsaPart pkalg 0 key * rsaPart pkalg 1 key)

/-- RSASSA-PSS by the Chinese remainder theorem. -/
def rsaSign (pkalg hash : Nat) (key dig rnd : Bytes) : Bytes :=
  let k := rsaBytes pkalg
  let m := beNat (pssEncode hash k dig (padTo (hashBytes hash) rnd))
  let p := rsaPart pkalg 0 key
  let q := rsaPart pkalg 1 key
  let a := powMod p m (rsaPart pkalg 2 key)
  let b := powMod q m (rsaPart pkalg 3 key)
  beBytes k (b + q * (rsaPart pkalg 4 key * subMod p a b % p))

def rsaVerify (pkalg hash : Nat) (v15 : Bool) (pub dig sig : Bytes) : Bool :=
  let k := rsaBytes pkalg
  let n := beNat pub
  let em := beBytes k (powMod n (beNat sig) 65537)
  sig.length = k && beNat sig < n && (if v15 then em = v15Encode hash k dig else pssVerify hash k dig em)

end Sys2Proof.Machine
end

