-- ==== Sys2Proof/Machine/Lattice.lean ====
section
/-! DEFINITION. ML-DSA (FIPS 204) and ML-KEM (FIPS 203) as R252 uses them. Polynomials are lists of 256
coefficients, reduced modulo q. Samples by rejection are taken from a fixed number of bytes of the extendable output,
more than a run needs with a probability that is negligible. PRESUMED from the standards that the spec names
(log 16). -/

namespace Sys2Proof.Machine

-- Polynomials.

abbrev Poly := List Nat

/-- The bits of a number of `n` bits in reverse order. -/
def bitRev : Nat → Nat → Nat
  | 0, _ => 0
  | n + 1, x => x % 2 * 2 ^ n + bitRev n (x / 2)

def modPow (q b e : Nat) : Nat := (List.range 16).foldr (fun i a => a * a % q * (if e >>> i % 2 = 1 then b else 1) % q) 1

def polyAdd (q : Nat) (a b : Poly) : Poly := List.zipWith (fun x y => (x + y) % q) a b
def polySub (q : Nat) (a b : Poly) : Poly := List.zipWith (fun x y => (x + q - y) % q) a b
def polyMul (q : Nat) (a b : Poly) : Poly := List.zipWith (fun x y => x * y % q) a b
def polyZero : Poly := List.replicate 256 0

/-- The number-theoretic transform by halves: `zs` gives the root of node `k`, `depth` layers below it. -/
def ntt (q : Nat) (zs : List Nat) : Nat → Nat → Poly → Poly
  | 0, _, f => f
  | depth + 1, k, f =>
    let h := f.length / 2
    let z := zs.getD k 0
    let lo := f.take h
    let hi := (f.drop h).map (fun x => z * x % q)
    ntt q zs depth (2 * k) (polyAdd q lo hi) ++ ntt q zs depth (2 * k + 1) (polySub q lo hi)

/-- The inverse transform, before its scaling; `zs` gives the inverse roots. -/
def unNtt (q : Nat) (zs : List Nat) : Nat → Nat → Poly → Poly
  | 0, _, f => f
  | depth + 1, k, f =>
    let h := f.length / 2
    let z := zs.getD k 0
    let lo := unNtt q zs depth (2 * k) (f.take h)
    let hi := unNtt q zs depth (2 * k + 1) (f.drop h)
    polyAdd q lo hi ++ (polySub q lo hi).map (fun x => z * x % q)

/-- Coefficients of `w` bits each, packed from the low end; and back, `n` of them. -/
def packBits (w : Nat) (xs : List Nat) : Bytes := leBytes (w * xs.length / 8) (xs.foldr (fun x a => x + 2 ^ w * a) 0)
def unpackBits (w n : Nat) (b : Bytes) : List Nat :=
  let v := leNat b
  (List.range n).map (fun i => v >>> (w * i) % 2 ^ w)

/-- The first 256 values of a list, zero-filled. -/
def first256 (l : List Nat) : Poly := (l ++ polyZero).take 256

/-- Rows of a matrix product, coefficient by coefficient. -/
def dotPoly (mul : Poly → Poly → Poly) (q : Nat) (a b : List Poly) : Poly :=
  (List.zipWith mul a b).foldl (polyAdd q) polyZero

-- ML-DSA (FIPS 204).

def dsaQ : Nat := 8380417
def dsaRoots : List Nat := (List.range 256).map (fun k => modPow dsaQ 1753 (bitRev 8 k))
def dsaUnroots : List Nat := (List.range 256).map (fun k => dsaQ - modPow dsaQ 1753 (256 - bitRev 8 k))
def dsaNtt (f : Poly) : Poly := ntt dsaQ dsaRoots 8 1 f
def dsaUnNtt (f : Poly) : Poly := (unNtt dsaQ dsaUnroots 8 1 f).map (fun x => 8347681 * x % dsaQ)

/-- Parameters of a parameter set: dimensions, and the standard's eta, tau, gamma1, gamma2, omega and length of the
commitment hash. -/
structure DsaSet where
  k : Nat
  l : Nat
  eta : Nat
  tau : Nat
  g1 : Nat
  g2 : Nat
  omega : Nat
  c : Nat

def dsaSet (pkalg : Nat) : DsaSet :=
  if pkalg = 0x20 then { k := 4, l := 4, eta := 2, tau := 39, g1 := 17, g2 := 95232, omega := 80, c := 32 }
  else if pkalg = 0x21 then { k := 6, l := 5, eta := 4, tau := 49, g1 := 19, g2 := 261888, omega := 55, c := 48 }
  else { k := 8, l := 7, eta := 2, tau := 60, g1 := 19, g2 := 261888, omega := 75, c := 64 }

def shake128 (m : Bytes) (n : Nat) : Bytes := digest 0x18 m n
def shake256 (m : Bytes) (n : Nat) : Bytes := digest 0x19 m n

/-- RejNTTPoly: coefficients of three bytes below q. -/
def dsaUniform (seed : Bytes) : Poly :=
  first256 (((blocksOf 3 (shake128 seed 1344)).map (fun b => leNat b % 2 ^ 23)).filter (· < dsaQ))

/-- RejBoundedPoly: coefficients from -eta to eta. -/
def dsaBounded (eta : Nat) (seed : Bytes) : Poly :=
  let ns := (shake256 seed 816).flatMap (fun b => [b.toNat % 16, b.toNat / 16])
  first256 (if eta = 2 then (ns.filter (· < 15)).map (fun x => (2 + dsaQ - x % 5) % dsaQ)
    else (ns.filter (· < 9)).map (fun x => (4 + dsaQ - x) % dsaQ))

def dsaMatrix (d : DsaSet) (rho : Bytes) : List (List Poly) :=
  (List.range d.k).map (fun r => (List.range d.l).map (fun s => dsaUniform (rho ++ [BitVec.ofNat 8 s, BitVec.ofNat 8 r])))

def dsaApply (a : List (List Poly)) (v : List Poly) : List Poly := a.map (fun row => dsaUnNtt (dotPoly (polyMul dsaQ) dsaQ row v))

/-- The expanded key: rho, K, s1, s2 and t. -/
structure DsaKey where
  rho : Bytes
  kk : Bytes
  s1 : List Poly
  s2 : List Poly
  t : List Poly

def dsaExpand (d : DsaSet) (xi : Bytes) : DsaKey :=
  let h := shake256 (xi ++ [BitVec.ofNat 8 d.k, BitVec.ofNat 8 d.l]) 128
  let rho' := slice h 32 64
  let s (i : Nat) : Poly := dsaBounded d.eta (rho' ++ leBytes 2 i)
  let s1 := (List.range d.l).map s
  let s2 := (List.range d.k).map (fun i => s (d.l + i))
  { rho := h.take 32, kk := h.drop 96, s1 := s1, s2 := s2,
    t := List.zipWith (polyAdd dsaQ) (dsaApply (dsaMatrix d (h.take 32)) (s1.map dsaNtt)) s2 }

/-- The high part of t: 2^13 divides what remains after the nearest part is taken off. -/
def dsaT1 (x : Nat) : Nat := (x + 4095) / 8192
/-- The low part of t. -/
def dsaT0 (x : Nat) : Nat := (x + dsaQ - 8192 * dsaT1 x) % dsaQ

def dsaPublicOf (k : DsaKey) : Bytes := k.rho ++ k.t.flatMap (fun p => packBits 10 (p.map dsaT1))
def dsaPublic (pkalg : Nat) (xi : Bytes) : Bytes := dsaPublicOf (dsaExpand (dsaSet pkalg) xi)

/-- HighBits and, as a number modulo q, LowBits. -/
def dsaHigh (g2 x : Nat) : Nat :=
  let r := (x + g2 - 1) / (2 * g2)
  if r * 2 * g2 = dsaQ - 1 then 0 else r
def dsaLow (g2 x : Nat) : Nat := (x + dsaQ - dsaHigh g2 x * 2 * g2) % dsaQ

/-- The magnitude of a number modulo q. -/
def dsaAbs (x : Nat) : Nat := if x ≤ dsaQ / 2 then x else dsaQ - x
def dsaBelow (bound : Nat) (v : List Poly) : Bool := v.all (fun p => p.all (fun x => dsaAbs x < bound))

/-- SampleInBall: places 256 - tau to 255 in turn, with the bytes that remain. -/
def dsaBallFrom (signs : Nat) : Nat → Nat → Bytes → Poly → Poly
  | 0, _, _, c => c
  | _, _, [], c => c
  | fuel + 1, i, b :: t, c =>
    if 255 < i then c
    else if i < b.toNat then dsaBallFrom signs fuel i t c
    else dsaBallFrom (signs / 2) fuel (i + 1) t ((c.set i (c.getD b.toNat 0)).set b.toNat (if signs % 2 = 1 then dsaQ - 1 else 1))

def dsaBall (d : DsaSet) (seed : Bytes) : Poly :=
  let h := shake256 seed 544
  dsaBallFrom (leNat (h.take 8)) 600 (256 - d.tau) (h.drop 8) polyZero

/-- ExpandMask: one polynomial of y. -/
def dsaMask (d : DsaSet) (seed : Bytes) (i : Nat) : Poly :=
  (unpackBits (d.g1 + 1) 256 (shake256 (seed ++ leBytes 2 i) (32 * (d.g1 + 1)))).map (fun x => (2 ^ d.g1 + dsaQ - x) % dsaQ)

def dsaW1 (d : DsaSet) (w : List Poly) : Bytes := w.flatMap (fun p => packBits (if d.g2 = 95232 then 6 else 4) (p.map (dsaHigh d.g2)))

def dsaMu (pk ctx msg : Bytes) : Bytes := shake256 (shake256 pk 64 ++ [0, BitVec.ofNat 8 ctx.length] ++ ctx ++ msg) 64

/-- The hints: the places of each polynomial, then the running counts. -/
def dsaHints (d : DsaSet) (hs : List (List Bool)) : Bytes :=
  let places (h : List Bool) : List Nat := (List.range 256).filter (fun i => h.getD i false)
  let counts := (List.range d.k).map (fun i => ((hs.take (i + 1)).map (fun h => (places h).length)).foldl (· + ·) 0)
  padTo d.omega (bytesOf (hs.flatMap places)) ++ bytesOf counts

/-- The signing loop: one attempt for each mask, `fuel` of them. -/
def dsaLoop (d : DsaSet) (k : DsaKey) (a : List (List Poly)) (mu seed : Bytes) : Nat → Nat → Bytes
  | 0, _ => []
  | fuel + 1, kappa =>
    let y := (List.range d.l).map (fun i => dsaMask d seed (kappa + i))
    let w := dsaApply a (y.map dsaNtt)
    let ct := shake256 (mu ++ dsaW1 d w) d.c
    let c := dsaNtt (dsaBall d ct)
    let times (p : Poly) : Poly := dsaUnNtt (polyMul dsaQ c (dsaNtt p))
    let z := List.zipWith (fun p s => polyAdd dsaQ p (times s)) y k.s1
    let r := List.zipWith (fun p s => polySub dsaQ p (times s)) w k.s2
    let ct0 := k.t.map (fun p => times (p.map dsaT0))
    let beta := d.eta * d.tau
    let hs := List.zipWith (fun p c => List.zipWith (fun x y => dsaHigh d.g2 ((x + y) % dsaQ) != dsaHigh d.g2 x) p c) r ct0
    let count := (hs.map (fun h => (h.filter (fun b => b)).length)).foldl (· + ·) 0
    if dsaBelow (2 ^ d.g1 - beta) z && r.all (fun p => p.all (fun x => dsaAbs (dsaLow d.g2 x) < d.g2 - beta)) &&
        dsaBelow d.g2 ct0 && count ≤ d.omega then
      ct ++ z.flatMap (fun p => packBits (d.g1 + 1) (p.map (fun x => (2 ^ d.g1 + dsaQ - x) % dsaQ))) ++ dsaHints d hs
    else dsaLoop d k a mu seed fuel (kappa + d.l)

/-- A hedged signature of a message under a context string. The loop goes on past 96 attempts (R256). -/
def dsaSign (pkalg : Nat) (xi msg ctx rnd : Bytes) : Bytes :=
  let d := dsaSet pkalg
  let k := dsaExpand d xi
  let mu := dsaMu (dsaPublicOf k) ctx msg
  dsaLoop d k (dsaMatrix d k.rho) mu (shake256 (k.kk ++ padTo 32 rnd ++ mu) 64) 10000 0

/-- The places that the hint part gives each polynomial; none where its form is wrong. -/
def dsaUnhint (omega : Nat) (ys : List Nat) : List Nat → Nat → Option (List (List Nat))
  | [], i => if (ys.drop i).all (· = 0) then some [] else none
  | n :: t, i =>
    let ps := (ys.drop i).take (n - i)
    if n < i ∨ omega < n ∨ !(List.zip ps (ps.drop 1)).all (fun e => e.1 < e.2) then none
    else (dsaUnhint omega ys t n).map (fun r => ps :: r)

/-- UseHint. -/
def dsaUseHint (g2 : Nat) (h : Bool) (x : Nat) : Nat :=
  let m := (dsaQ - 1) / (2 * g2)
  let r1 := dsaHigh g2 x
  let r0 := dsaLow g2 x
  if !h then r1 else if 0 < r0 && r0 ≤ dsaQ / 2 then (r1 + 1) % m else (r1 + m - 1) % m

def dsaVerify (pkalg : Nat) (pub msg ctx sig : Bytes) : Bool :=
  let d := dsaSet pkalg
  let zl := 32 * (d.g1 + 1)
  let t1 := (List.range d.k).map (fun i => unpackBits 10 256 (slice pub (32 + 320 * i) 320))
  let ct := sig.take d.c
  let z := (List.range d.l).map (fun i => (unpackBits (d.g1 + 1) 256 (slice sig (d.c + zl * i) zl)).map (fun x => (2 ^ d.g1 + dsaQ - x) % dsaQ))
  let hp := natsOf (sig.drop (d.c + zl * d.l))
  match dsaUnhint d.omega (hp.take d.omega) (hp.drop d.omega) 0 with
  | none => false
  | some hs =>
    let c := dsaNtt (dsaBall d ct)
    let zh := z.map dsaNtt
    let w := List.zipWith (fun row t => dsaUnNtt (polySub dsaQ (dotPoly (polyMul dsaQ) dsaQ row zh)
      (polyMul dsaQ c (dsaNtt (t.map (fun x => 8192 * x % dsaQ)))))) (dsaMatrix d (pub.take 32)) t1
    let w1 := List.zipWith (fun p ps => List.zipWith (fun i x => dsaUseHint d.g2 (ps.contains i) x) (List.range 256) p) w hs
    pub.length = 32 + 320 * d.k && sig.length = d.c + zl * d.l + d.omega + d.k && ctx.length < 256 && dsaBelow (2 ^ d.g1 - d.eta * d.tau) z &&
      shake256 (dsaMu pub ctx msg ++ w1.flatMap (packBits (if d.g2 = 95232 then 6 else 4))) d.c = ct

-- ML-KEM (FIPS 203).

def kemQ : Nat := 3329
def kemRoots : List Nat := (List.range 128).map (fun k => modPow kemQ 17 (bitRev 7 k))
def kemUnroots : List Nat := (List.range 128).map (fun k => kemQ - modPow kemQ 17 (128 - bitRev 7 k))
def kemNtt (f : Poly) : Poly := ntt kemQ kemRoots 7 1 f
def kemUnNtt (f : Poly) : Poly := (unNtt kemQ kemUnroots 7 1 f).map (fun x => 3303 * x % kemQ)

/-- MultiplyNTTs: products of pairs modulo X^2 minus the root of the pair. -/
def kemMul (a b : Poly) : Poly :=
  (List.range 128).flatMap (fun i =>
    let g := modPow kemQ 17 (2 * bitRev 7 i + 1)
    let a0 := a.getD (2 * i) 0
    let a1 := a.getD (2 * i + 1) 0
    let b0 := b.getD (2 * i) 0
    let b1 := b.getD (2 * i + 1) 0
    [(a0 * b0 + a1 * b1 % kemQ * g) % kemQ, (a0 * b1 + a1 * b0) % kemQ])

/-- Dimension, eta of the secret, and the widths of compression of a parameter set. -/
structure KemSet where
  k : Nat
  eta : Nat
  du : Nat
  dv : Nat

def kemSet (pkalg : Nat) : KemSet :=
  if pkalg = 0x30 then { k := 2, eta := 3, du := 10, dv := 4 }
  else if pkalg = 0x31 then { k := 3, eta := 2, du := 10, dv := 4 } else { k := 4, eta := 2, du := 11, dv := 5 }

def kemUniform (seed : Bytes) : Poly :=
  first256 (((blocksOf 3 (shake128 seed 1344)).flatMap (fun b =>
    let v := leNat b
    [v % 4096, v / 4096])).filter (· < kemQ))

/-- The centred binomial sample of number `i` under a seed. -/
def kemSample (eta : Nat) (seed : Bytes) (i : Nat) : Poly :=
  let bits := unpackBits 1 (512 * eta) (shake256 (seed ++ [BitVec.ofNat 8 i]) (64 * eta))
  (List.range 256).map (fun j =>
    let s (o : Nat) : Nat := ((bits.drop (2 * j * eta + o)).take eta).foldl (· + ·) 0
    (s 0 + kemQ - s eta) % kemQ)

/-- The matrix, or its transpose. -/
def kemMatrix (k : Nat) (flip : Bool) (rho : Bytes) : List (List Poly) :=
  (List.range k).map (fun i => (List.range k).map (fun j =>
    kemUniform (rho ++ (if flip then [BitVec.ofNat 8 i, BitVec.ofNat 8 j] else [BitVec.ofNat 8 j, BitVec.ofNat 8 i]))))

def kemCompress (d x : Nat) : Nat := (2 ^ (d + 1) * x + kemQ) / (2 * kemQ) % 2 ^ d
def kemDecompress (d y : Nat) : Nat := (2 * kemQ * y + 2 ^ d) / 2 ^ (d + 1)

/-- The encapsulation key and the secret, transformed, of a seed d. -/
def kemExpand (p : KemSet) (seed : Bytes) : Bytes × List Poly :=
  let g := digest 0x13 (seed ++ [BitVec.ofNat 8 p.k]) 0
  let s := (List.range p.k).map (fun i => kemNtt (kemSample p.eta (g.drop 32) i))
  let e := (List.range p.k).map (fun i => kemNtt (kemSample p.eta (g.drop 32) (p.k + i)))
  let t := List.zipWith (fun row e => polyAdd kemQ (dotPoly kemMul kemQ row s) e) (kemMatrix p.k false (g.take 32)) e
  (t.flatMap (packBits 12) ++ g.take 32, s)

def kemPublic (pkalg : Nat) (key : Bytes) : Bytes := (kemExpand (kemSet pkalg) (key.take 32)).1

def kemPkeEncrypt (p : KemSet) (ek m r : Bytes) : Bytes :=
  let t := (List.range p.k).map (fun i => unpackBits 12 256 (slice ek (384 * i) 384))
  let y := (List.range p.k).map (fun i => kemNtt (kemSample p.eta r i))
  let e := (List.range p.k).map (fun i => kemSample 2 r (p.k + i))
  let u := List.zipWith (fun row e => polyAdd kemQ (kemUnNtt (dotPoly kemMul kemQ row y)) e) (kemMatrix p.k true (ek.drop (384 * p.k))) e
  let mu := (unpackBits 1 256 m).map (kemDecompress 1)
  let v := polyAdd kemQ (polyAdd kemQ (kemUnNtt (dotPoly kemMul kemQ t y)) (kemSample 2 r (2 * p.k))) mu
  u.flatMap (fun f => packBits p.du (f.map (kemCompress p.du))) ++ packBits p.dv (v.map (kemCompress p.dv))

/-- ENCAPS: the ciphertext and the shared secret. -/
def kemEncaps (pkalg : Nat) (ek m : Bytes) : Bytes × Bytes :=
  let g := digest 0x13 (padTo 32 m ++ digest 0x11 ek 0) 0
  (kemPkeEncrypt (kemSet pkalg) ek (padTo 32 m) (g.drop 32), g.take 32)

/-- DECAPS with implicit rejection, under the seeds d and z. -/
def kemDecaps (pkalg : Nat) (key ct : Bytes) : Bytes :=
  let p := kemSet pkalg
  let (ek, s) := kemExpand p (key.take 32)
  let u := (List.range p.k).map (fun i => kemNtt ((unpackBits p.du 256 (slice ct (32 * p.du * i) (32 * p.du))).map (kemDecompress p.du)))
  let v := (unpackBits p.dv 256 (ct.drop (32 * p.du * p.k))).map (kemDecompress p.dv)
  let w := polySub kemQ v (kemUnNtt (dotPoly kemMul kemQ s u))
  let m := packBits 1 (w.map (kemCompress 1))
  let g := digest 0x13 (m ++ digest 0x11 ek 0) 0
  if kemPkeEncrypt p ek m (g.drop 32) = ct then g.take 32 else shake256 (slice key 32 32 ++ ct) 32

/-- The encapsulation key check. -/
def kemValid (pkalg : Nat) (ek : Bytes) : Bool :=
  let k := (kemSet pkalg).k
  ek.length = 384 * k + 32 && (unpackBits 12 (256 * k) (ek.take (384 * k))).all (· < kemQ)

end Sys2Proof.Machine
end

