-- ==== Sys2Proof/Machine/PubKey.lean ====
section
/-! DEFINITION. The public-key operations by PKALG (Table 07-9, R252), the material of a fresh key, and the
protection of Plinth link frames (R18). -/

namespace Sys2Proof.Machine

/-- A signature (R252): over a digest for ECDSA and RSA, over the message for Ed25519 and ML-DSA. `rnd`: the
generator's bytes. -/
@[irreducible] def pkSign (pkalg hash : Nat) (key msg context rnd : Bytes) : Bytes :=
  if pkalg = 1 ∨ pkalg = 2 then (curveOf pkalg).sign key msg rnd
  else if pkalg = 3 then edSign key msg
  else if pkalg < 0x20 then rsaSign pkalg hash key msg rnd
  else dsaSign pkalg key msg context rnd

@[irreducible] def pkVerify (pkalg hash : Nat) (v15 : Bool) (pub msg context sig : Bytes) : Bool :=
  if pkalg = 1 ∨ pkalg = 2 then (curveOf pkalg).verify pub msg sig
  else if pkalg = 3 then edVerify pub msg sig
  else if pkalg < 0x20 then rsaVerify pkalg hash v15 pub msg sig
  else dsaVerify pkalg pub msg context sig

/-- The x-coordinate of the shared point (R253); empty where the peer's point is not valid. -/
@[irreducible] def pkAgree (pkalg : Nat) (key pub : Bytes) : Bytes :=
  let c := curveOf pkalg
  match c.decode pub with
  | some q => beBytes c.bytes (c.affine (c.mul (beNat key % c.n) q)).1
  | none => []

/-- The public key of a private key (Table 07-11). -/
@[irreducible] def pkPublic (pkalg : Nat) (key : Bytes) : Bytes :=
  if pkalg = 1 ∨ pkalg = 2 ∨ pkalg = 4 then
    let c := curveOf pkalg
    c.encode (c.mul (beNat key % c.n) c.base)
  else if pkalg = 3 then edPublic key
  else if pkalg < 0x20 then rsaPublic pkalg key
  else if pkalg < 0x30 then dsaPublic pkalg key
  else kemPublic pkalg key

/-- The validity checks of a public operand (R255). -/
@[irreducible] def pkValid (pkalg : Nat) (pub : Bytes) : Bool :=
  if pkalg = 1 ∨ pkalg = 2 ∨ pkalg = 4 then ((curveOf pkalg).decode pub).isSome
  else if pkalg = 3 then pub.length = 32 && (edP ≤ leNat pub % 2 ^ 255 || (edDecode pub).isSome)
  else if pkalg < 0x20 then pub.length = rsaBytes pkalg && beNat pub % 2 = 1 && 2 ^ (8 * rsaBytes pkalg - 1) ≤ beNat pub
  else if pkalg < 0x30 then pub.length = 32 + 320 * (dsaSet pkalg).k
  else kemValid pkalg pub

/-- Encapsulation under a public key: the ciphertext and the shared secret. -/
@[irreducible] def kemEncap (pkalg : Nat) (pub seed : Bytes) : Bytes × Bytes := kemEncaps pkalg pub seed

@[irreducible] def kemDecap (pkalg : Nat) (key cipher : Bytes) : Bytes := kemDecaps pkalg key cipher

/-- Random bytes that a fresh private key of a PKALG takes. -/
def pkDraw (pkalg : Nat) : Nat :=
  if pkalg = 0x11 then 384 else if pkalg = 0x12 then 512 else if 0x30 ≤ pkalg then 64 else if pkalg = 2 then 48 else 32

/-- The private operand (Table 07-12) that random bytes make. The two factors of an RSA key are the bytes as they
are drawn: that they are primes is not said (log 100). -/
@[irreducible] def pkMaterial (pkalg : Nat) (draw : Bytes) : Bytes :=
  if pkalg = 1 ∨ pkalg = 2 then beBytes (curveOf pkalg).bytes ((curveOf pkalg).scalarOf draw)
  else if pkalg = 0x11 ∨ pkalg = 0x12 then
    let h := rsaBytes pkalg / 2
    let p := beNat (draw.take h)
    let q := beNat (draw.drop h)
    [p, q, invMod (p - 1) 65537, invMod (q - 1) 65537, invMod p q].flatMap (beBytes h)
  else draw

-- Plinth link frames (R18, R19): one AES-256-GCM key and one nonce field for each direction, both from the link
-- key; how they come from it is open (log 42).

def linkIv (linkKey : Bytes) (toMain : Bool) (ctr : Nat) : Bytes := padTo 4 (Config.linkField linkKey toMain) ++ leBytes 8 ctr

/-- The ciphertext of a frame's payload. -/
def linkCrypt (linkKey : Bytes) (toMain : Bool) (ctr : Nat) (payload : Bytes) : Bytes :=
  gcmCrypt (padTo 32 (Config.linkKeyOf linkKey toMain)) (linkIv linkKey toMain ctr) payload

/-- The tag over a frame's header and ciphertext. -/
def linkTag (linkKey : Bytes) (toMain : Bool) (ctr : Nat) (header cipher : Bytes) : Bytes :=
  gcmTag (padTo 32 (Config.linkKeyOf linkKey toMain)) (linkIv linkKey toMain ctr) header cipher

end Sys2Proof.Machine
end

