-- ==== Sys2Proof/Machine/Crypto.lean ====
section
/-! DEFINITION. Cryptographic computations of the services and modes: MACs (chapter 06), PIN blocks, card keys and codes, tokenization in PAN mode and key derivation
(chapter 03). -/

namespace Sys2Proof.Machine

-- Block modes (Table 06-5).

def ecb (dec : Bool) (alg : Nat) (key inp : Bytes) : Bytes :=
  (blocksOf (blockLen alg) inp).flatMap (fun b => if dec then blockD alg key b else blockE alg key b)

-- ISO 9797-1 MACs (Tables 03-10a and 06-5).

/-- Padding methods 1, 2 and 3. Method 1 of an empty message is one zero block (R114). -/
def isoPad (method bl : Nat) (m : Bytes) : Bytes :=
  let up (b : Bytes) : Bytes := b ++ zeros ((bl - b.length % bl) % bl)
  if method = 2 then up (m ++ [0x80])
  else if method = 3 then beBytes bl (8 * m.length) ++ (if m.isEmpty then [] else up m)
  else if m.isEmpty then zeros bl else up m

def cbcMac (alg : Nat) (key : Bytes) (bs : List Bytes) (iv : Bytes) : Bytes :=
  bs.foldl (fun h b => blockE alg key (xorBytes b h)) iv

/-- MAC algorithm 1: the CBC-MAC under a zero IV. -/
def macAlg1 (padding alg : Nat) (key m : Bytes) : Bytes :=
  let bl := blockLen alg
  cbcMac alg key (blocksOf bl (isoPad padding bl m)) (zeros bl)

/-- MAC algorithm 3 on the halves of a double-length TDES key. -/
def macAlg3 (padding : Nat) (key m : Bytes) : Bytes :=
  let k := key.take 8
  let k' := key.drop 8
  let h := cbcMac 0x108 k (blocksOf 8 (isoPad padding 8 m)) (zeros 8)
  blockE 0x108 k (blockD 0x108 k' h)

-- Decimal fields (R91, R92).

/-- Nibbles of a byte string, high nibble first. -/
def nibbles (b : Bytes) : List Nat := b.flatMap (fun x => [x.toNat / 16, x.toNat % 16])

/-- Pack nibbles; an odd last nibble takes a low nibble of zero. -/
def packNibbles : List Nat → Bytes
  | [] => []
  | [h] => [BitVec.ofNat 8 (16 * h)]
  | h :: l :: t => BitVec.ofNat 8 (16 * h + l) :: packNibbles t

/-- The digits of a 12-byte PAN field: none when it is malformed, the empty list when the PAN is absent. -/
def panDigits (b : Bytes) : Option (List Nat) :=
  let n := leAt b 0 1
  let ns := nibbles (slice b 2 10)
  if n ≠ 0 ∧ (n < 12 ∨ 19 < n) then none
  else if (ns.take n).all (· ≤ 9) && (ns.drop n).all (· = 0xF) then some (ns.take n) else none

/-- The PAN field of a digit string. -/
def panField (ds : List Nat) : Bytes :=
  [BitVec.ofNat 8 ds.length, 0] ++ packNibbles ((ds ++ List.replicate 20 0xF).take 20)

/-- Digits of a BCD field: its first `n` nibbles are digits and the rest are 0xF. -/
def bcdField (b : Bytes) (n : Nat) : Option (List Nat) :=
  let ns := nibbles b
  if (ns.take n).all (· ≤ 9) && (ns.drop n).all (· = 0xF) then some (ns.take n) else none

/-- Sum of the Luhn algorithm over a body, the rightmost body digit doubled. -/
def luhnSum : Bool → List Nat → Nat
  | _, [] => 0
  | true, d :: t => (2 * d) / 10 + (2 * d) % 10 + luhnSum false t
  | false, d :: t => d + luhnSum true t

/-- The Luhn check digit of a body. -/
def luhnDigit (body : List Nat) : Nat := (10 - luhnSum true body.reverse % 10) % 10

def luhnValid (ds : List Nat) : Bool := ds.getLast? = some (luhnDigit ds.dropLast)

/-- The last `n` elements, padded on the left with zeros. -/
def lastN (n : Nat) (ds : List Nat) : List Nat := List.replicate (n - ds.length) 0 ++ ds.drop (ds.length - n)

-- PIN blocks (R98 to R102).

/-- PAN field of formats 0 and 3. -/
def panBlock8 (ds : List Nat) : Bytes := packNibbles ([0, 0, 0, 0] ++ lastN 12 ds.dropLast)

/-- PAN field of format 4 (ISO 9564-1): digits beyond 12, then the PAN, zero-filled. PRESUMED (log 17). -/
def panBlock16 (ds : List Nat) : Bytes := packNibbles (((ds.length - 12) :: ds ++ List.replicate 32 0).take 32)

/-- The 16-nibble PIN field recovered from a block. -/
def pinFieldOf (fmt alg : Nat) (key : Bytes) (pan : List Nat) (block : Bytes) : Bytes :=
  if fmt = 4 then blockD alg key (xorBytes (blockD alg key block) (panBlock16 pan))
  else
    let d := blockD alg key (block.take 8)
    if fmt = 1 then d else xorBytes d (panBlock8 pan)

/-- The checks of R101: the PIN digits, or none. -/
def pinOfField (fmt : Nat) (field : Bytes) : Option (List Nat) :=
  let ns := (nibbles field).take 16
  let n := ns.getD 1 0
  let pin := (ns.drop 2).take n
  let fill := ns.drop (2 + n)
  if ns.getD 0 0 = fmt && 4 ≤ n && n ≤ 12 && pin.all (· ≤ 9) &&
      (if fmt = 0 then fill.all (· = 0xF) else if fmt = 3 then fill.all (fun x => 0xA ≤ x)
       else if fmt = 4 then fill.all (· = 0xA) else true) then some pin
  else none

/-- Random nibbles of the generator, each reduced into [lo, lo + span). -/
def fillNibbles (lo span : Nat) (rnd : Bytes) (n : Nat) : List Nat :=
  ((nibbles rnd).take n).map (fun x => lo + x % span)

/-- The block that carries a PIN in a format, its random fill from `rnd` (16 bytes) (R98, R102). -/
def pinBlock (fmt alg : Nat) (key : Bytes) (pan pin : List Nat) (rnd : Bytes) : Bytes :=
  let n := 14 - pin.length
  let fill := if fmt = 0 then List.replicate n 0xF else if fmt = 1 then fillNibbles 0 10 rnd n
    else if fmt = 3 then fillNibbles 0xA 6 rnd n else List.replicate n 0xA
  let field := packNibbles ([fmt, pin.length] ++ pin ++ fill)
  if fmt = 4 then
    let f := field ++ (rnd.drop 8).take 8
    blockE alg key (xorBytes (blockE alg key f) (panBlock16 pan))
  else blockE alg key (if fmt = 1 then field else xorBytes field (panBlock8 pan))

/-- Permitted translations (Table 03-5); `down`: OD 0x4120.03. -/
def pinPermitted (a b : Nat) (down : Bool) : Bool :=
  if a = 1 then true else if b = 1 then false else if a = 4 then (b = 4 || down) else true

/-- Does a key algorithm suit a PIN format (R98)? -/
def pinAlgOk (fmt alg : Nat) : Bool := if fmt = 4 then isAes alg else isTdes alg

/-- Decimalisation by two scans (R105, R119). -/
def decimalise (c : Bytes) : List Nat :=
  let ns := nibbles c
  ns.filter (· ≤ 9) ++ (ns.filter (fun x => 9 < x)).map (· - 10)

/-- The offset method (R104): does the PIN match? -/
def pinOffsetMatch (key valData decTable : Bytes) (offset : List Nat) (len : Nat) (pin : List Nat) (alg : Nat) : Bool :=
  let nat := ((nibbles (blockE alg key valData)).map (fun x => leAt decTable x 1)).take len
  pin.take len = List.zipWith (fun a b => (a + b) % 10) nat (offset.take len)

/-- The verification value method (R105). -/
def pinPvvMatch (key : Bytes) (pan : List Nat) (pvki : Nat) (pvv pin : List Nat) (alg : Nat) : Bool :=
  let ds := lastN 11 pan.dropLast ++ [pvki] ++ pin.take 4
  (decimalise (blockE alg key (packNibbles ds))).take 4 = pvv

-- Card keys and codes (R109 to R111, R119).

/-- Set odd parity in each byte. -/
def oddParity (b : Bytes) : Bytes :=
  b.map (fun x =>
    let v := x.toNat / 2
    let ones := (List.range 7).foldl (fun a i => a + v / 2 ^ i % 2) 0
    BitVec.ofNat 8 (2 * v + (if ones % 2 = 0 then 1 else 0)))

/-- Y of R109. -/
def cardY (pan psn : List Nat) : Bytes := packNibbles (lastN 16 (pan ++ psn))

/-- The card master key (R109), for an issuer key of an ALG. -/
def cardMaster (alg : Nat) (imk : Bytes) (pan psn : List Nat) : Bytes :=
  let y := cardY pan psn
  let n := y.map (fun b => b ^^^ 0xFF)
  if isTdes alg then oddParity (blockE alg imk y ++ blockE alg imk n)
  else blockE alg imk (y ++ n) ++ (if alg = 0x220 then blockE alg imk (n ++ y) else [])

/-- The session key (R110). -/
def cardSession (alg : Nat) (mk atc : Bytes) : Bytes :=
  if isTdes alg then blockE alg mk (atc ++ [0xF0] ++ zeros 5) ++ blockE alg mk (atc ++ [0x0F] ++ zeros 5)
  else
    blockE alg mk (atc ++ [0xF0] ++ zeros 13) ++
      (if alg = 0x220 then blockE alg mk (atc ++ [0x0F] ++ zeros 13) else [])

/-- The cryptogram MAC under a session key (R111). -/
def cardMac (alg : Nat) (sk m : Bytes) : Bytes :=
  if isTdes alg then macAlg3 2 sk m else (cmac alg sk m).take 8

/-- The ARPC (R111). -/
def cardArpc (method alg : Nat) (sk arqc arc csu prop : Bytes) : Bytes :=
  if method = 1 then
    if isTdes alg then blockE alg sk (xorBytes arqc (arc ++ zeros 6))
    else (blockE alg sk (arqc ++ arc ++ zeros 6)).take 8
  else (cardMac alg sk (arqc ++ csu ++ prop)).take 4

/-- The card security code (R119). -/
def cardCode (key : Bytes) (pan expiry service : List Nat) (len : Nat) : List Nat :=
  let ds := ((pan ++ expiry ++ service) ++ List.replicate 32 0).take 32
  let b := packNibbles ds
  let ka := key.take 8
  let kb := key.drop 8
  let c := xorBytes (blockE 0x108 ka (b.take 8)) (b.drop 8)
  let c := blockE 0x108 ka (blockD 0x108 kb (blockE 0x108 ka c))
  (decimalise c).take len

-- Derivation.

/-- SP 800-108 counter mode with CMAC (R125): `n` bytes. -/
def kdf108 (alg : Nat) (key label context : Bytes) (n : Nat) : Bytes :=
  ((List.range ((n + blockLen alg - 1) / blockLen alg)).flatMap (fun i =>
    cmac alg key (beBytes 4 (i + 1) ++ label ++ [0] ++ context ++ beBytes 4 (8 * n)))).take n

/-- ALG of a DUKPT working key (Table 03-10). -/
def dukptAlg (bdk wk : Nat) : Nat :=
  match wk with | 0 => bdk | 1 => 0x110 | 2 => 0x118 | 3 => 0x210 | 4 => 0x218 | _ => 0x220

/-- Strength for exporting and derivation (Table 08-15). -/
def keyStrength (alg : Nat) : Nat :=
  if alg = 0x110 then 80 else if alg = 0x118 then 112 else if isAes alg then 8 * algBytes alg
  else Nat.min 256 (8 * algBytes alg)

/-- Set bits of a transaction counter. -/
def popCount (n w : Nat) : Nat := (List.range w).foldl (fun a i => a + n / 2 ^ i % 2) 0

/-- Is a KSN valid (R115)? -/
def ksnValid (ksn : Bytes) : Bool :=
  let c := beNat (slice ksn 8 4)
  c != 0 && popCount c 32 ≤ 16

/-- Key block header of version "D" (ANSI X9.143), with the total length in characters. -/
def kbHeader (usage alg mode exp keyLen : Nat) : Bytes :=
  let q := (2 + keyLen + 15) / 16
  let len := 16 + 32 * q + 32
  let dig (n : Nat) : Byte := BitVec.ofNat 8 (0x30 + n % 10)
  [0x44, dig (len / 1000), dig (len / 100), dig (len / 10), dig len] ++ beBytes 2 usage ++
    [BitVec.ofNat 8 alg, BitVec.ofNat 8 mode, 0x30, 0x30, BitVec.ofNat 8 exp, 0x30, 0x30, 0x30, 0x30]

/-- Header usage, algorithm and mode of use for a key's ALG and USAGE (Table 08-12). -/
def kbFor (alg usage : Nat) : Nat × Nat × Nat :=
  let a := if isTdes alg then 0x54 else if isAes alg then 0x41 else 0x48
  let both (e d : Bool) : Nat := if e && d then 0x42 else if e then 0x45 else 0x44
  if bit usage 11 || bit usage 12 then (0x4230, a, 0x58)
  else if bit usage 8 then (0x4330, a, 0x43)
  else if bit usage 0 || bit usage 1 then (0x4430, a, both (bit usage 0) (bit usage 1))
  else if bit usage 7 || bit usage 13 then (0x4530, a, 0x58)
  else if bit usage 14 || bit usage 15 then (0x4B30, a, both (bit usage 14) (bit usage 15))
  else if bit usage 2 || bit usage 3 then
    ((if isTdes alg then 0x4D31 else if isAes alg then 0x4D36 else 0x4D37), a,
      if bit usage 2 && bit usage 3 then 0x43 else if bit usage 2 then 0x47 else 0x56)
  else if bit usage 4 || bit usage 5 then (0x5030, a, both (bit usage 5) (bit usage 4))
  else (0x5631, a, 0x56)

end Sys2Proof.Machine
end

