-- ==== Sys2Proof/Machine/Intc.lean ====
section
/-! DEFINITION. The channel interrupt controller, the event record queues and the device event
controller (chapter 11): the shared operations of event lines, presentation, withdrawal and claims. -/

namespace Sys2Proof.Machine

/-- LINECFG at reset (Table 11-1): TARGET, KIND and LEVEL in their places of Table 11-3. -/
def lineDefault (line : Nat) : Nat :=
  let mk (target kind level : Nat) : Nat := target * 2 ^ 16 + kind * 2 ^ 8 + level
  if line < 0x18 then mk (2 ^ (line % 8)) 2 6
  else if line = 0x18 then 0
  else if line ≤ 0x1F then mk 1 1 11
  else if line ≤ 0x2A then mk 1 0 11
  else if line = 0x2B then mk 1 1 5
  else if line = 0x2C then mk 1 0 11
  else if line ≤ 0x2F then mk 1 0 8
  else 0

/-- Is the line one that has a source or is a software line? -/
def lineExists (line : Nat) : Bool := line < 0x18 || (0x19 ≤ line && line ≤ 0x2F) || (0x100 ≤ line && line ≤ 0x1FF)

def lineCfg (k : Intc) (line : Nat) : Nat := (tfind k.linecfg line).getD (lineDefault line)
def lineTarget (k : Intc) (line : Nat) : Nat := bits (lineCfg k line) 23 16
def lineRoute (k : Intc) (line : Nat) : Nat := bits (lineCfg k line) 11 10
def lineKind (k : Intc) (line : Nat) : Nat := bits (lineCfg k line) 9 8
def lineLevel (k : Intc) (line : Nat) : Nat := bits (lineCfg k line) 3 0

def setLineCfg (k : Intc) (line v : Nat) : Intc :=
  { k with linecfg := if v = lineDefault line then tdel k.linecfg line else tput k.linecfg line v }

/-- A write to LINECFG, by the access of each field (Table 11-3). -/
def writeLineCfg (k : Intc) (line v : Nat) : Intc :=
  if !lineExists line then k
  else
    let soft := 0x100 ≤ line
    let target := if soft then bits v 23 16 else lineTarget k line
    let route := if soft then (if bits v 11 10 = 1 then 1 else 0) else lineRoute k line
    let kind := if line < 0x18 then (if bits v 9 8 = 0 ∨ bits v 9 8 = 2 then bits v 9 8 else lineKind k line)
      else lineKind k line
    let lv := Nat.min 11 (bits v 3 0)
    let level := if target / 2 ≠ 0 then Nat.min 9 lv else lv
    setLineCfg k line (target * 2 ^ 16 + route * 2 ^ 10 + kind * 2 ^ 8 + level)

def maskWord (k : Intc) (w : Nat) : Nat := tget 0xFFFFFFFF k.mask w
def pendWord (k : Intc) (w : Nat) : Nat := tget 0 k.pend w
def setMaskWord (k : Intc) (w v : Nat) : Intc := { k with mask := tset 0xFFFFFFFF k.mask w v }
def setPendWord (k : Intc) (w v : Nat) : Intc := { k with pend := tset 0 k.pend w v }

def setBit (v i : Nat) : Nat := v ||| 2 ^ i
def clrBit (v i : Nat) : Nat := if bit v i then v - 2 ^ i else v

def pendBit (k : Intc) (line : Nat) : Bool := bit (pendWord k (line / 32)) (line % 32)
def maskBit (k : Intc) (line : Nat) : Bool := bit (maskWord k (line / 32)) (line % 32)
def srcBit (k : Intc) (line : Nat) : Bool := bit (tget 0 k.srcin (line / 32)) (line % 32)
def setPend (k : Intc) (line : Nat) : Intc := setPendWord k (line / 32) (setBit (pendWord k (line / 32)) (line % 32))
def clrPend (k : Intc) (line : Nat) : Intc := setPendWord k (line / 32) (clrBit (pendWord k (line / 32)) (line % 32))
def setMask (k : Intc) (line : Nat) : Intc := setMaskWord k (line / 32) (setBit (maskWord k (line / 32)) (line % 32))
def clrMask (k : Intc) (line : Nat) : Intc := setMaskWord k (line / 32) (clrBit (maskWord k (line / 32)) (line % 32))

/-- Lines of word `w` of one KIND, as a mask. -/
def kindMask (k : Intc) (w kind : Nat) : Nat :=
  (List.range 32).foldl (fun m i => if lineExists (32 * w + i) && lineKind k (32 * w + i) = kind then m + 2 ^ i else m) 0

/-- Does a core of channel `n` hold word `w` (R382)? -/
def wordHeld (s : State) (n w : Nat) : Bool :=
  (List.range 8).any (fun c => (s.core (n * 8 + c)).ev.holdGrant && (s.core (n * 8 + c)).ev.holdWord.toNat = w)

/-- A rise of an EDGE or WAKE line's source sets PEND, is latched while its word is held, or is captured
in retention sleep (R372, R382, R385). -/
def raiseEdge (n line : Nat) (s : State) : State :=
  let k := s.intcOf n
  let w := line / 32
  let k' := { k with raisedAt := tput k.raisedAt line (s.time % 2 ^ 32) }
  if k.retained then s.setIntc n { k' with captured := tset 0 k.captured w (setBit (tget 0 k.captured w) (line % 32)) }
  else if wordHeld s n w then
    s.setIntc n { k' with latched := tset 0 k.latched w (setBit (tget 0 k.latched w) (line % 32)) }
  else s.setIntc n (setPend k' line)

/-- An event of a line's source that is a pulse: an EDGE or WAKE line is raised. A LEVEL line's source
rises and stays high until it falls. -/
def raiseLine (n line : Nat) (s : State) : State :=
  let k := s.intcOf n
  if lineKind k line = 1 then
    s.setIntc n (setPend { k with srcin := tset 0 k.srcin (line / 32) (setBit (tget 0 k.srcin (line / 32)) (line % 32)),
                                  raisedAt := tput k.raisedAt line (s.time % 2 ^ 32) } line)
  else raiseEdge n line s

/-- Running priority of a core: the larger of IML and TPR; 16 while locked up or held in reset (R373). -/
def runPriority (k : Core) : Nat :=
  if k.run = .lockedUp ∨ k.run = .reset then 16 else Nat.max k.status.iml.toNat k.ev.tpr.toNat

/-- Is an event number that of a request event? -/
def isReqEvent (ev : Nat) : Bool := ev = 0x200 || ev = 0x201

/-- WDUTY (R370): a warden-duty line is pending and unmasked, or core 0 holds a claimed record of one. -/
def wduty (s : State) (n : Nat) : Bool :=
  let k := s.intcOf n
  (List.range 0x17).any (fun i => pendBit k (0x19 + i) && !maskBit k (0x19 + i)) ||
  (s.core (n * 8)).ev.erq.any (fun e => e.2.claimed && decide (0x19 ≤ e.2.event ∧ e.2.event ≤ 0x2F))

/-- Positions of a core's queue (R377, R380, R386). -/
def erqSize (c : Nat) : Nat := if c = 0x50 then 1024 else if c = 0x51 then 64 else 32

/-- Has the core's queue a position for the event (R375)? Two of a channel core's 32 are kept for request
events. -/
def hasPosition (k : Core) (c ev : Nat) : Bool :=
  k.ev.erqEn && k.ev.erq.length < erqSize c &&
  (isReqEvent ev || 72 ≤ c || decide ((k.ev.erq.filter (fun e => !isReqEvent e.2.event)).length < 30))

/-- The 16 bytes of an event record (Table 11-4). -/
def recBytes (r : EvRec) : Bytes :=
  leBytes 2 r.event ++ leBytes 1 r.level ++ leBytes 1 (b2n (decide (0 < r.count))) ++ leBytes 1 r.count ++
  leBytes 1 (r.seq % 256) ++ zeros 2 ++ leBytes 4 r.data ++ leBytes 4 r.tRaise

/-- Bytes that the controller writes at the queue's address, in SRAM or local memory. -/
def erqWrite (c off : Nat) (b : Bytes) (s : State) : State :=
  match resolve s c ((s.core c).ev.erqAddr + off) with
  | .sram n o => s.memWrite (memKey (.sram n o)) b
  | .localMem m a => s.memWrite (memKey (.localMem m a)) b
  | _ => s

/-- Write a record at the lowest free position of a core's queue (R377). -/
def pushRecord (c event level count data tRaise : Nat) (s : State) : State :=
  let k := s.core c
  let pos := firstFree k.ev.erq 0
  let r : EvRec := { event := event, level := level, count := count, seq := k.ev.nextSeq, data := data, tRaise := tRaise }
  let s := erqWrite c (16 * pos) (recBytes r) s
  s.setCore c { k with ev := { k.ev with erq := tput k.ev.erq pos r, nextSeq := k.ev.nextSeq + 1 } }

/-- Can core `c` receive request event `ev` (R374)? -/
def reqEligible (s : State) (n ev c : Nat) : Bool :=
  let k := s.intcOf n
  if ev = 0x200 then 1 ≤ c && !bit k.c0busy.toNat c
  else !bit k.nbusy.toNat c && !(c = 0 && wduty s n)

/-- The best of a list of cores of channel `n`: lowest running priority, then awake before deep sleep,
then lowest number (R373). Cores of priority 16 receive nothing. -/
def bestCore (s : State) (n : Nat) (cs : List Nat) : Option Nat :=
  cs.foldl (fun b c =>
    let k := s.core (n * 8 + c)
    if 16 ≤ runPriority k then b
    else match b with
      | none => some c
      | some b' =>
        let kb := s.core (n * 8 + b')
        if runPriority k < runPriority kb ∨
          (runPriority k = runPriority kb ∧ kb.run = .deepSleep ∧ k.run ≠ .deepSleep) then some c else b) none

/-- Record that a core of the channel holds a request, or no longer (R174, R374). -/
def markSlot (n c ev : Nat) (rid : Option Nat) (s : State) : State :=
  let s := s.modIntc n (fun k =>
    let v := BitVec.ofNat 8 (2 ^ c)
    if ev = 0x200 then { k with c0busy := if rid.isSome then k.c0busy ||| v else k.c0busy &&& ~~~v }
    else { k with nbusy := if rid.isSome then k.nbusy ||| v else k.nbusy &&& ~~~v })
  s.modChan n (fun ch =>
    let sl := tget {} ch.slots c
    { ch with slots := tset {} ch.slots c (if ev = 0x200 then { sl with c0 := rid } else { sl with n := rid }) })

/-- Route a request event to a core and write its record (R374, R375). `cs`: the cores considered. -/
def routeReq (n : Nat) (e : ReqEvent) (cs : List Nat) (s : State) : Option State :=
  match bestCore s n (cs.filter (fun c => reqEligible s n e.event c && hasPosition (s.core (n * 8 + c)) (n * 8 + c) e.event)) with
  | none => none
  | some c =>
    some (markSlot n c e.event (some (e.data % 2 ^ 18))
      (pushRecord (n * 8 + c) e.event (if e.event = 0x200 then 10 else 3) 0 e.data e.tRaise s))

/-- Hardware's change of PEND and MASK when it presents a line (R372). -/
def presented (n line : Nat) (s : State) : State :=
  s.modIntc n (fun k => if lineKind k line = 0 then clrPend k line else if lineKind k line = 1 then setMask k line else k)

/-- Is the line presentable, apart from the core (R372, R382)? -/
def linePresentable (s : State) (n line : Nat) : Bool :=
  let k := s.intcOf n
  lineExists line && pendBit k line && !maskBit k line && lineLevel k line != 0 && lineKind k line != 2 &&
  !wordHeld s n (line / 32) && !k.retained

/-- Cores named by TARGET. -/
def targetCores (k : Intc) (line : Nat) : List Nat := (List.range 8).filter (fun c => bit (lineTarget k line) c)

/-- Present a line (R373, R375): to its fixed core, or to the eligible core of lowest priority. Without a
position the line stays pending, and the delay is counted. -/
def presentLine (n line : Nat) (s : State) : State :=
  if linePresentable s n line then
    let k := s.intcOf n
    let cs := targetCores k line
    let want := if lineRoute k line = 0 then cs.take 1 else cs
    let able := want.filter (fun c => hasPosition (s.core (n * 8 + c)) (n * 8 + c) line)
    match bestCore s n able with
    | none => if (bestCore s n want).isSome then bump (0x3013 + n * 256) 5 0 s else s
    | some c =>
      presented n line
        (pushRecord (n * 8 + c) line (lineLevel k line) 0 0 (tget 0 k.raisedAt line) s)
  else s

/-- Present the oldest waiting request event of a number. -/
def presentReq (n ev : Nat) (s : State) : State :=
  let k := s.intcOf n
  match k.reqs.find? (fun e => e.event = ev) with
  | none => s
  | some e =>
    match routeReq n e (List.range 8) s with
    | none => s
    | some s' => s'.modIntc n (fun k => { k with reqs := k.reqs.erase e })

/-- Free a position, writing 0xFFFF over EVENT of the record in memory (R376), and count it. -/
def dropRecord (c pos : Nat) (s : State) : State :=
  let s := erqWrite c (16 * pos) [0xFF, 0xFF] s
  let s := s.modCore c (fun k => { k with ev := { k.ev with erq := tdel k.ev.erq pos } })
  if c < 72 then bump (0x3013 + c / 8 * 256) 2 0 s else s

/-- A withdrawn LEVEL line's MASK bit is cleared, or its unmask deferred while its word is held. -/
def unmaskLine (n line : Nat) (s : State) : State :=
  let w := line / 32
  if wordHeld s n w then
    s.modIntc n (fun k => { k with unmasks := tset 0 k.unmasks w (setBit (tget 0 k.unmasks w) (line % 32)) })
  else s.modIntc n (fun k => clrMask k line)

/-- Withdraw the unclaimed record at a position when R376 asks for it, and route it again where R376
says so. -/
def withdrawRecord (c pos : Nat) (s : State) : State :=
  match tfind (s.core c).ev.erq pos with
  | none => s
  | some r =>
    if r.claimed ∨ 72 ≤ c then s
    else
      let n := c / 8
      let me := c % 8
      let k := s.intcOf n
      let rises := decide (r.level < runPriority (s.core c))
      if isReqEvent r.event then
        let gone := rises || (me = 0 && wduty s n)
        let others := (List.range 8).filter (fun x => x != me)
        let e : ReqEvent := { event := r.event, data := r.data, tRaise := r.tRaise }
        match routeReq n e others s with
        | none => s
        | some _ =>
          if gone then
            let s := markSlot n me r.event none (dropRecord c pos s)
            (routeReq n e others s).getD s
          else s
      else if lineKind k r.event = 1 ∧ !srcBit k r.event then
        unmaskLine n r.event (dropRecord c pos s)
      else if lineRoute k r.event = 1 ∧ rises then
        let cs := (targetCores k r.event).filter (fun x => x != me && hasPosition (s.core (n * 8 + x)) (n * 8 + x) r.event)
        match bestCore s n cs with
        | none => s
        | some x => pushRecord (n * 8 + x) r.event r.level r.count r.data r.tRaise (dropRecord c pos s)
      else s

/-- The unclaimed record of highest LEVEL, the oldest among equals: position and record (R378). -/
def bestRecord (q : Tab EvRec) : Option (Nat × EvRec) :=
  q.foldl (fun b e =>
    if e.2.claimed then b
    else match b with
      | none => some e
      | some b' => if b'.2.level < e.2.level ∨ (b'.2.level = e.2.level ∧ e.2.seq < b'.2.seq) then some e else b) none

/-- The level at which the core's interrupt is asserted (R378); 0 when it is not. -/
def irqLevel (k : Core) : Nat := match bestRecord k.ev.erq with | some e => e.2.level | none => 0

/-- A read of CLAIM (R378): the value, and the state in which the record is claimed. A claimed request
event's request is now run by the core. -/
def claimRead (c : Nat) (s : State) : Nat × State :=
  let k := s.core c
  match bestRecord k.ev.erq with
  | none => (0xFFFF * 2 ^ 16, if c < 72 then bump (0x3013 + c / 8 * 256) 3 0 s else s)
  | some (pos, r) =>
    let s := s.setCore c { k with ev := { k.ev with erq := tput k.ev.erq pos { r with claimed := true } } }
    let s := if c < 72 ∧ isReqEvent r.event then
        s.modReq (r.data % 2 ^ 18) (fun q => { q with stage := .running (c / 8) (some c), cgen := (s.chan (c / 8)).cgenInstalled }) else s
    (r.event * 2 ^ 16 + pos, s)

/-- A write to RELEASE frees a claimed record's position; any other is ignored and counted (R378). -/
def releaseWrite (c pos : Nat) (s : State) : State :=
  let k := s.core c
  match tfind k.ev.erq pos with
  | some r =>
    if r.claimed then s.setCore c { k with ev := { k.ev with erq := tdel k.ev.erq pos } }
    else if c < 72 then bump (0x3013 + c / 8 * 256) 6 0 s else s
  | none => if c < 72 then bump (0x3013 + c / 8 * 256) 6 0 s else s

/-- A software write to PEND[w] (R372): EDGE lines store the bit written, LEVEL lines ignore it, WAKE
lines are cleared by a 0. -/
def pendWrite (n w v : Nat) (s : State) : State :=
  let k := s.intcOf n
  let old := pendWord k w
  let edge := kindMask k w 0
  let nw := (v &&& edge) ||| (old &&& kindMask k w 1) ||| (old &&& v &&& kindMask k w 2)
  let raised := (List.range 32).foldl (fun t i =>
    if bit (v &&& edge) i && !bit old i then tput t (32 * w + i) (s.time % 2 ^ 32) else t) k.raisedAt
  s.setIntc n (setPendWord { k with raisedAt := raised } w nw)

/-- Does another core of the channel hold the word? -/
def heldByOther (s : State) (c w : Nat) : Bool :=
  (List.range 8).any (fun x => c / 8 * 8 + x != c && (s.core (c / 8 * 8 + x)).ev.holdGrant &&
    (s.core (c / 8 * 8 + x)).ev.holdWord.toNat = w)

/-- Deferred changes of a word apply when its hold ends (R382). -/
def applyDeferred (n w : Nat) (s : State) : State :=
  s.modIntc n (fun k =>
    let k := setPendWord k w (pendWord k w ||| tget 0 k.latched w)
    let k := setMaskWord k w ((List.range 32).foldl (fun m i => if bit (tget 0 k.unmasks w) i then clrBit m i else m) (maskWord k w))
    { k with latched := tset 0 k.latched w 0, unmasks := tset 0 k.unmasks w 0 })

/-- End a core's hold. -/
def holdEnd (c : Nat) (s : State) : State :=
  let k := s.core c
  if k.ev.holdGrant then
    applyDeferred (c / 8) k.ev.holdWord.toNat (s.setCore c { k with ev := { k.ev with holdGrant := false } })
  else s

/-- A write to HOLDW with EN set: at most one word per core; granted when no other core holds it. -/
def holdRequest (c w : Nat) (s : State) : State :=
  let k := s.core c
  if k.ev.holdGrant ∧ k.ev.holdWord.toNat = w then s
  else
    let s := holdEnd c s
    s.modCore c (fun k => { k with ev := { k.ev with
      holdEn := true, holdWord := BitVec.ofNat 4 w, holdGrant := decide (c < 72) && !heldByOther s c w } })

/-- A write to HOLDW with EN clear. -/
def holdRelease (c : Nat) (s : State) : State :=
  (holdEnd c s).modCore c (fun k => { k with ev := { k.ev with holdEn := false } })

/-- WAKE lines pending for a core, by line number. -/
def wakeLines (s : State) (c : Nat) : List Nat :=
  if c < 72 then
    [c % 8, 8 + c % 8, 16 + c % 8].filter (fun l => lineKind (s.intcOf (c / 8)) l = 2 && pendBit (s.intcOf (c / 8)) l)
  else []

/-- The wake condition of R379. -/
def wakeCond (s : State) (c : Nat) : Bool :=
  (bestRecord (s.core c).ev.erq).isSome || !(wakeLines s c).isEmpty

/-- The core leaves WAIT: PEND of its WAKE lines clears, and the instruction after WAIT is next. -/
def leaveWait (c : Nat) (s : State) : State :=
  let ls := wakeLines s c
  let s := if c < 72 then s.modIntc (c / 8) (fun k => ls.foldl clrPend k) else s
  s.modCore c (fun k => { k with run := .running, pc := k.pc + 8, status := { k.status with bprog := 0 } })

/-- Retention sleep (R385). -/
def retentionEnter (n : Nat) (s : State) : State :=
  if s.cfgB (0x3013 + n * 256) 1 then s.modIntc n (fun k => { k with retained := true }) else s

/-- Wake from retention sleep at the start of RETURNING: captured edges apply as raises. -/
def retentionExit (n : Nat) (s : State) : State :=
  s.modIntc n (fun k =>
    if k.retained then
      { k with retained := false, captured := [],
               pend := k.captured.foldl (fun p e => tset 0 p e.1 (tget 0 p e.1 ||| e.2)) k.pend }
    else k)

/-- Withdraw every unclaimed record of a channel (R376, third case); requests meet their own fate. -/
def withdrawAll (n : Nat) (s : State) : State :=
  (List.range 8).foldl (fun s i =>
    ((s.core (n * 8 + i)).ev.erq.filter (fun e => !e.2.claimed)).foldl (fun s e => dropRecord (n * 8 + i) e.1 s) s) s

/-- Channel reset: LINECFG, MASK and PEND take their reset values and every queue is empty (R372). -/
def resetIntc (n : Nat) (s : State) : State :=
  let s := (List.range 8).foldl (fun s i => s.modCore (n * 8 + i) (fun k => { k with ev := {} })) s
  s.setIntc n {}

/-- Level of a device event (Table 11-8). -/
def devLevel (ev : Nat) : Nat :=
  if 0x8000 ≤ ev ∧ ev ≤ 0x8008 then 9 else if 0x8010 ≤ ev ∧ ev ≤ 0x8018 then 11
  else if 0x8020 ≤ ev ∧ ev ≤ 0x8028 then 10 else if ev = 0x8030 then 5 else if ev = 0x8031 then 6
  else if ev = 0x8032 then 5 else if ev = 0x8040 ∨ ev = 0x8041 then 10
  else if 0x8050 ≤ ev ∧ ev ≤ 0x8052 then 8 else if 0x8058 ≤ ev ∧ ev ≤ 0x805B then 8
  else if ev = 0x8060 then 8 else if ev = 0x8061 ∨ ev = 0x8062 ∨ ev = 0x8070 then 7
  else if ev = 0x8071 then 10 else if ev = 0x8080 then 6 else if ev = 0x8081 then 10
  else if ev = 0x8090 then 6 else 0

/-- The device event controller writes one record to the supervisor's queue (R386). -/
def devRecord (s : State) : State :=
  match s.devEv with
  | [] => s
  | l :: t =>
    if hasPosition (s.core 0x50) 0x50 l.event then
      let s := pushRecord 0x50 l.event (devLevel l.event) l.count l.data l.tRaise { s with devEv := t }
      largest 0x9064 2 (s.core 0x50).ev.erq.length s
    else s

end Sys2Proof.Machine
end

