-- ==== Sys2Proof/Machine/KeyStore.lean ====
section
/-! DEFINITION. The key store (chapter 08): usage groups, the fetch of a key, slot and tenant records
written by configuration and by the data path, claims, and the key-store image. -/

namespace Sys2Proof.Machine

-- Algorithms and usages (Tables 08-4, 08-7, 08-8).

def isHmac (a : Nat) : Bool := (a / 256 = 3 || a / 256 = 4 || a / 256 = 5) && 0x10 ≤ a % 256 && a % 256 ≤ 0x30
def isSym (a : Nat) : Bool := isTdes a || isAes a || isHmac a

/-- PKALG values of Table 07-9 that a slot may hold. -/
def isPkalg (p : Nat) : Bool :=
  p = 0x01 || p = 0x02 || p = 0x03 || p = 0x04 || p = 0x10 || p = 0x11 || p = 0x12 || p = 0x20 || p = 0x21 || p = 0x22 ||
  p = 0x30 || p = 0x31 || p = 0x32
def isPrivate (a : Nat) : Bool := a / 256 = 0x10 && isPkalg (a % 256) && a % 256 != 0x04 && a % 256 != 0x10
def isPublic (a : Nat) : Bool := a / 256 = 0x11 && isPkalg (a % 256) && a % 256 != 0x04
def algKnown (a : Nat) : Bool := a = 0 || isSym a || isPrivate a || isPublic a || a = 0x2000

/-- Is a mask a subset of another, and not empty? -/
def subMask (u m : Nat) : Bool := u != 0 && u &&& m = u

/-- The group of Table 08-8 that a mask fits, 1 to 16; none when it fits none. -/
def usageGroup (u : Nat) : Option Nat :=
  if u = 0x2000 then some 9
  else if subMask u 0x3 then some 1
  else if subMask u 0xC then some 2
  else if subMask u 0x30 then some 3
  else if u = 0x40 then some 4
  else if subMask u 0x2080 ∧ bit u 7 then some 5
  else if u = 0x100 then some 6
  else if subMask u 0x600 then some 7
  else if subMask u 0x1800 then some 8
  else if subMask u 0xC000 then some 10
  else if u = 0x400000 then some 11
  else if subMask u 0x30000 then some 12
  else if u = 0x40000 then some 13
  else if subMask u 0x880000 then some 14
  else if u = 0x100000 then some 15
  else if u = 0x200000 then some 16
  else none

/-- Does a group allow an ALG, for a mask and tenant (Table 08-8)? -/
def groupAllows (g u alg tenant : Nat) : Bool :=
  match g with
  | 1 => isTdes alg || isAes alg
  | 2 => isTdes alg || isAes alg || isHmac alg
  | 3 => isTdes alg || isAes alg
  | 4 => alg = 0x110
  | 5 => alg = 0x110 || alg = 0x210 || alg = 0x220
  | 6 => alg = 0x110
  | 7 => isAes alg
  | 8 => isAes alg
  | 9 => alg = 0x110 || isAes alg
  | 10 => isAes alg
  | 11 => alg = 0x220
  | 12 =>
    alg = 0x1001 || alg = 0x1002 || alg = 0x1003 || alg = 0x1011 || alg = 0x1012 || alg = 0x1020 || alg = 0x1021 ||
    alg = 0x1022 || (u = 0x20000 && isPublic alg && !(0x30 ≤ alg % 256))
  | 13 => alg = 0x1002 && tenant = 0
  | 14 => alg = 0x1102 && (!bit u 23 || tenant = 0)
  | 15 => alg = 0x1121 || alg = 0x1102
  | 16 => alg = 0x1030 || alg = 0x1031 || alg = 0x1032 || alg = 0x1130 || alg = 0x1131 || alg = 0x1132
  | _ => false

/-- R273: the mask fits one group and the group allows the ALG. -/
def usageOk (u alg tenant : Nat) : Bool :=
  match usageGroup u with
  | some g => groupAllows g u alg tenant
  | none => false

/-- Ceremony usages (R274). -/
def ceremonyMask : Nat := 0x2000 + 0x4000 + 0x800 + 0x1000 + 0x10000 + 0x100000 + 0x40000 + 0x80000 + 0x800000
def hasCeremony (u : Nat) : Bool := u &&& ceremonyMask != 0

/-- The check value (R275), as 3 bytes. -/
def kcvOf (alg : Nat) (material pub : Bytes) : Nat :=
  if isTdes alg then beNat ((padTo 3 (blockE alg material (zeros 8))))
  else if isAes alg then beNat (padTo 3 (cmac alg material (zeros 16)))
  else if isHmac alg then beNat (padTo 3 (hmac (alg / 256 - 2) material []))
  else if alg = 0 then 0
  else beNat (padTo 3 (digest 1 pub 0))

-- The key cache (R281, R282, R284).

def State.updKs (s : State) (f : KeyStore → KeyStore) : State := { s with ks := f s.ks }
def resident (s : State) (i : Nat) : Bool := s.ks.cache.contains i

/-- A change to the key store (R297). -/
def ksChanged (s : State) : State := s.updKs (fun k => { k with changed := true })

/-- Slots that a running or queued request holds in the cache (R281). -/
def heldSlots (s : State) : List Nat :=
  s.chans.flatMap (fun c => c.2.ctxs.flatMap (fun x => x.2.fetched)) ++
  s.reqs.flatMap (fun r => if r.2.within then [r.2.hdr.slot0, r.2.hdr.slot1, r.2.hdr.slot2, r.2.hdr.slot3].take r.2.hdr.nslot else [])

/-- May an entry be replaced? Pinned entries and held entries may not. -/
def replaceable (s : State) (i : Nat) : Bool := !(s.slot i).pinned && !(heldSlots s).contains i

/-- Use of a resident entry, or its fill: the entry becomes the most recently used, and at 65,536 entries
the least recently used that may be replaced leaves (R281). -/
def cacheTouch (i : Nat) (s : State) : State :=
  let c := i :: s.ks.cache.filter (fun x => !(x == i))
  let c := if 65536 < c.length then
      (match c.reverse.find? (fun x => x != i && replaceable s x) with
       | some v => c.filter (fun x => !(x == v))
       | none => c)
    else c
  s.updKs (fun k => { k with cache := c })

/-- A tenant key becomes resident in the tenant key cache of 4,096. -/
def tkTouch (t : Nat) (s : State) : State :=
  s.updKs (fun k => { k with tkCache := (t :: k.tkCache.filter (fun x => !(x == t))).take 4096 })

/-- A record integrity failure (R276). -/
def recordMacFailure (s : State) : State := (countFault 8 0 2 (bump 0x9054 4 0 s)).1

/-- Fill an entry from protected DDR; false when its record does not verify. -/
def fillEntry (i : Nat) (s : State) : State × Bool :=
  if (s.slot i).macBad then (recordMacFailure s, false)
  else (cacheTouch i (tkTouch (s.slot i).tenant (bump 0x9054 2 0 s)), true)

-- The fetch (R277, R278).

/-- Outcome of a fetch: the slot's record as served, or a status of the 0x02xx group. -/
inductive Fetch where
  | ok (k : Slot) (s : State)
  | fail (status : Nat) (s : State)

/-- A Patina entry of the key store (Table 15-9). -/
def keyLog (code slot tenant : Nat) (s : State) : State := logEntry 0x500 code (leBytes 4 slot ++ leBytes 2 tenant) s

/-- May images be taken: both buffers have a bus address? -/
def imageBuffers (s : State) : Bool := s.cfg 0x5008 4 != 0 && s.cfg 0x5008 5 != 0

/-- A snapshot of the key store as an image (R297). -/
def snapshot (gen : Nat) (s : State) : KsImage :=
  { gen := gen, mkid := s.ks.mkid, mkgen := s.ks.mkgen, tenants := s.ks.tenants, slots := s.ks.slots }

/-- Start an image: a snapshot of the key store. Without both buffers it fails at once (R297). -/
def startImage (forCommit : Bool) (s : State) : State :=
  if s.ks.image.isSome then s
  else if !imageBuffers s then devEvent 0x8090 1 s
  else
    let gen := (match s.ks.anchor with | some a => a.gen | none => 0) + 1
    let uses := (s.ks.slots.filter (fun e => e.2.useLimit != 0)).map (fun e => (e.1, e.2.uses))
    let s := useFree (s.updKs (fun k => { k with
      image := some { gen := gen, digest := freeBytes 48 s, buffer := k.nextBuffer, forCommit := forCommit, uses := uses, content := snapshot gen s },
      changed := false, dirty := [], lastImage := s.time }))
    s

/-- The usage counter step of R277 on a slot, at the first fetch of a context. -/
def countUse (i : Nat) (s : State) : Fetch :=
  let k := s.slot i
  let mark (s : State) : State :=
    ksChanged (s.updKs (fun q => { q with dirty := if q.dirty.contains i then q.dirty else q.dirty ++ [i] }))
  if k.useLimit = 0 then
    if k.uses < 2 ^ 32 - 1 then
      let k := { k with uses := k.uses + 1 }
      .ok k (mark (s.setSlot i k))
    else if !k.cntOvf then
      let k := { k with cntOvf := true }
      .ok k (bump 0x9054 6 0 (devEvent 0x8032 i (keyLog 2 i k.tenant (mark (s.setSlot i k)))))
    else .ok k s
  else if k.state = .blocked ∨ k.useLimit ≤ k.uses then .fail 0x0205 s
  else if s.ks.anchor.isSome ∧ s.cfg 0x5009 1 ≤ k.uses - k.usesImaged then .fail 0x0205 s
  else
    let k := { k with uses := k.uses + 1, state := if k.uses + 1 = k.useLimit then SlotState.blocked else k.state }
    let s := mark (s.setSlot i k)
    let s := if s.ks.anchor.isSome ∧ 2 * (k.uses - k.usesImaged) = s.cfg 0x5009 1 then startImage false s else s
    if k.state = .blocked then .ok k (bump 0x9054 5 0 (devEvent 0x8031 i (keyLog 1 i k.tenant s))) else .ok k s

/-- A refusal is counted (OD 0x9054.03). -/
def fetchRefused (status : Nat) (s : State) : Fetch :=
  .fail status (if 0x0201 ≤ status ∧ status ≤ 0x0205 then bump 0x9054 3 0 s else s)

/-- The checks of R277 on slot `i` for a tenant. `first`: count the use; `suits`: does the algorithm suit
the operation; `usage`: the required usage bits. Residency is the caller's. -/
def fetchChecks (i tenant usage : Nat) (suits : Nat → Bool) (first : Bool) (s : State) : Fetch :=
  let k := s.slot i
  if !s.ks.rootsPresent then fetchRefused 0x0201 s
  else if k.state = .unassigned ∨ k.state = .empty ∨ k.state = .reserved then fetchRefused 0x0201 s
  else if k.tenant ≠ tenant then fetchRefused 0x0202 s
  else if (s.tenant k.tenant).state ≠ .active then fetchRefused 0x0201 s
  else if k.usage &&& usage ≠ usage then fetchRefused 0x0203 s
  else if !suits (if k.blob then k.keyAlg else k.alg) then fetchRefused 0x0208 s
  else if s.time < k.notBefore ∨ (k.notAfter ≠ 2 ^ 64 - 1 ∧ k.notAfter ≤ s.time) then fetchRefused 0x0204 s
  else if first then
    match countUse i s with
    | .ok k s => .ok k s
    | .fail st s => fetchRefused st s
  else .ok k s

/-- Has the context of a channel fetched the slot before? -/
def fetchedBefore (s : State) (n x i : Nat) : Bool := (tget {} (s.chan n).ctxs x).fetched.contains i

/-- Note a slot's first fetch in a context. -/
def noteFetched (n x i : Nat) (s : State) : State :=
  s.modChan n (fun c =>
    let t := tget {} c.ctxs x
    if t.fetched.contains i then c else { c with ctxs := tset {} c.ctxs x { t with fetched := t.fetched ++ [i] } })

/-- One fetch for request context `x` of channel `n`, with its fill when the entry is not resident
(R277): a BLOB record takes its protection key through the same checks with UNWRAP. -/
def fetchSlot (n x i tenant usage : Nat) (suits : Nat → Bool) (s : State) : Fetch :=
  let (s, good) := if resident s i then (cacheTouch i (bump 0x9054 1 0 s), true) else fillEntry i s
  if !good then .fail 0x0206 s
  else
    match fetchChecks i tenant usage suits (!fetchedBefore s n x i) s with
    | .fail st s => .fail st s
    | .ok k s =>
      let s := noteFetched n x i s
      if k.blob then
        let p := k.kbpkSlot
        let (s, good) := if resident s p then (cacheTouch p (bump 0x9054 1 0 s), true) else fillEntry p s
        if !good then .fail 0x0206 s
        else
          match fetchChecks p tenant 0x8000 isAes (!fetchedBefore s n x p) s with
          | .fail st s => .fail st s
          | .ok pk s =>
            match kbUnwrap pk.material k.keyBlock with
            | some m => .ok { k with alg := k.keyAlg, material := m } (noteFetched n x p s)
            | none => .fail 0x0209 (noteFetched n x p s)
      else .ok k s

/-- Is a tenant's header key usable (R267)? -/
def headerKey (s : State) (t : Nat) : Option Bytes :=
  let r := s.tenant t
  let k := s.slot r.headerSlot
  if (r.state = .active ∨ r.state = .suspended) ∧ k.tenant = t ∧ k.state = .active ∧ k.alg = 0x220 ∧ bit k.usage 22 ∧
      k.notBefore ≤ s.time ∧ (k.notAfter = 2 ^ 64 - 1 ∨ s.time < k.notAfter) ∧ k.useLimit = 0 ∧ s.ks.rootsPresent then
    some k.material
  else none

-- Writing slots.

/-- A policy block (Table 08-11). -/
structure Policy where
  alg : Nat
  pflags : Nat
  rsv : Nat
  usage : Nat
  useLimit : Nat
  notBefore : Nat
  notAfter : Nat
deriving DecidableEq, Repr

def Policy.ofBytes (b : Bytes) : Policy :=
  { alg := leAt b 0 2, pflags := leAt b 2 1, rsv := leAt b 3 1 + leAt b 12 4, usage := leAt b 4 4, useLimit := leAt b 8 4,
    notBefore := leAt b 16 8, notAfter := leAt b 24 8 }

/-- Format of a policy block. -/
def Policy.formatOk (p : Policy) : Bool :=
  p.rsv = 0 && p.pflags < 8 && p.usage < 2 ^ 24 && algKnown p.alg && p.notBefore ≤ p.notAfter

/-- R268: may a blob-mode tenant hold this direct record? -/
def blobAllowsDirect (alg usage : Nat) : Bool := isPrivate alg || isPublic alg || usage = 0x400000 || usage = 0x8000

/-- Rules that every written policy meets: R273, and EXPORTABLE and REPLICATED of R287. -/
def policyReason (p : Policy) (tenant : Nat) : Option Nat :=
  if p.rsv ≠ 0 ∨ 8 ≤ p.pflags ∨ 2 ^ 24 ≤ p.usage then some 6
  else if !p.formatOk then some 1
  else if !usageOk p.usage p.alg tenant then some 1
  else if bit p.pflags 0 && !isSym p.alg then some 3
  else if bit p.pflags 1 && p.useLimit != 0 then some 3
  else none

/-- The next free extension or key-block index. -/
def freeExt (s : State) (blob : Bool) : Nat :=
  let used := (s.ks.slots.filter (fun e => if blob then e.2.blob else e.2.ext)).map (fun e => e.2.extIndex)
  ((List.range (used.length + 1)).find? (fun i => !used.contains i)).getD 0

/-- Does material of an ALG lie in the extension (R270)? -/
def needsExt (alg : Nat) : Bool := isPublic alg || (isPrivate alg && (alg % 256 = 0x11 || alg % 256 = 0x12 || 0x30 ≤ alg % 256))

/-- A slot with a new key under a policy. -/
def newKey (k : Slot) (p : Policy) (ksrc : Nat) (material pub : Bytes) (s : State) : Slot :=
  let ext := needsExt p.alg
  { k with
    state := .active, alg := p.alg, ext := ext, blob := false, pinned := bit p.pflags 2, replicated := bit p.pflags 1,
    exportable := bit p.pflags 0, usage := p.usage, kcv := kcvOf p.alg material pub, ksrc := ksrc, uses := 0,
    useLimit := p.useLimit, notBefore := p.notBefore, notAfter := p.notAfter, version := k.version + 1,
    extIndex := if ext then freeExt s false else 0, material := material, pub := pub, keyBlock := [], macBad := false,
    cntOvf := false, usesImaged := 0, claim := none, mkg := (s.tenant k.tenant).mkg }

/-- An EMPTY slot of the same tenant. -/
def emptied (k : Slot) : Slot := { state := .empty, tenant := k.tenant, mkg := k.mkg }

/-- Fields of a key block header: version, usage, algorithm, mode of use, exportability (R214, R287). -/
def kbUsage (b : Bytes) : Nat := beNat (slice b 5 2)
def kbAlg (b : Bytes) : Nat := leAt b 7 1
def kbMode (b : Bytes) : Nat := leAt b 8 1
def kbExport (b : Bytes) : Nat := leAt b 11 1

/-- Usage bits that a key block header allows (Table 08-12); the mask must be one of them. -/
def kbUsageAllows (b : Bytes) (u : Nat) : Bool :=
  let m := kbMode b
  let eb (e d both : Nat) : Bool :=
    (m = 0x45 && u = e) || (m = 0x44 && u = d) || (m = 0x42 && u = both)
  match kbUsage b with
  | 0x4230 => m = 0x58 && subMask u 0x1800
  | 0x4330 => (m = 0x43 || m = 0x47 || m = 0x56) && u = 0x100
  | 0x4430 => eb 1 2 3
  | 0x4530 => m = 0x58 && subMask u 0x2080
  | 0x4B30 | 0x4B31 => eb 0x4000 0x8000 0xC000
  | 0x4D31 | 0x4D33 | 0x4D36 | 0x4D37 => (m = 0x47 && u = 4) || (m = 0x56 && u = 8) || (m = 0x43 && u = 0xC)
  | 0x5030 => eb 0x20 0x10 0x30
  | 0x5631 | 0x5632 => (m = 0x56 || m = 0x43) && u = 0x40
  | _ => false

/-- Does the header's algorithm agree with ALG? -/
def kbAlgAllows (b : Bytes) (alg : Nat) : Bool :=
  (kbAlg b = 0x54 && isTdes alg) || (kbAlg b = 0x41 && isAes alg) || (kbAlg b = 0x48 && isHmac alg)

/-- A slot write record (Table 08-10). -/
structure SlotWrite where
  slot : Nat
  wop : Nat
  rsv : Nat
  aux : Nat
  policy : Policy
  policyZero : Bool
  data : Bytes
deriving DecidableEq, Repr

def SlotWrite.ofBytes (b : Bytes) : SlotWrite :=
  { slot := leAt b 0 4, wop := leAt b 4 1, rsv := leAt b 5 1 + leAt b 12 4, aux := leAt b 8 4,
    policy := Policy.ofBytes (slice b 16 32), policyZero := allZero (slice b 16 32), data := slice b 48 (leAt b 6 2) }

/-- Cut an octet string of slot write records into records (Table 08-10). -/
def slotRecords : Nat → Bytes → List SlotWrite
  | 0, _ => []
  | fuel + 1, b =>
    if b.length < 48 then []
    else
      let n := 48 + (leAt b 6 2 + 7) / 8 * 8
      SlotWrite.ofBytes (b.take n) :: slotRecords fuel (b.drop n)

/-- Fresh key material from the key fetch unit's generator: a free value. -/
def drawKey (n : Nat) (s : State) : Bytes × State := (freeBytes n s, useFree s)

/-- IMPORT of a key block (R287). `ceremony`: ceremony usages enter by import as well (R274). -/
def importKey (w : SlotWrite) (k : Slot) (s : State) : Except Nat State :=
  let aux := s.slot w.aux
  let p := w.policy
  if aux.tenant ≠ k.tenant ∨ aux.state ≠ .active ∨ !bit aux.usage 15 then .error 3
  else if w.data.length < 16 ∨ 1024 < w.data.length then .error 1
  else if leAt w.data 0 1 ≠ 0x44 ∨ !kbAlgAllows w.data p.alg ∨ !kbUsageAllows w.data p.usage then .error 1
  else if bit p.pflags 0 ∧ kbExport w.data ≠ 0x45 then .error 3
  else
    match kbUnwrap aux.material w.data with
    | none => .error 1
    | some m =>
      if m.length ≠ algBytes p.alg then .error 1
      else
        let blob := (s.tenant k.tenant).blob && !blobAllowsDirect p.alg p.usage
        let k' := newKey k p 2 m [] s
        if blob then
          .ok (s.setSlot w.slot { k' with
            alg := 0x2000, keyAlg := p.alg, blob := true, kbpkSlot := w.aux,
            keyBlock := w.data, material := [], extIndex := freeExt s true })
        else .ok (s.setSlot w.slot k')

/-- One slot write record applied (R273, R274, R287): the new state, or REASON. `ceremony`: made inside a
key ceremony, which may write ceremony usages (R274). -/
def applySlotWrite (ceremony : Bool) (w : SlotWrite) (s : State) : Except Nat State :=
  let k := s.slot w.slot
  let p := w.policy
  if 2 ^ 21 ≤ w.slot ∨ w.rsv ≠ 0 then .error 6
  else if w.wop = 0 ∨ 5 < w.wop then .error 1
  else if w.wop ≠ 5 ∧ bit p.pflags 1 ∧ !(s.tenant k.tenant).replicated then .error 3
  else if k.state = .reserved then .error 3
  else if k.state = .unassigned then .error 3
  else if w.wop = 5 then
    if !w.policyZero then .error 1
    else if k.state = .empty then .ok s
    else .ok (ksChanged (s.setSlot w.slot (emptied k)))
  else if w.wop = 4 then
    if k.state = .empty then .error 3
    else
      let alg := if k.blob then k.keyAlg else k.alg
      match policyReason p k.tenant with
      | some r => .error r
      | none =>
        if p.alg ≠ alg then .error 1
        else if usageGroup p.usage ≠ usageGroup k.usage then .error 3
        else if hasCeremony (p.usage &&& (2 ^ 24 - 1 - k.usage)) then .error 3
        else if p.useLimit ≠ 0 ∧ p.useLimit < k.uses then .error 1
        else if bit p.pflags 2 ∧ k.ext then .error 3
        else
          let st := if p.useLimit ≠ 0 ∧ p.useLimit = k.uses then SlotState.blocked else SlotState.active
          let s := s.setSlot w.slot { k with
            usage := p.usage, useLimit := p.useLimit, notBefore := p.notBefore, notAfter := p.notAfter,
            exportable := bit p.pflags 0, replicated := bit p.pflags 1, pinned := bit p.pflags 2, state := st,
            version := k.version + 1 }
          let s := if st = .blocked then bump 0x9054 5 0 (devEvent 0x8031 w.slot (keyLog 1 w.slot k.tenant s)) else s
          .ok (ksChanged s)
  else if k.state ≠ .empty then .error 3
  else
    match policyReason p k.tenant with
    | some r => .error r
    | none =>
      let blobMode := (s.tenant k.tenant).blob
      if bit p.pflags 2 ∧ needsExt p.alg then .error 3
      else if w.wop = 1 then
        if hasCeremony p.usage ∧ !ceremony then .error 3
        else if !(isSym p.alg || isPrivate p.alg) then .error 1
        else if blobMode ∧ !blobAllowsDirect p.alg p.usage then .error 3
        else
          let (m, s) := drawKey (if isSym p.alg then algBytes p.alg else pkDraw (p.alg % 256)) s
          let m := if isSym p.alg then m else pkMaterial (p.alg % 256) m
          let pub := if isSym p.alg then [] else pkPublic (p.alg % 256) m
          .ok (ksChanged (s.setSlot w.slot (newKey k p 1 m pub s)))
      else if w.wop = 2 then
        match importKey w k s with
        | .ok s => .ok (ksChanged s)
        | .error r => .error r
      else
        if hasCeremony p.usage ∧ !ceremony then .error 3
        else if !isPublic p.alg ∨ !pkValid (p.alg % 256) w.data then .error 1
        else .ok (ksChanged (s.setSlot w.slot (newKey k p 6 [] w.data s)))

/-- Slots of a range (R286). -/
def rangeSlots (first count : Nat) : List Nat := (List.range count).map (fun i => first + i)

/-- Slots assigned to a tenant. -/
def assignedTo (s : State) (t : Nat) : Nat :=
  (s.ks.slots.filter (fun e => e.2.state != .unassigned && e.2.tenant == t)).length

/-- An assignment record (R286): the new state, or REASON. -/
def applyAssign (b : Bytes) (s : State) : Except Nat State :=
  let first := leAt b 0 4
  let count := leAt b 4 4
  let t := leAt b 8 2
  if !allZero (slice b 10 6) then .error 6
  else if count = 0 ∨ 2 ^ 21 < first + count then .error 1
  else
    let ss := rangeSlots first count
    if t = 0xFFFF then
      if ss.all (fun i => (s.slot i).state = .empty || (s.slot i).state = .unassigned) then
        .ok (ksChanged (ss.foldl (fun s i =>
          let k := s.slot i
          if k.state = .unassigned then s
          else
            let r := s.tenant k.tenant
            (s.setSlot i {}).setTenant k.tenant { r with assigned := r.assigned - 1 }) s))
      else .error 3
    else if (s.tenant t).state = .absent ∨ (s.tenant t).state = .deleting then .error 3
    else if !ss.all (fun i => (s.slot i).state = .unassigned || (s.slot i).tenant = t) then .error 3
    else
      let fresh := ss.filter (fun i => (s.slot i).state = .unassigned)
      let r := s.tenant t
      if r.quota < r.assigned + fresh.length then .error 4
      else
        let s := fresh.foldl (fun s i => s.setSlot i { state := .empty, tenant := t, mkg := r.mkg }) s
        .ok (ksChanged (s.setTenant t { r with assigned := r.assigned + fresh.length }))

/-- A tenant record (R266): the new state, or REASON 0x03 where it does not fit the tenant's state. -/
def applyTenant (b : Bytes) (s : State) : Except Nat State :=
  let t := leAt b 0 2
  let top := leAt b 2 1
  let arg := leAt b 4 4
  let r := s.tenant t
  let live := r.state = .active ∨ r.state = .suspended
  let upd (r : Tenant) : Except Nat State := .ok (ksChanged (s.setTenant t { r with version := r.version + 1 }))
  if leAt b 3 1 ≠ 0 ∨ !allZero (slice b 8 8) then .error 6
  else if top = 0 ∨ 8 < top then .error 1
  else
    match top with
    | 1 =>
      if r.state ≠ .absent then .error 3
      else
        let (tk, s) := drawKey 32 s
        .ok (ksChanged (s.setTenant t { state := .active, tk := tk, created := s.time, version := 1, mkgen := s.ks.mkgen }))
    | 2 => if r.state = .active then upd { r with state := .suspended } else .error 3
    | 3 => if r.state = .suspended then upd { r with state := .active } else .error 3
    | 4 =>
      if live ∧ t ≠ 0 then
        .ok (ksChanged ((s.setTenant t { r with state := .deleting, tk := [], version := r.version + 1 }).updKs
          (fun k => { k with scrubs := k.scrubs ++ [t] })))
      else .error 3
    | 5 => if live ∧ arg < 2 ^ 21 then upd { r with headerSlot := arg } else .error 3
    | 6 => if live ∧ r.assigned ≤ arg ∧ arg ≤ 2 ^ 21 then upd { r with quota := arg } else .error 3
    | 7 =>
      if live ∧ !r.blob ∧ s.ks.slots.all (fun e => e.2.tenant != t || e.2.state = .unassigned || e.2.state = .empty ||
          blobAllowsDirect e.2.alg e.2.usage) then upd { r with blob := true }
      else .error 3
    | _ =>
      if live ∧ r.blob ∧ s.ks.slots.all (fun e => e.2.tenant != t || !e.2.blob) then upd { r with blob := false }
      else .error 3

/-- Records of a fixed length in an octet string. -/
def records (n : Nat) : Nat → Bytes → List Bytes
  | 0, _ => []
  | fuel + 1, b => if b.length < n ∨ n = 0 then [] else b.take n :: records n fuel (b.drop n)

/-- Apply records in order, stopping at the first REASON. -/
def applyAll {α : Type} (f : α → State → Except Nat State) : List α → State → Except Nat State
  | [], s => .ok s
  | r :: t, s => match f r s with | .ok s => applyAll f t s | .error e => .error e

/-- The pin limit holds (R284). -/
def pinsOk (s : State) : Bool :=
  (s.ks.slots.filter (fun e => e.2.pinned)).length ≤ s.cfg 0x5002 1 &&
  (s.ks.slots.filter (fun e => e.2.pinned && e.2.blob)).length ≤ 4096

/-- Is the change from one key store to another restrictive (R298)? -/
def restrictive (a b : KeyStore) : Bool :=
  a.slots.any (fun e =>
    let o := e.2
    let n := tget {} b.slots e.1
    let had := o.state = .active || o.state = .blocked
    (had && (n.state = .empty || n.state = .unassigned)) ||
    (o.state = .empty && n.state = .unassigned) ||
    (had && (n.state = .active || n.state = .blocked) &&
      (o.usage &&& n.usage != o.usage || o.notBefore < n.notBefore || n.notAfter < o.notAfter ||
       (n.useLimit != 0 && (o.useLimit = 0 || n.useLimit < o.useLimit)) || (o.exportable && !n.exportable)))) ||
  a.tenants.any (fun e =>
    let n := tget {} b.tenants e.1
    (e.2.state = .active && (n.state = .suspended || n.state = .deleting)) ||
    (e.2.state = .suspended && n.state = .deleting))

-- The image (R297 to R300).

/-- An image has been written and read back, and is anchored; or it failed (R297). -/
def endImage (ok : Bool) (s : State) : State :=
  match s.ks.image with
  | none => s
  | some j =>
    let s := s.updKs (fun k => { k with image := none })
    if ok && imageBuffers s then
      let s := s.updKs (fun k => { k with
        anchor := some { gen := j.gen, digest := j.digest }, nextBuffer := 1 - j.buffer,
        bufferA := if j.buffer = 0 then some j.content else k.bufferA,
        bufferB := if j.buffer = 0 then k.bufferB else some j.content,
        slots := k.slots.map (fun e => match j.uses.find? (fun u => u.1 = e.1) with
          | some u => (e.1, { e.2 with usesImaged := u.2 })
          | none => e) })
      devEvent 0x8090 0 s
    else devEvent 0x8090 1 (ksChanged s)

/-- The tables of an image come into force (R299, R300): USES resumes at the imaged value plus the reserve, and a
RESERVED slot is EMPTY. -/
def installImage (i : KsImage) (s : State) : State :=
  s.updKs (fun k => { k with
    tenants := i.tenants, missing := false, mkgen := i.mkgen,
    slots := i.slots.map (fun e => (e.1, { e.2 with
      uses := if e.2.useLimit = 0 then e.2.uses else Nat.min e.2.useLimit (e.2.uses + s.cfg 0x5009 1), usesImaged := e.2.uses,
      claim := none, state := if e.2.state = .reserved then .empty else e.2.state })),
    cache := [], tkCache := [], fills := [], fillQueue := [] })

/-- Key-store state (OD 0x5000.01). -/
def ksState (s : State) : Nat :=
  if s.ks.zeroized then 4 else if s.ks.rollover then 3 else if s.ks.missing then 2
  else if s.ks.tenants = [] ∧ s.ks.slots = [] then 0 else 1

/-- A root key of a master key word (R263). -/
def rootOf (w : BitVec 256) (label : Bytes) (mkgen : Nat) : BitVec 256 :=
  BitVec.ofNat 256 (leNat (kdf108 0x220 (leBytes 32 w.toNat) label (leBytes 4 mkgen) 32))

/-- "AX9640 storage root", "AX9640 integrity root" and "AX9640 master identity" in ASCII. -/
def labelStorage : Bytes := [0x41, 0x58, 0x39, 0x36, 0x34, 0x30, 0x20, 0x73, 0x74, 0x6F, 0x72, 0x61, 0x67, 0x65, 0x20, 0x72, 0x6F, 0x6F, 0x74]
def labelIntegrity : Bytes :=
  [0x41, 0x58, 0x39, 0x36, 0x34, 0x30, 0x20, 0x69, 0x6E, 0x74, 0x65, 0x67, 0x72, 0x69, 0x74, 0x79, 0x20, 0x72, 0x6F, 0x6F, 0x74]
def labelIdentity : Bytes :=
  [0x41, 0x58, 0x39, 0x36, 0x34, 0x30, 0x20, 0x6D, 0x61, 0x73, 0x74, 0x65, 0x72, 0x20, 0x69, 0x64, 0x65, 0x6E, 0x74, 0x69, 0x74, 0x79]

/-- The Plinth derives the roots and the master key identity and sends the roots (R263). A part without a
master key has none (R262). -/
def deriveRoots (s : State) : State :=
  s.updKs (fun k =>
    if k.w0 = 0 ∧ k.w1 = 0 then k
    else { k with rootS := rootOf k.w0 labelStorage k.mkgen, rootI := rootOf k.w1 labelIntegrity k.mkgen, rootsPresent := true,
                  mkid := (cmac 0x220 (leBytes 32 k.w1.toNat) labelIdentity).take 8 })

/-- L3 at the key fetch unit (R301): shares, tenant keys, roots and fills are cleared, claims released. -/
def clearKeyFetch (s : State) : State :=
  let s := s.updKs (fun k => { k with
    cache := [], tkCache := [], fills := [], fillQueue := [], rootS := 0, rootI := 0, rootsPresent := false,
    slots := k.slots.map (fun e => if e.2.state = .reserved then (e.1, { e.2 with state := .empty, claim := none }) else e) })
  { s with chans := s.chans.map (fun c => (c.1, { c.2 with ctxs := c.2.ctxs.map (fun x => (x.1, { x.2 with claims := [] })) })) }

-- Claims (R288).

/-- Claim a slot for context `x` of channel `n`: RESULT of Table 08-14, and the state. -/
def claimSlot (n x i tenant : Nat) (policy : Bytes) (s : State) : Nat × State :=
  let k := s.slot i
  let p := Policy.ofBytes policy
  let c := tget {} (s.chan n).ctxs x
  if 2 ≤ c.claims.length then (0x0410, s)
  else if !p.formatOk then (0x0405, s)
  else if k.state = .unassigned then (0x0201, s)
  else if k.tenant ≠ tenant then (0x0202, s)
  else if k.state ≠ .empty then (0x040E, s)
  else if !usageOk p.usage p.alg tenant ∨ hasCeremony p.usage ∨ ((s.tenant tenant).blob ∧ !blobAllowsDirect p.alg p.usage) then
    (0x0203, s)
  else
    (0, (s.setSlot i { k with state := .reserved, claim := some (n * 16 + x) }).modChan n (fun ch =>
      { ch with ctxs := tset {} ch.ctxs x { c with claims := c.claims ++ [(i, policy)] } }))

/-- End a claim without a write: the slot returns to EMPTY. -/
def releaseClaim (n x i : Nat) (s : State) : State :=
  let k := s.slot i
  let s := if k.state = .reserved ∧ k.claim = some (n * 16 + x) then s.setSlot i { k with state := .empty, claim := none } else s
  s.modChan n (fun ch =>
    let c := tget {} ch.ctxs x
    { ch with ctxs := tset {} ch.ctxs x { c with claims := c.claims.filter (fun e => !(e.1 == i)) } })

/-- A SLOT output into a claimed slot (R289): CSTAT, and the state. -/
def writeClaimed (n x i : Nat) (h : Handle) (ksrc : Nat) (s : State) : Nat × State :=
  let c := tget {} (s.chan n).ctxs x
  match c.claims.find? (fun e => e.1 = i) with
  | none => (2, s)
  | some (_, pol) =>
    let p := Policy.ofBytes pol
    if p.alg ≠ h.alg then (3, s)
    else
      let k := s.slot i
      let p' := { p with pflags := b2n (bit p.pflags 0 && h.exportable) }
      let k' := { newKey k p' ksrc h.material [] s with version := 1 }
      (0, ksChanged (releaseClaim n x i (s.setSlot i k')))

/-- A context is released with its request: handles cleared, claims ended (R203, R226, R288). -/
def releaseCtx (n x : Nat) (s : State) : State :=
  let s := ((tget {} (s.chan n).ctxs x).claims).foldl (fun s e => releaseClaim n x e.1 s) s
  s.modChan n (fun c => { c with ctxs := tdel c.ctxs x })

/-- Strength for exporting (Table 08-15). -/
def exportStrength (alg : Nat) : Nat :=
  if alg = 0x110 then 80 else if alg = 0x118 then 112 else if isAes alg then 8 * algBytes alg
  else if isHmac alg then Nat.min 256 (8 * algBytes alg) else 0

end Sys2Proof.Machine
end

