-- ==== Sys2Proof/Machine/Engine.lean ====
section
/-! DEFINITION. The hand-over of work to the cipher cells, digest engines and public-key engines of a
channel (chapters 06 and 07): request contexts, descriptor checks, cell allocation, key fetches, and the
SUBMIT, DSUBMIT, PSUBMIT and SLOTCLAIM registers. -/

namespace Sys2Proof.Machine

/-- Index of a channel's entry OD 0x3nkk. -/
def chIdx (n k : Nat) : Nat := 0x3000 + 0x100 * n + k

-- Request contexts (R203, log 18).

/-- The request that a core works for, and whether it is its C0 request. -/
def workReq (s : State) (c : Nat) : Option (Nat × Bool) :=
  let sl := tget {} (s.chan (c / 8)).slots (c % 8)
  let claimed (r : Nat) : Bool :=
    match s.req? r with
    | some q => match q.stage with | .running _ (some x) => x = c | _ => false
    | none => false
  match sl.c0 with
  | some r => if claimed r then some (r, true) else (sl.n.filter claimed).map (fun r => (r, false))
  | none => (sl.n.filter claimed).map (fun r => (r, false))

/-- The context for which a core hands over work, and whether it is a C0 context. -/
def ctxNow (s : State) (c : Nat) : Nat × Bool :=
  match workReq s c with
  | some (r, b) => (match s.req? r with | some q => (q.ctx, b) | none => (c % 8, b))
  | none => (c % 8, false)

/-- The request behind a context of a channel. -/
def ctxReq (s : State) (n x : Nat) : Option Request :=
  (s.reqs.find? (fun e => e.2.ctx = x && (match e.2.stage with | .running m _ => m = n | _ => false))).map (fun e => e.2)

/-- Header of a context's request; a context without a request has no slot references. -/
def ctxHdr (s : State) (n x : Nat) : Header := match ctxReq s n x with | some q => q.hdr | none => {}

/-- Slot named by reference `i` of a header. -/
def Header.slotRef (h : Header) (i : Nat) : Nat :=
  match i with | 0 => h.slot0 | 1 => h.slot1 | 2 => h.slot2 | _ => h.slot3

/-- Does a context run a built-in service image? -/
def builtin (h : Header) : Bool := h.service < 0x8000

/-- The SRAM area of a context: 256 KiB at 256 KiB times its number. DESIGN CHOICE (log 18). -/
def areaSize : Nat := 0x40000
def ctxBytes (s : State) (n x off len : Nat) : Bytes := s.memRead (memKey (.sram n (areaSize * x + off))) len
def ctxPut (n x off : Nat) (b : Bytes) (s : State) : State := putTarget (.sram n (areaSize * x + off)) b s
def inArea (off len : Nat) : Bool := off + len ≤ areaSize

-- Cells (R217 to R220).

/-- Cells that hold a key of an operation in flight. -/
def busyCells (e : Engines) : List Nat := e.cipher.flatMap (fun j => j.cells)

/-- The free cells of a channel, ascending (R217). -/
def freeCells (s : State) (n : Nat) : List Nat :=
  let e := s.engOf n
  let busy := busyCells e
  let ka := e.cipher.filterMap (fun j => match j.decoy with | some (c, true) => some c | _ => none)
  if (s.chan n).data = .restTest then []
  else (List.range 512).filter (fun c => !e.retired.contains c && !busy.contains c && !ka.contains c)

/-- Draw `k` cells (R218): each takes the cell of rank floor(r * free / 2^32) for 32 random bits r. -/
def drawCells : Nat → List Nat → State → List Nat × State
  | 0, _, s => ([], s)
  | k + 1, free, s =>
    if free.isEmpty then ([], s)
    else
      let c := free.getD (freeNat (2 ^ 32) s * free.length / 2 ^ 32) 0
      let (t, s) := drawCells k (free.filter (fun x => !(x == c))) (useFree s)
      (c :: t, s)

/-- Is the distributor short: an instance at the reseed limit (R223, R225)? -/
def genShort (s : State) (n : Nat) : Bool := (s.engOf n).gen.state = .short || (s.engOf n).gen.state = .unseeded

/-- A decoy beside a real operation (R220): decided by 8 random bits; every 64th runs a known answer. -/
def drawDecoy (n : Nat) (taken : List Nat) (s : State) : Option (Nat × Bool) × State :=
  let yes := freeNat 256 s < s.cfg 0x5030 1
  let s := useFree s
  let free := (freeCells s n).filter (fun c => !taken.contains c && !((s.engOf n).cipher.any (fun j => match j.decoy with | some (d, _) => d = c | none => false)))
  if !yes || genShort s n then (none, s)
  else
    match drawCells 1 free s with
    | ([c], s) =>
      let k := (s.engOf n).decoyCount + 1
      (some (c, k % 64 = 0), bump (chIdx n 0x10) 3 0 (s.modEng n (fun e => { e with decoyCount := k })))
    | (_, s) => (none, s)

/-- A real operation takes its cells; decoys on them are abandoned (R219). -/
def takeCells (n k : Nat) (s : State) : List Nat × State :=
  let (cells, s) := drawCells k (freeCells s n) s
  (cells, s.modEng n (fun e => { e with cipher := e.cipher.map (fun j =>
    match j.decoy with
    | some (d, _) => if cells.contains d then { j with decoy := none } else j
    | none => j) }))

-- Descriptors of the mode sequencer (Table 06-3).

/-- The fields of a cipher descriptor. -/
structure CDesc where
  mode : Nat
  inv : Bool
  par : Nat
  k0 : Nat
  k1 : Nat
  cls : Nat
  num : Nat
  trunc : Nat
  inOff : Nat
  inLen : Nat
  outOff : Nat
  outCap : Nat
  auxOff : Nat
  auxLen : Nat
  params : Bytes
  rsv : Nat
deriving DecidableEq, Repr

def CDesc.ofBytes (b : Bytes) : CDesc :=
  { mode := leAt b 0 1, inv := bit (leAt b 1 1) 0, par := bits (leAt b 1 1) 4 1, k0 := leAt b 2 1, k1 := leAt b 3 1,
    cls := leAt b 4 1 % 8, num := bits (leAt b 4 1) 6 4, trunc := leAt b 5 1,
    inOff := leAt b 8 4, inLen := leAt b 12 4, outOff := leAt b 16 4, outCap := leAt b 20 4,
    auxOff := leAt b 24 4, auxLen := leAt b 28 4, params := slice b 32 16,
    rsv := bits (leAt b 1 1) 7 5 + bits (leAt b 2 1) 3 3 + bits (leAt b 3 1) 3 3 + bits (leAt b 4 1) 3 3 +
      bits (leAt b 4 1) 7 7 + leAt b 6 2 + leAt b 48 1 + leAt b 60 4 }

/-- SRC, GROUP and INDEX of a key selection. -/
def kSrc (k : Nat) : Nat := bits k 7 6
def kGroup (k : Nat) : Nat := bits k 5 4
def kIndex (k : Nat) : Nat := k % 8

def modeKnown (m : Nat) : Bool := (1 ≤ m && m ≤ 0xB) || (0x10 ≤ m && m ≤ 0x16)

/-- Modes that take a second key. -/
def needsK1 (d : CDesc) : Bool :=
  d.mode = 0x10 || d.mode = 0x11 || d.mode = 0xB || (d.mode = 9 && !d.inv) ||
  (d.cls = 4 && (d.mode = 0x13 || d.mode = 0x15 || d.mode = 0x16))

/-- Modes that accept PAR above 0 (R209). -/
def parOk (d : CDesc) : Bool :=
  d.par = 0 || d.mode = 1 || (d.mode = 2 && d.inv) || d.mode = 3 || d.mode = 7 || d.mode = 0x16

/-- Usage bits that the key fetch unit requires of KSEL0 (Table 06-5). -/
def modeUsage (d : CDesc) (slotUsage : Nat) : Nat :=
  match d.mode with
  | 1 | 2 | 3 | 7 => if d.inv then 2 else 1
  | 4 | 5 | 6 => if d.inv then 8 else 4
  | 8 => if d.inv then 0x400 else 0x200
  | 9 => if d.inv then 0x8000 else 0x4000
  | 0xA => 0x8000
  | 0xB => 0x4000
  | 0x10 | 0x11 => 0x10
  | 0x12 => 0x100
  | 0x13 => if d.cls = 2 && !bit slotUsage 13 then 0x80 else 0x2000
  | 0x15 => if d.cls = 4 then 0x1000 else 0x800
  | 0x16 => 0x2000
  | _ => 0

/-- Usage bits required of KSEL1. -/
def modeUsage1 (d : CDesc) : Nat :=
  if d.mode = 0x10 then 0x20 else if d.mode = 0x11 then 0x40
  else if d.mode = 0x13 || d.mode = 0x15 || d.mode = 0x16 then 0x4000 else 0

/-- Output classes of a mode and direction (Table 06-5). -/
def classOk (d : CDesc) : Bool :=
  match d.mode with
  | 1 | 2 | 3 | 7 | 8 | 0x10 => d.cls = 0
  | 4 | 5 | 6 | 0x12 => if d.inv then d.cls = 1 else d.cls = 0
  | 9 => if d.inv then d.cls = 2 || d.cls = 3 else d.cls = 0
  | 0xA => d.cls = 2
  | 0xB => d.cls = 4
  | 0x11 => d.cls = 1
  | 0x13 => d.cls = 2 || d.cls = 3 || d.cls = 4
  | 0x14 => d.cls = 2
  | 0x15 => d.cls = 2 || d.cls = 4
  | 0x16 => d.cls = 2 || d.cls = 3 || d.cls = 4
  | _ => false

/-- Algorithms of KSEL0 in a mode. -/
def modeAlg (m a : Nat) : Bool :=
  match m with
  | 1 | 2 | 3 | 4 | 5 | 0x10 | 0x11 | 0x13 | 0x14 => isTdes a || isAes a
  | 6 | 0x12 => a = 0x110
  | 7 | 8 | 9 | 0xA | 0xB | 0x15 | 0x16 => isAes a
  | _ => false

/-- Algorithms of KSEL1 in a mode. -/
def modeAlg1 (m a : Nat) : Bool :=
  match m with
  | 0x10 => isTdes a || isAes a
  | 0x11 => a = 0x110
  | 0x13 | 0x15 | 0x16 => isAes a
  | _ => isSym a

/-- Does a key in a handle permit a mode? A handle carries the permits of its source (R205, R253;
DEDUCED, log 19): the shared secret of a KEM serves KDF108 alone, and a card key of CRYPTOGRAM source the
steps of a cryptogram. -/
def handlePermits (d : CDesc) (h : Handle) : Bool :=
  if h.usage = 0x200000 then d.mode = 0x16
  else
    let u := modeUsage d h.usage
    (d.mode = 0x14 && (bit h.usage 7 || bit h.usage 13)) ||
    (u != 0 && u &&& h.usage = u) ||
    (bit h.usage 7 && (d.mode = 1 || d.mode = 4 || d.mode = 6))

/-- Format errors of a cipher descriptor (CSTAT 0x01). -/
def cdescBad (d : CDesc) : Bool :=
  d.rsv != 0 || !modeKnown d.mode || 4 < d.cls || !parOk d || kSrc d.k0 = 3 || kSrc d.k1 = 3 || kGroup d.k0 = 3 ||
  kGroup d.k1 = 3 || kSrc d.k0 = 2 || (needsK1 d && kSrc d.k1 = 2) || 16384 < d.inLen || 16384 < d.auxLen ||
  (d.trunc != 0 && !(d.mode = 1 || (4 ≤ d.mode && d.mode ≤ 7))) || 16 < d.trunc ||
  (d.mode = 3 && !(leAt d.params 0 1 = 32 || leAt d.params 0 1 = 64 || leAt d.params 0 1 = 128)) ||
  (d.mode = 5 && !(1 ≤ leAt d.params 0 1 && leAt d.params 0 1 ≤ 3)) ||
  (d.mode = 6 && !(1 ≤ leAt d.params 0 1 && leAt d.params 0 1 ≤ 2)) ||
  (d.mode = 7 && !(12 ≤ d.trunc && d.trunc ≤ 16)) ||
  (d.mode = 8 && (leAt d.params 0 2 < 2 || 256 < leAt d.params 0 2 || 64 < d.auxLen || d.inLen < 2 || 256 < d.inLen)) ||
  (d.mode = 0x14 && kSrc d.k0 != 1)

/-- Offsets and lengths inside the context's area (CSTAT 0x0B). -/
def cdescOut (d : CDesc) : Bool :=
  !inArea d.inOff d.inLen || !inArea d.outOff d.outCap || !inArea d.auxOff d.auxLen

/-- Checks of a key selection against the context (R204): 0, or CSTAT 0x09 or 0x01. -/
def kselCheck (h : Header) (handles : Tab Handle) (pendingHandle : Nat → Bool) (k : Nat) : Nat :=
  if kSrc k = 0 then
    if h.nslot ≤ kIndex k then 9 else if kGroup k ≠ 0 ∧ !builtin h then 1 else 0
  else if kSrc k = 1 then
    if (tfind handles (kIndex k)).isSome || pendingHandle (kIndex k) then 0 else 1
  else 0

/-- Slot of a key selection by reference. -/
def kSlot (h : Header) (k : Nat) : Nat := h.slotRef (kIndex k) + kGroup k

-- Fetches that may wait for a fill (R282).

/-- Must a fetch of the slot wait: its entry is not resident, or its extension must be read? -/
def mustWait (s : State) (i : Nat) : Bool := !resident s i || (s.slot i).ext

/-- Ask for a fill: 16 at once, C0 contexts first (R282). -/
def askFill (i : Nat) (c0 : Bool) (s : State) : State :=
  if s.ks.fills.contains i || s.ks.fillQueue.contains i then s
  else if s.ks.fills.length < 16 then s.updKs (fun k => { k with fills := k.fills ++ [i] })
  else s.updKs (fun k => { k with fillQueue := if c0 then i :: k.fillQueue else k.fillQueue ++ [i] })

/-- CSTAT and CDETAIL of a failed fetch (Table 06-4). -/
def fetchCstat (st : Nat) : Nat × Nat := if st = 0x0208 then (3, 0) else if st = 0x0209 then (5, 0) else (4, st)

/-- A key fetched for a descriptor, or its CSTAT and CDETAIL. Each transfer counts at OD 0x3n10.06. -/
def fetchFor (n x slot usage : Nat) (suits : Nat → Bool) (s : State) : Except (Nat × Nat) Handle × State :=
  let h := ctxHdr s n x
  match fetchSlot n x slot h.tenant usage suits s with
  | .ok k s => (.ok { alg := k.alg, material := k.material, usage := k.usage, exportable := k.exportable },
      bump (chIdx n 0x10) 6 0 s)
  | .fail st s => (.error (fetchCstat st), s)

/-- Fetch the keys of a cipher job whose fills are in. -/
def cipherKeys (n : Nat) (j : CipherJob) (s : State) : CipherJob × State :=
  let d := CDesc.ofBytes j.desc
  let h := ctxHdr s n j.ctx
  let (r0, s) :=
    if kSrc d.k0 = 0 then
      (match fetchFor n j.ctx (kSlot h d.k0) (modeUsage d (s.slot (kSlot h d.k0)).usage) (modeAlg d.mode) s with
       | (.ok k, s) => (Except.ok (some k), s)
       | (.error e, s) => (Except.error e, s))
    else (Except.ok none, s)
  match r0 with
  | .error (c, e) => ({ j with cstat := c, cdetail := e }, s)
  | .ok k0 =>
    if needsK1 d && kSrc d.k1 = 0 then
      match fetchFor n j.ctx (kSlot h d.k1) (modeUsage1 d) (modeAlg1 d.mode) s with
      | (.ok k, s) => ({ j with key0 := k0, key1 := some k }, s)
      | (.error (c, e), s) => ({ j with key0 := k0, cstat := c, cdetail := e }, s)
    else ({ j with key0 := k0 }, s)

/-- Answer of a hand-over register. -/
inductive Submitted where
  | done (s : State)
  | stall (s : State)

/-- Accept a cipher descriptor of core `c` at an SRAM offset (R204, R206, R218). -/
def acceptCipher (c off : Nat) (s : State) : State :=
  let n := c / 8
  let (x, c0) := ctxNow s c
  let desc := s.memRead (memKey (.sram n off)) 64
  let d := CDesc.ofBytes desc
  let h := ctxHdr s n x
  let handles := (tget {} (s.chan n).ctxs x).handles
  let pend (i : Nat) : Bool := (s.engOf n).cipher.any (fun j =>
    j.ctx = x && (CDesc.ofBytes j.desc).cls = 2 && (CDesc.ofBytes j.desc).num = i)
  let sel0 := kselCheck h handles (fun _ => false) d.k0
  let sel1 := if needsK1 d then kselCheck h handles pend d.k1 else 0
  let selSlot := if d.cls = 3 && h.nslot ≤ d.num then 9 else 0
  let cstat := if cdescBad d then 1 else if cdescOut d then 0xB else if sel0 ≠ 0 then sel0 else if sel1 ≠ 0 then sel1
    else if selSlot ≠ 0 then selSlot else if !classOk d then 2 else 0
  let j : CipherJob := { ctx := x, core := c, off := off, desc := desc, cstat := cstat, c0 := c0, stalled := genShort s n }
  let (j, s) :=
    if cstat ≠ 0 then (j, s)
    else
      let cells := if d.mode = 0x13 || d.mode = 0x14 || d.mode = 0x15 then 2 else d.par + 1
      let (cells, s) := takeCells n cells s
      let (decoy, s) := drawDecoy n cells s
      let j := { j with cells := cells, decoy := decoy }
      let slots := (if kSrc d.k0 = 0 then [kSlot h d.k0] else []) ++ (if needsK1 d && kSrc d.k1 = 0 then [kSlot h d.k1] else [])
      let waits := slots.filter (fun i => mustWait s i)
      if waits.isEmpty then cipherKeys n j s
      else ({ j with waits := waits }, waits.foldl (fun s i => askFill i c0 s) s)
  s.modEng n (fun e => { e with cipher := e.cipher ++ [j] })

/-- The store to SUBMIT (R206): a third descriptor in flight of a context stalls. -/
def submitWrite (c v : Nat) (s : State) : Submitted :=
  let n := c / 8
  let x := (ctxNow s c).1
  if 2 ≤ ((s.engOf n).cipher.filter (fun j => j.ctx = x)).length then
    .stall (s.modCore c (fun k => { k with stalled := some (0, v) }))
  else .done (acceptCipher c (v % 2 ^ 22 / 64 * 64) s)

-- Digest jobs (Tables 07-2 to 07-5).

/-- The fields of a digest job descriptor. -/
structure DDesc where
  alg : Nat
  init : Bool
  final : Bool
  depends : Bool
  outsel : Nat
  trunc : Nat
  nfrag : Nat
  fragOff : Nat
  outOff : Nat
  outCap : Nat
  stateOff : Nat
  expectOff : Nat
  xof : Nat
  rsv : Nat
deriving DecidableEq, Repr

def DDesc.ofBytes (b : Bytes) : DDesc :=
  { alg := leAt b 0 1, init := bit (leAt b 1 1) 0, final := bit (leAt b 1 1) 1, depends := bit (leAt b 1 1) 2,
    outsel := leAt b 2 1, trunc := leAt b 3 1, nfrag := leAt b 4 2, fragOff := leAt b 8 4, outOff := leAt b 12 4,
    outCap := leAt b 16 4, stateOff := leAt b 20 4, expectOff := leAt b 24 4, xof := leAt b 28 2,
    rsv := bits (leAt b 1 1) 7 3 + leAt b 6 2 + leAt b 30 18 + leAt b 48 1 + leAt b 60 4 }

/-- A fragment descriptor (Table 07-4). -/
structure Frag where
  key : Bool
  outer : Bool
  ksel : Nat
  len : Nat
  off : Nat
  bad : Bool
deriving DecidableEq, Repr

def Frag.ofBytes (b : Bytes) : Frag :=
  let key := leAt b 0 1 = 2
  { key := key, outer := bit (leAt b 1 1) 0, ksel := leAt b 2 1, len := leAt b 4 4, off := leAt b 8 4,
    bad := !(leAt b 0 1 = 1 || leAt b 0 1 = 2) || leAt b 3 1 != 0 || leAt b 12 4 != 0 ||
      (if key then 1 < leAt b 1 1 || bit (leAt b 2 1) 3 || leAt b 4 4 != 0 || leAt b 8 4 != 0
       else leAt b 1 1 != 0 || leAt b 2 1 != 0 || 16384 < leAt b 4 4) }

/-- The fragments of a job, from its list. -/
def fragsOf (s : State) (n x : Nat) (d : DDesc) : List Frag :=
  (List.range d.nfrag).map (fun i => Frag.ofBytes (ctxBytes s n x (d.fragOff + 16 * i) 16))

def isDigest (a : Nat) : Bool := (digestParams a).isSome
def isShake (a : Nat) : Bool := a = 0x18 || a = 0x19

/-- Job format (DSTAT 0x01), the rules of R236 included. -/
def ddescBad (d : DDesc) (fs : List Frag) : Bool :=
  let keyed := fs.any (fun f => f.key)
  d.rsv != 0 || !isDigest d.alg || 1 < d.outsel || d.nfrag = 0 || 64 < d.nfrag || d.fragOff % 8 != 0 ||
  ((!d.init || !d.final) && d.stateOff % 8 != 0) ||
  (if isShake d.alg then d.trunc != 0 || d.xof = 0 || 16384 < d.xof else d.xof != 0) ||
  digestOut d.alg d.xof < d.trunc || (d.outsel = 1 && d.trunc = 0) ||
  fs.any (fun f => f.bad) ||
  (keyed && (fs.drop 1).any (fun f => f.key)) ||
  (keyed && !(d.init && d.final && d.alg ≤ 3 && 2 ≤ fs.length)) ||
  fs.any (fun f => f.key && kSrc f.ksel != 0) || fs.any (fun f => f.key && kGroup f.ksel = 3)

/-- Offsets outside the area (DSTAT 0x0B). -/
def ddescOut (d : DDesc) (fs : List Frag) : Bool :=
  !inArea d.fragOff (16 * d.nfrag) || (d.final && d.outsel = 0 && !inArea d.outOff d.outCap) ||
  ((!d.init || !d.final) && !inArea d.stateOff 512) || (d.outsel = 1 && !inArea d.expectOff d.trunc) ||
  fs.any (fun f => !f.key && !inArea f.off f.len)

/-- The key fragment's selection of a job. -/
def fragKsel (fs : List Frag) : Option Nat := (fs.find? (fun f => f.key)).map (fun f => f.ksel)

/-- PERMIT and class rules of a keyed job (R245): 0, or DSTAT. -/
def keyedRefused (d : DDesc) (outer : Bool) (usage : Nat) : Bool :=
  !bit usage 2 && bit usage 3 && outer && !(d.outsel = 1 && 8 ≤ d.trunc)

/-- The fetch of a KEY fragment: HMAC keys whose hash is the job's, with MAC_GEN or MAC_VERIFY (R245). -/
def fragFetch (n : Nat) (j : DigestJob) (s : State) : DigestJob × State :=
  let d := DDesc.ofBytes j.desc
  let fs := fragsOf s n j.ctx d
  match fs.find? (fun f => f.key) with
  | none => (j, s)
  | some f =>
    let i := kSlot (ctxHdr s n j.ctx) f.ksel
    let u := if bit (s.slot i).usage 2 then 4 else 8
    match fetchFor n j.ctx i u (fun a => isHmac a && a / 256 - 2 = d.alg) s with
    | (.ok k, s) =>
      if keyedRefused d f.outer k.usage then ({ j with jstat := 2 }, s)
      else ({ j with frag := some k.material }, s)
    | (.error (c, e), s) => ({ j with jstat := c, jdetail := e }, s)

/-- Digest engines that run no job and are not withdrawn. -/
def idleDigest (e : Engines) : List Nat :=
  (List.range 8).filter (fun i => !e.digestOut.contains i && !e.digest.any (fun j => j.engine = some i && !j.suspended))

/-- Allocation of a job (R242): a C0 job to an idle engine or its core's home engine, whose job of another
class is suspended; others to an idle engine in submission order. -/
def placeDigest (n : Nat) (j : DigestJob) (s : State) : DigestJob × State :=
  match (idleDigest (s.engOf n)).head? with
  | some i => ({ j with engine := some i }, s)
  | none =>
    if j.c0 then
      let home := j.core % 8
      let hit := (s.engOf n).digest.any (fun q => q.engine = some home && !q.suspended && !q.c0)
      let s := s.modEng n (fun e => { e with digest := e.digest.map (fun q =>
        if q.engine = some home && !q.c0 then { q with suspended := true } else q) })
      ({ j with engine := some home }, if hit then bump (chIdx n 0x12) 3 0 s else s)
    else (j, s)

/-- Accept a digest job. -/
def acceptDigest (c off : Nat) (s : State) : State :=
  let n := c / 8
  let (x, c0) := ctxNow s c
  let desc := s.memRead (memKey (.sram n off)) 64
  let d := DDesc.ofBytes desc
  let h := ctxHdr s n x
  let fs := fragsOf s n x d
  let sel := match fragKsel fs with | some k => kselCheck h [] (fun _ => false) k | none => 0
  let st := if ddescBad d fs then 1 else if ddescOut d fs then 0xB else sel
  let j : DigestJob := { ctx := x, core := c, off := off, desc := desc, jstat := st, c0 := c0 }
  let (j, s) := if st ≠ 0 then (j, s) else placeDigest n j s
  let (j, s) :=
    match st, fragKsel fs with
    | 0, some k =>
      let i := kSlot h k
      if mustWait s i then ({ j with waits := [i] }, askFill i c0 s) else fragFetch n j s
    | _, _ => (j, s)
  s.modEng n (fun e => { e with digest := e.digest ++ [j] })

/-- The store to DSUBMIT (R239). -/
def dsubmitWrite (c v : Nat) (s : State) : Submitted :=
  let n := c / 8
  let x := (ctxNow s c).1
  if 2 ≤ ((s.engOf n).digest.filter (fun j => j.ctx = x)).length then
    .stall (s.modCore c (fun k => { k with stalled := some (4, v) }))
  else .done (acceptDigest c (v % 2 ^ 22 / 64 * 64) s)

-- Public-key descriptors (Tables 07-9 to 07-11).

/-- The fields of a public-key descriptor. -/
structure PDesc where
  op : Nat
  pkalg : Nat
  cls : Nat
  num : Nat
  ksel : Nat
  pubSlot : Bool
  v15 : Bool
  hash : Nat
  inOff : Nat
  inLen : Nat
  pubOff : Nat
  pubLen : Nat
  sigOff : Nat
  sigLen : Nat
  outOff : Nat
  outCap : Nat
  auxOff : Nat
  auxLen : Nat
  rsv : Nat
deriving DecidableEq, Repr

def PDesc.ofBytes (b : Bytes) : PDesc :=
  { op := leAt b 0 1, pkalg := leAt b 1 1, cls := leAt b 2 1 % 8, num := bits (leAt b 2 1) 6 4, ksel := leAt b 3 1,
    pubSlot := bit (leAt b 4 1) 0, v15 := bit (leAt b 4 1) 1, hash := leAt b 5 1, inOff := leAt b 8 4, inLen := leAt b 12 4,
    pubOff := leAt b 16 4, pubLen := leAt b 20 4, sigOff := leAt b 24 4, sigLen := leAt b 28 4, outOff := leAt b 32 4,
    outCap := leAt b 36 4, auxOff := leAt b 40 4, auxLen := leAt b 44 2,
    rsv := bits (leAt b 2 1) 3 3 + bits (leAt b 2 1) 7 7 + bits (leAt b 3 1) 3 3 + bits (leAt b 4 1) 7 2 + leAt b 6 2 +
      leAt b 46 2 + leAt b 48 1 + leAt b 60 4 }

/-- Lengths of Table 07-11: public key, and signature or ciphertext. -/
def pkLens (p : Nat) : Nat × Nat :=
  match p with
  | 0x01 => (65, 64) | 0x02 => (97, 96) | 0x04 => (97, 0) | 0x03 => (32, 64)
  | 0x10 => (256, 256) | 0x11 => (384, 384) | 0x12 => (512, 512)
  | 0x20 => (1312, 2420) | 0x21 => (1952, 3309) | 0x22 => (2592, 4627)
  | 0x30 => (800, 768) | 0x31 => (1184, 1088) | 0x32 => (1568, 1568)
  | _ => (0, 0)

def isSigAlg (p : Nat) : Bool := p = 1 || p = 2 || p = 3 || p = 0x10 || p = 0x11 || p = 0x12 || p = 0x20 || p = 0x21 || p = 0x22
def isKem (p : Nat) : Bool := p = 0x30 || p = 0x31 || p = 0x32
def isRsa (p : Nat) : Bool := p = 0x10 || p = 0x11 || p = 0x12
def isMldsa (p : Nat) : Bool := p = 0x20 || p = 0x21 || p = 0x22

/-- Does the operation support the PKALG (Table 07-9)? -/
def opAlg (op p : Nat) : Bool :=
  match op with
  | 1 => isSigAlg p && p != 0x10
  | 2 => isSigAlg p
  | 3 | 4 => p = 4
  | 5 | 6 => isKem p
  | 7 => (isSigAlg p && p != 0x10) || isKem p
  | _ => false

/-- Does the operation take its key from the KSEL slot? -/
def pkFromSlot (d : PDesc) : Bool :=
  d.op = 1 || d.op = 6 || d.op = 7 || ((d.op = 2 || d.op = 5) && d.pubSlot)

/-- Format of a public-key descriptor (PSTAT 0x01). -/
def pdescBad (d : PDesc) : Bool :=
  let digestLen := if d.hash = 1 then 32 else if d.hash = 2 then 48 else 64
  let hashed := d.pkalg = 1 || d.pkalg = 2 || isRsa d.pkalg
  d.rsv != 0 || !opAlg d.op d.pkalg || kSrc d.ksel = 1 || kSrc d.ksel = 3 || kGroup d.ksel = 3 ||
  (pkFromSlot d && kSrc d.ksel != 0) ||
  (d.v15 && !(d.op = 2 && isRsa d.pkalg)) ||
  ((d.op = 1 || d.op = 2) && (if hashed then !(1 ≤ d.hash && d.hash ≤ 3) || d.inLen != digestLen
    else d.hash != 0 || 16384 < d.inLen)) ||
  (!(d.op = 1 || d.op = 2) && d.hash != 0) ||
  ((d.op = 2 || d.op = 5) && !d.pubSlot && d.pubLen != (pkLens d.pkalg).1) || (d.op = 4 && d.pubLen != 97) ||
  ((d.op = 2 || d.op = 6) && d.sigLen != (pkLens d.pkalg).2) ||
  (if isMldsa d.pkalg then 255 < d.auxLen else d.auxLen != 0) ||
  (match d.op with | 2 => d.cls != 1 | 5 | 6 => d.cls != 2 | 4 => false | _ => d.cls != 0)

/-- Offsets outside the area (PSTAT 0x0B). -/
def pdescOut (d : PDesc) : Bool :=
  !inArea d.inOff d.inLen || !inArea d.pubOff d.pubLen || !inArea d.sigOff d.sigLen || !inArea d.outOff d.outCap ||
  !inArea d.auxOff d.auxLen

/-- Usage of the slot for an operation (Table 07-9); a slot's own mask chooses among alternatives. -/
def pkUsage (d : PDesc) (slotUsage : Nat) (internal : Bool) : Nat :=
  match d.op with
  | 1 => if internal && bit slotUsage 18 then 0x40000 else 0x10000
  | 2 => if bit slotUsage 19 then 0x80000 else if bit slotUsage 20 then 0x100000 else 0x20000
  | 5 | 6 => 0x200000
  | _ => if bit slotUsage 21 then 0x200000 else if bit slotUsage 18 then 0x40000 else 0x10000

/-- The fetch of a public-key job's key. -/
def pkFetch (n : Nat) (j : PkJob) (s : State) : PkJob × State :=
  let d := PDesc.ofBytes j.desc
  let h := ctxHdr s n j.ctx
  let i := kSlot h d.ksel
  let suits (a : Nat) : Bool := a % 256 = d.pkalg && (if d.op = 2 || d.op = 5 then a / 256 = 0x11 || a / 256 = 0x10 else a / 256 = 0x10)
  let pub := (s.slot i).pub
  match fetchFor n j.ctx i (pkUsage d (s.slot i).usage (decide (h.service < 0x100))) suits s with
  | (.ok k, s) => ({ j with key := some k, pub := pub }, s)
  | (.error (c, e), s) => ({ j with pstat := c, pdetail := e }, s)

/-- Accept a public-key descriptor (R248, R249, R257). -/
def acceptPk (c off : Nat) (s : State) : State :=
  let n := c / 8
  let (x, c0) := ctxNow s c
  let desc := s.memRead (memKey (.sram n off)) 64
  let d := PDesc.ofBytes desc
  let h := ctxHdr s n x
  let sel := if pkFromSlot d then kselCheck h [] (fun _ => false) d.ksel else 0
  let st := if pdescBad d then 1 else if pdescOut d then 0xB else if sel ≠ 0 then sel
    else if (d.op = 3 || d.op = 4) && 0x100 ≤ h.service then 2 else 0
  let j : PkJob := { ctx := x, core := c, off := off, desc := desc, pstat := st, c0 := c0 }
  let idle := (List.range 2).filter (fun i => !(s.engOf n).pkOut.contains i && !(s.engOf n).pk.any (fun q => q.engine = some i))
  let j := if st ≠ 0 then j else { j with engine := idle.head? }
  let (j, s) :=
    if st ≠ 0 || !pkFromSlot d then (j, s)
    else
      let i := kSlot h d.ksel
      if mustWait s i then ({ j with waits := [i] }, askFill i c0 s) else pkFetch n j s
  s.modEng n (fun e => { e with pk := e.pk ++ [j] })

/-- The store to PSUBMIT (R249): a context holds one descriptor in flight; a second stalls. -/
def psubmitWrite (c v : Nat) (s : State) : Submitted :=
  let n := c / 8
  let x := (ctxNow s c).1
  if (s.engOf n).pk.any (fun j => j.ctx = x) then
    .stall (s.modCore c (fun k => { k with stalled := some (8, v) }))
  else .done (acceptPk c (v % 2 ^ 22 / 64 * 64) s)

-- SLOTCLAIM (R288).

/-- A claim or release written to SLOTCLAIM of a core; the result stands in SLOTCLAIM_ST. -/
def slotclaimWrite (c v : Nat) (s : State) : State :=
  let n := c / 8
  let x := (ctxNow s c).1
  let h := ctxHdr s n x
  let op := bits v 31 30
  let i := bits v 29 27
  let off := 8 * bits v 18 0
  let set (st : Nat) (s : State) : State := s.modEng n (fun e => { e with slotSt := tset 0 e.slotSt (c % 8) st })
  if op = 1 then
    if h.nslot ≤ i then set 0x0106 s
    else if !inArea off 32 then set 0x0405 s
    else
      let (st, s) := claimSlot n x (h.slotRef i) h.tenant (ctxBytes s n x off 32) s
      set st s
  else if op = 2 then
    if h.nslot ≤ i then set 0x0106 s else set 0 (releaseClaim n x (h.slotRef i) s)
  else s

def slotclaimStatus (c : Nat) (s : State) : Nat := tget 0 (s.engOf (c / 8)).slotSt (c % 8)

-- Clearing (R226 to R228, R259, R301).

/-- Steps 4 and 5 of Table 06-9 in one channel: cells, handles, engines, ephemeral keys and the generator;
every job without a completion record completes with status 0x06. -/
def clearCells (n : Nat) (s : State) : State :=
  (s.modEng n (fun e => { e with
    cipher := e.cipher.map (fun j => { j with cstat := 6, cdetail := 0, cells := [], decoy := none, key0 := none, key1 := none,
                                              waits := [], stalled := false }),
    digest := e.digest.map (fun j => { j with jstat := 6, jdetail := 0, frag := none, waits := [], suspended := false }),
    pk := e.pk.map (fun j => { j with pstat := 6, pdetail := 0, key := none, waits := [] }),
    eph := [], gen := {} })).modChan n (fun c => { c with
      ctxs := c.ctxs.map (fun x => (x.1, { x.2 with handles := [] })) })

/-- L3 at the main die (R227, R301): every channel, the key fetch unit and the parser's and assembler's
generators clear. -/
def clearAllKeys (s : State) : State :=
  let s := (List.range 9).foldl (fun s n => clearCells n s) s
  clearKeyFetch { s with gens := [] }

end Sys2Proof.Machine
end

