-- ==== Sys2Proof/Machine/FrzSend.lean ====
section
/-! DEFINITION. Frieze ports (chapter 14): sending a message over a link with its buffer credits and replay
buffer (R453 to R455). -/

namespace Sys2Proof.Machine

def State.frzPort (s : State) (p : Nat) : FrzPort := tget {} s.frz.ports p
def State.setFrzPort (s : State) (p : Nat) (k : FrzPort) : State := { s with frz := { s.frz with ports := tset {} s.frz.ports p k } }
def State.modFrzPort (s : State) (p : Nat) (f : FrzPort → FrzPort) : State := s.setFrzPort p (f (s.frzPort p))
def State.modFrz (s : State) (f : Frieze → Frieze) : State := { s with frz := f s.frz }

/-- Value of a port state (Table 14-4). -/
def PortState.code : PortState → Nat
  | .disabled => 0 | .detect => 1 | .train => 2 | .align => 3 | .handshake => 4 | .measure => 5 | .up => 6 | .held => 7
  | .retrain => 8 | .failed => 9

-- Sending.

/-- May a port in a state send a message of a type (Table 14-4)? -/
def portCarries (st : PortState) (mtype : Nat) : Bool :=
  match st with
  | .up => true
  | .held => mtype = 0x08 || mtype = 0x23 || mtype = 0x21 || mtype = 0x24
  | .measure => mtype = 0x21
  | .handshake => mtype = 0x24
  | _ => false

/-- Flits of a message, 56 payload bytes each. -/
def flitsOf (m : FrzMsg) : Nat := Nat.max 1 ((m.data.length + 55) / 56)
/-- Link blocks that carry a message alone, nine flits each. -/
def blocksFor (m : FrzMsg) : Nat := (flitsOf m + 8) / 9

def creditOf (k : FrzPort) (vc : Nat) : Nat := tget 512 k.credits vc

/-- Hand a message to the link: it takes its credits, joins the replay buffer of 1,024 blocks and goes. -/
def transmit (p : Nat) (m : FrzMsg) (s : State) : State :=
  let k := s.frzPort p
  let n := blocksFor m
  let k := { k with
    credits := tset 512 k.credits m.vc (creditOf k m.vc - flitsOf m), txSeq := k.txSeq + n,
    sent := k.sent ++ [{ lseq := k.txSeq + n, blocks := n, msg := m }] }
  emit (.frieze p m.vc m.mtype m.data) (s.setFrzPort p k)

/-- Send what waits, while each message's credits are held (R454). -/
def pumpPort (p : Nat) : Nat → State → State
  | 0, s => s
  | fuel + 1, s =>
    let k := s.frzPort p
    match k.waiting.find? (fun m => flitsOf m ≤ creditOf k m.vc && (k.sent.map (fun e => e.blocks)).sum + blocksFor m ≤ 1024) with
    | none => s
    | some m => pumpPort p fuel (transmit p m (s.setFrzPort p { k with waiting := k.waiting.erase m }))

/-- Send a message by a port, at once or when credits allow; a port that does not carry it sends nothing. -/
def frzSend (p vc mtype dst : Nat) (data : Bytes) (s : State) : State :=
  let k := s.frzPort p
  if !portCarries k.state mtype then s
  else
    let m : FrzMsg := { vc := vc, mtype := mtype, dst := dst, data := data }
    let s := s.setFrzPort p { k with waiting := k.waiting ++ [m] }
    pumpPort p ((s.frzPort p).waiting.length + 1) s

/-- Ports in UP. -/
def upPorts (s : State) : List Nat := (List.range 3).filter (fun p => (s.frzPort p).state = .up)

/-- Flood a message on every UP port but one. -/
def flood (vc mtype : Nat) (data : Bytes) (except : Option Nat) (s : State) : State :=
  ((upPorts s).filter (fun p => except != some p)).foldl (fun s p => frzSend p vc mtype 0xFFF data s) s

end Sys2Proof.Machine
end

