-- ==== Sys2Proof/Machine/Requests.lean ====
section
/-! DEFINITION. The request path: part state, sessions' frames, responses and completions (chapter 02),
the queue manager's admission, scheduling and homes (chapter 05), and the release of a request. -/

namespace Sys2Proof.Machine

/-- The part's device address (R463). -/
def partAddr (s : State) : Nat := s.frz.addr

-- Part state (R54, Table 02-16).

def inService (s : State) (n : Nat) : Bool := (s.chan n).data = .inService
def chansIn (s : State) : List Nat := (List.range 9).filter (fun n => inService s n)
def serviceCount (s : State) : Nat := (chansIn s).length

/-- The most severe part-state code that applies. -/
def partState (s : State) : Nat :=
  if s.life.state ≠ .operational then 0x0F06
  else if 3 ≤ levelHeld s then 0x0F04
  else if s.plink.state = .failed then 0x0F03
  else if 2 ≤ levelHeld s then 0x0F02
  else if serviceCount s < 8 then 0x0F01
  else 0x0F00

/-- A code that keeps the part from admitting requests (check 10). -/
def refusesRequests (s : State) : Option Nat := if 0x0F02 ≤ partState s then some (partState s) else none

-- Headers (Tables 02-1 and 02-3).

def Header.ofBytes (b : Bytes) : Header :=
  { version := leAt b 0 1, flags := leAt b 1 1, cls := leAt b 2 1, nslot := leAt b 3 1, queue := leAt b 4 4,
    service := leAt b 8 2, tenant := leAt b 10 2, payloadLen := leAt b 12 2, rsv14 := leAt b 14 2,
    requestId := leAt b 16 8, slot0 := leAt b 24 4, slot1 := leAt b 28 4, slot2 := leAt b 32 4, slot3 := leAt b 36 4,
    rsv40 := leAt b 40 8, mac := slice b 48 16 }

/-- Bytes 0 to 47 of a header, over which HEADER_MAC is formed (R50). -/
def Header.macBytes (h : Header) : Bytes :=
  leBytes 1 h.version ++ leBytes 1 h.flags ++ leBytes 1 h.cls ++ leBytes 1 h.nslot ++ leBytes 4 h.queue ++ leBytes 2 h.service ++
  leBytes 2 h.tenant ++ leBytes 2 h.payloadLen ++ leBytes 2 h.rsv14 ++ leBytes 8 h.requestId ++ leBytes 4 h.slot0 ++
  leBytes 4 h.slot1 ++ leBytes 4 h.slot2 ++ leBytes 4 h.slot3 ++ leBytes 8 h.rsv40

def Header.bytes (h : Header) : Bytes := h.macBytes ++ padTo 16 h.mac

def Header.noSpill (h : Header) : Bool := bit h.flags 0
def Header.ordered (h : Header) : Bool := bit h.flags 1
def Header.rejectUnbounded (h : Header) : Bool := bit h.flags 2
def Header.irq (h : Header) : Bool := bit h.flags 3
def Header.class (h : Header) : Nat := h.cls % 4

-- Frames (Table 02-5) and sessions.

/-- A transport header. -/
def frameHeader (typ tflags session seq bodyLen : Nat) : Bytes :=
  [1, BitVec.ofNat 8 typ, BitVec.ofNat 8 tflags, 0] ++ leBytes 4 session ++ leBytes 8 seq ++ leBytes 4 bodyLen ++ zeros 4

/-- A protected frame under a key and IV (R58): header, ciphertext and tag. -/
def sealFrame (key iv : Bytes) (typ tflags session seq : Nat) (body : Bytes) : Bytes :=
  let h := frameHeader typ tflags session seq body.length
  let nonce := iv ++ leBytes 8 seq
  let ct := gcmCrypt key nonce body
  h ++ ct ++ gcmTag key nonce h ct

/-- One record of a DATA body (R57). -/
def frameRecord (rtype msgNo : Nat) (content : Bytes) : Bytes :=
  let p := (8 - content.length % 8) % 8
  [BitVec.ofNat 8 rtype, 0] ++ leBytes 2 content.length ++ leBytes 4 msgNo ++ content ++ zeros p

def State.session? (s : State) (sid : Nat) : Option Session := tfind s.sessions sid
def State.setSession (s : State) (sid : Nat) (k : Session) : State := { s with sessions := tput s.sessions sid k }
def State.delSession (s : State) (sid : Nat) : State := { s with sessions := tdel s.sessions sid }

/-- Send one protected frame of an Ethernet session. -/
def ethSend (sid typ : Nat) (body : Bytes) (s : State) : State :=
  match s.session? sid with
  | none => s
  | some k =>
    let seq := k.txSeq + 1
    let wire := sealFrame k.keyOut k.ivOut typ (b2n k.rekeyDue) sid seq body
    emit (.frame k.port sid typ seq k.rekeyDue wire) (s.setSession sid { k with txSeq := seq })

/-- Largest content of a record in one datagram at the port's MTU (R67). -/
def recordCap (s : State) (k : Session) : Nat :=
  s.cfg (0x1020 + k.port) 4 - (if 2 ^ 32 ≤ k.peerIp then 40 else 20) - 8 - 24 - 16 - 8

/-- Send the segments of a message, the first of `n` numbered 0. -/
def ethSegments (sid msgNo n : Nat) : Nat → List Bytes → State → State
  | _, [], s => s
  | i, b :: t, s =>
    let rt := if n = 1 then 1 else if i = 0 then 2 else if i + 1 = n then 4 else 3
    ethSegments sid msgNo n (i + 1) t (ethSend sid 0x10 (frameRecord rt msgNo b) s)

/-- Send a message on an Ethernet session, segmented where it does not fit one datagram. -/
def ethMessage (sid : Nat) (msg : Bytes) (s : State) : State :=
  match s.session? sid with
  | none => s
  | some k =>
    let cap := recordCap s k
    let pieces := if msg.length ≤ cap then [msg] else chunks (cap / 8 * 8) (msg.length + 1) msg
    let no := k.msgOut
    ethSegments sid no pieces.length 0 pieces (s.setSession sid { k with msgOut := no + 1 })

/-- Counter of a port or function (Table 02-19). -/
def discardAt (via : Via) : Nat := match via with | .eth p _ => 0x9040 + p | .ring f _ => 0x9048 + f | .frieze _ => 0x9040 | .internal _ _ _ => 0x9040
def countDiscard (via : Via) (sub : Nat) (s : State) : State :=
  match via with
  | .eth _ _ => bump (discardAt via) sub 0 s
  | .ring _ _ => bump (discardAt via) sub 0 s
  | .frieze _ => s
  | .internal _ _ _ => s

/-- A RESET frame, at most one per peer address and UDP port in 10 ms (R64). -/
def sendReset (port ip udp session reason : Nat) (s : State) : State :=
  let k := ip * 65536 + udp
  let last := tfind s.resets k
  if (match last with | some t => decide (s.time < t + 10000000) | none => false) then bump (0x9040 + port) 0xA 0 s
  else emit (.reset port ip udp session reason) { s with resets := tput s.resets k s.time }

-- Rings (R70 to R76).

def ringSize (cfg : Nat) : Nat := 2 ^ (bits cfg 3 0 + 6)
def cplSize (cfg : Nat) : Nat := 2 ^ (bits cfg 7 4 + 6)

/-- A ring error (R73): STOPPED, ERROR, and the MSI-X vector. -/
def ringError (f r err : Nat) (s : State) : State :=
  let k := s.ring f r
  emit (.msix f (bits k.cfgIn 24 16)) (s.setRing f r { k with state := .stopped, error := err, session := none, fetched := [] })

/-- Raise the vector when COAL_COUNT completions are unsignalled, there is no delay, or `force`. -/
def ringSignal (f r : Nat) (force : Bool) (s : State) : State :=
  let k := s.ring f r
  if k.unsignalled ≠ 0 ∧ (force ∨ 2 ^ bits k.cfgIn 15 12 ≤ k.unsignalled ∨ bits k.cfgIn 11 8 = 0) then
    emit (.msix f (bits k.cfgIn 24 16)) (s.setRing f r { k with unsignalled := 0 })
  else s

/-- Write a completion entry (R74, R76). A ring that is not open writes none. -/
def completion (f r tag rspLen cstatus : Nat) (irq : Bool) (s : State) : State :=
  let k := s.ring f r
  if k.state = .disabled ∨ k.state = .stopped ∨ k.state = .withdrawing then s
  else
    let phase := k.cplPi / cplSize k.cfgIn % 2 = 0
    let k' := { k with cplPi := (k.cplPi + 1) % 2 ^ 32, reserved := k.reserved - 1, unsignalled := k.unsignalled + 1,
                       oldest := if k.unsignalled = 0 then s.time else k.oldest,
                       protFails := if cstatus = 0x0102 then Nat.min (2 ^ 32 - 1) (k.protFails + 1) else k.protFails }
    ringSignal f r (irq || cstatus != 0) (emit (.completion f r tag rspLen cstatus phase) (s.setRing f r k'))

/-- Write a frame to the response buffer and its completion; a frame over RSP_CAP gives 0x010C (R75). -/
def ringFrame (f r tag addr cap : Nat) (wire : Bytes) (irq : Bool) (s : State) : State :=
  if cap < wire.length then completion f r tag 0 0x010C irq s
  else completion f r tag wire.length 0 irq (emit (.hostWrite f addr wire) s)

/-- A protected frame of a ring's session as a response frame. -/
def ringSend (f r typ tag addr cap : Nat) (body : Bytes) (irq : Bool) (s : State) : State :=
  let k := s.ring f r
  match k.session with
  | none => s
  | some se =>
    let seq := se.txSeq + 1
    let wire := sealFrame se.keyOut se.ivOut typ (b2n se.rekeyDue) (f * 256 + r) seq body
    ringFrame f r tag addr cap wire irq (s.setRing f r { k with session := some { se with txSeq := seq } })

-- Responses (R51 to R53).

/-- A response header without RESPONSE_MAC. -/
def responseHead (s : State) (q : Request) (rflags status detail plen servedBy : Nat) : Bytes :=
  [1, BitVec.ofNat 8 rflags] ++ leBytes 2 status ++ leBytes 4 (q.hdr.queue % 2 ^ 20) ++ leBytes 2 q.hdr.service ++
  leBytes 2 q.hdr.tenant ++ leBytes 2 plen ++ leBytes 2 servedBy ++ leBytes 8 q.hdr.requestId ++ leBytes 8 q.tIn ++
  leBytes 8 s.time ++ leBytes 4 (Nat.min (2 ^ 32 - 1) q.cycles) ++ leBytes 2 detail ++ leBytes 2 (partState s)

/-- The response message of a request: header, RESPONSE_MAC or zero, payload (R53). -/
def responseMessage (s : State) (q : Request) (spilled : Bool) : Bytes :=
  let key := headerKey s q.hdr.tenant
  let lost := !q.unauth && key.isNone
  let status := if lost then 0x020A else q.status
  let detail := if lost then 0x10 else q.detail
  let payload := if lost then [] else q.response
  let un := q.unauth || lost
  let rflags := b2n q.bestEffort + 2 * b2n spilled + 4 * b2n un
  let head := responseHead s q rflags status detail payload.length (q.servedBy * 4096 + (if spilled && q.servedBy != 0xF then q.spillTo else partAddr s) % 4096)
  let mac := match un, key with | false, some k => cmac 0x220 k head | _, _ => zeros 16
  head ++ mac ++ payload

/-- May responses of a session still be sent: open, or within 1 s of the end of its lifetime (R63)? -/
def sessionSends (s : State) (k : Session) : Bool :=
  k.state = .open || (k.state = .ended && s.time ≤ k.endedAt + 1000000000)

/-- The egress assembler sends a response by the way its request came (R35). A port whose link is down
holds it, up to 4 MiB (R85, Table 02-18). -/
def sendResponse (q : Request) (spilled : Bool) (s : State) : State :=
  let msg := responseMessage s q spilled
  let s := if q.within then largest 0x9053 4 (s.time - q.tIn) s else s
  match q.via with
  | .internal _ _ _ => s
  | .eth p sid =>
    match s.session? sid with
    | none => countDiscard q.via 7 s
    | some k =>
      if q.discard || !sessionSends s k then countDiscard q.via 7 s
      else if !(s.port p).up then
        let held := (s.port p).held
        if (held.map (fun h => h.size)).sum + msg.length ≤ 4194304 then
          s.setPort p { s.port p with held := held ++ [{ sid := sid, msg := msg, size := msg.length, since := s.time }] }
        else countDiscard q.via 8 s
      else ethMessage sid msg s
  | .ring f r =>
    if q.discard || (s.ring f r).state != .open then countDiscard q.via 7 s
    else ringSend f r 0x10 q.tag q.rspAddr q.rspCap (frameRecord 1 (q.hdr.requestId % 2 ^ 32) msg) q.hdr.irq s
  | .frieze p =>
    if q.discard then bump 0x9068 8 0 s
    else
      let head := responseHead s q (b2n q.bestEffort) q.status q.detail q.response.length (q.servedBy * 4096 + partAddr s % 4096)
      frzSend p (if q.within then 1 else 3) 0x02 q.originAddr (q.envelope ++ head ++ zeros 16 ++ q.response) s

-- The queue manager's view of requests.

def charge (q : Request) : Nat := q.budget + 400

def reqCharge (s : State) (r : Nat) : Nat := match s.req? r with | some q => charge q | none => 0

/-- Requests of a queue that have started and are not answered. -/
def startedOf (s : State) (qn : Nat) : List Request :=
  (s.reqs.filter (fun e => e.2.qn = qn &&
    (match e.2.stage with | .running _ _ => true | .spilled _ => true | _ => false) &&
    (match e.2.via with | .frieze _ => false | .internal _ _ _ => false | _ => true))).map (fun e => e.2)

def queueClass (k : Queue) : Nat := k.qctl % 4
def queueValid (k : Queue) : Bool := bit k.qctl 7
def queuePaused (k : Queue) : Bool := bit k.qctl 6

/-- Is an ORDERED request of the queue running (R83)? -/
def orderedRunning (s : State) (qn : Nat) : Bool := (startedOf s qn).any (fun q => q.hdr.ordered)

def isOrdered (s : State) (r : Nat) : Bool := match s.req? r with | some q => q.hdr.ordered | none => false

/-- BARRIER of a queue (R188): its head is ORDERED, or an ORDERED request of it runs. -/
def barrierOf (s : State) (qn : Nat) : Bool :=
  (match (s.queue qn).list.head? with | some r => isOrdered s r | none => false) || orderedRunning s qn

/-- May a request of its queue start now (R83): no ORDERED request runs, and an ORDERED one waits for every
earlier answer. -/
def mayStart (s : State) (r : Nat) : Bool :=
  match s.req? r with
  | none => false
  | some q =>
    let k := s.queue q.qn
    !queuePaused k && !orderedRunning s q.qn &&
      (!q.hdr.ordered || ((startedOf s q.qn).isEmpty && k.list.head? = some r))

/-- Is a queue active (R185)? -/
def queueActive (s : State) (qn : Nat) : Bool :=
  let k := s.queue qn
  queueValid k && (match k.list.head? with | some r => mayStart s r | none => false)

/-- The number by which a class list names the excess queue. -/
def excessId : Nat := 2 ^ 20

def excessActive (s : State) (n : Nat) : Bool :=
  match (s.chan n).excess.head? with | some r => mayStart s r | none => false

def Channel.activeOf (c : Channel) (k : Nat) : List Nat := if k = 1 then c.active1 else if k = 2 then c.active2 else c.active3
def Channel.setActive (c : Channel) (k : Nat) (l : List Nat) : Channel :=
  if k = 1 then { c with active1 := l } else if k = 2 then { c with active2 := l } else { c with active3 := l }

/-- Is an entry of a channel's class lists active there? -/
def listed (n : Nat) (s : State) (id : Nat) : Bool :=
  if id = excessId then excessActive s n else queueActive s id && (s.queue id).channel = n

/-- Active queues of a channel with their classes, in ascending queue number. -/
def activeHomes (n : Nat) (s : State) : List (Nat × Nat) :=
  (s.qm.queues.filter (fun e => e.2.channel = n && queueClass e.2 != 0 && listed n s e.1)).map (fun e => (queueClass e.2, e.1))

/-- One class list: those that stay, then those that became active. -/
def classList (n k : Nat) (s : State) (old : List Nat) : List Nat :=
  let kept := old.filter (fun id => listed n s id && (id = excessId || queueClass (s.queue id) = k))
  kept ++ (((activeHomes n s).filter (fun h => h.1 = k && !kept.contains h.2)).map (fun h => h.2)) ++
    (if k = 1 && excessActive s n && !kept.contains excessId then [excessId] else [])

/-- Entries of a channel's class lists that are no longer active. -/
def goneOf (n : Nat) (s : State) : List Nat :=
  ((s.chan n).active1 ++ (s.chan n).active2 ++ (s.chan n).active3).filter (fun id => !listed n s id)

/-- The channel with its class lists kept. -/
def syncedChan (n : Nat) (s : State) : Channel :=
  let c := s.chan n
  let c := { c with active1 := classList n 1 s c.active1, active2 := classList n 2 s c.active2, active3 := classList n 3 s c.active3 }
  if (goneOf n s).contains excessId then { c with excessDeficit := 0, excessFresh := true } else c

/-- A queue that is no longer active starts afresh. -/
def refreshQueue (s : State) (id : Nat) : State := s.setQueue id { s.queue id with deficit := 0, fresh := true }

/-- Keep a channel's class lists (R185): queues no longer active leave, with DEFICIT zero and fresh set;
queues that became active join the tail. -/
def syncChan (n : Nat) (s : State) : State :=
  ((goneOf n s).filter (fun id => id != excessId)).foldl refreshQueue (s.setChan n (syncedChan n s))

/-- Keep a queue's BARRIER (R188). -/
def syncBarrier (s : State) (qn : Nat) : State :=
  if (s.queue qn).barrier = barrierOf s qn then s else s.setQueue qn { s.queue qn with barrier := barrierOf s qn }

/-- Keep BARRIER and the class lists of every channel after a change. -/
def syncQueues (s : State) : State :=
  (List.range 9).foldl (fun s n => syncChan n s) (s.qm.queues.foldl (fun s e => syncBarrier s e.1) s)

-- Homes (R186).

/-- Queued charge of a channel: over the queues whose home it is. -/
def queuedCharge (s : State) (n : Nat) : Nat :=
  ((s.qm.queues.filter (fun e => e.2.channel = n)).map (fun e => (e.2.list.map (reqCharge s)).sum)).sum

/-- The channel of least value, ties to the lowest number. -/
def argMin (l : List Nat) (f : Nat → Nat) : Option Nat :=
  l.foldl (fun b n => match b with | none => some n | some m => if f n < f m then some n else b) none
def argMax (l : List Nat) (f : Nat → Nat) : Option Nat :=
  l.foldl (fun b n => match b with | none => some n | some m => if f m < f n then some n else b) none

/-- Give a queue a home. -/
def setHome (qn n : Nat) (s : State) : State :=
  { (s.setQueue qn { s.queue qn with channel := n, assigned := s.qm.assignSeq }) with
    qm := { (s.setQueue qn { s.queue qn with channel := n, assigned := s.qm.assignSeq }).qm with assignSeq := s.qm.assignSeq + 1 } }

/-- Every configured queue of C1 to C3 without a home in service gets one, in ascending queue number. -/
def assignHomes (s : State) : State :=
  let ns := chansIn s
  s.qm.queues.foldl (fun s e =>
    let k := s.queue e.1
    if queueValid k && queueClass k != 0 && !(ns.contains k.channel) then
      match argMin ns (queuedCharge s) with
      | some n => setHome e.1 n s
      | none => s
    else s) s

/-- A channel that entered IN_SERVICE takes home queues, oldest-assigned first, until its queued charge
reaches the mean. -/
def balanceTo (n : Nat) (s : State) : State :=
  let ns := chansIn s
  let mean (s : State) : Nat := (ns.map (queuedCharge s)).sum / Nat.max 1 ns.length
  let cand := (s.qm.queues.filter (fun e => queueValid e.2 && queueClass e.2 != 0 && e.2.channel != n && ns.contains e.2.channel)).map
    (fun e => (e.2.assigned, e.1))
  let order := (cand.foldl (fun t e => tput t e.1 e.2) ([] : Tab Nat)).map (fun e => e.2)
  order.foldl (fun s qn => if queuedCharge s n < mean s then setHome qn n s else s) s

/-- Non-C0 and C0 slots of a channel in use. -/
def slotsUsed (s : State) (n : Nat) (c0 : Bool) : Nat :=
  (s.reqs.filter (fun e => e.2.c0Slot = c0 && (match e.2.stage with | .running m _ => m = n | _ => false))).length
def freeSlots (s : State) (n : Nat) : Nat := 8 - slotsUsed s n false
def freeC0 (s : State) (n : Nat) : Nat := 7 - slotsUsed s n true

/-- Requests of an excess queue know the channel that holds it. -/
def noteExcess (l : List Nat) (n : Nat) (s : State) : State :=
  l.foldl (fun s r => match s.req? r with
    | some q => s.setQueue q.qn { s.queue q.qn with excessChan := n }
    | none => s) s

/-- The channel that takes an excess queue: that which got most of the homes, else that with most free slots. -/
def excessTaker (before : List Nat) (s : State) : Option Nat :=
  let ns := chansIn s
  let got (m : Nat) : Nat := (before.filter (fun qn => (s.queue qn).channel = m)).length
  match argMax ns got with
  | none => none
  | some m =>
    let tie := (ns.filter (fun k => got k = got m)).length != 1
    some (if before.isEmpty || tie then (argMax ns (freeSlots s)).getD m else m)

/-- The excess queue of a channel that left IN_SERVICE moves (R182). `before`: the homes it had. -/
def moveExcess (n : Nat) (before : List Nat) (s : State) : State :=
  let ex := (s.chan n).excess
  if ex.isEmpty then s
  else
    let s := s.setChan n { s.chan n with excess := [], excessDeficit := 0, excessFresh := true }
    match excessTaker before s with
    | none => { s with qm := { s.qm with excessHeld := s.qm.excessHeld ++ ex } }
    | some m => noteExcess ex m (s.setChan m { s.chan m with excess := (s.chan m).excess ++ ex })

-- Token buckets (R176), in charge cycles with 16 fractional bits.

def bucketDepth (s : State) (a : AdmRecord) : Nat := a.c0Depth * 65536 * Nat.min 8 (serviceCount s) / 8

/-- The level of a tenant's bucket, refilled to now. -/
def refilled (s : State) (a : AdmRecord) : AdmRecord :=
  let add := a.c0Rate * 65536 * Nat.min 8 (serviceCount s) * (s.time - a.last) / 8000
  { a with level := Nat.min (bucketDepth s a) (a.level + add), last := s.time }

/-- Clip every level to its depth when the number of channels in service changes. -/
def clipBuckets (s : State) : State :=
  { s with qm := { s.qm with adm := s.qm.adm.map (fun e => (e.1, { e.2 with level := Nat.min e.2.level (bucketDepth s e.2) })) } }

-- Declared budgets (Table 03-2, R90, R140, R215).

def ceilDiv (a b : Nat) : Nat := (a + b - 1) / b

/-- Cost of a block of a MAC key's algorithm, and its block size (R90). -/
def blockCost (alg : Nat) : Nat × Nat := if isAes alg then (240, 16) else (432, 8)

/-- ALG of the slot behind reference 0 as the key cache holds it; TDES when it is not resident. -/
def cachedAlg (s : State) (i : Nat) : Nat :=
  if resident s i then (let k := s.slot i; if k.blob then k.keyAlg else k.alg) else 0x110

/-- Cycles of a MAC over a message. -/
def macCost (s : State) (slot : Nat) (p : Bytes) : Nat :=
  let method := leAt p 0 1
  let len := leAt p 6 2
  if method = 8 then 160 * ((len + 9 + 63) / 64 + 3)
  else if method = 9 ∨ method = 10 then 200 * ((len + 17 + 127) / 128 + 3)
  else
    let alg := if leAt p 3 1 = 1 then dukptAlg (cachedAlg s slot) (leAt p 4 1) else cachedAlg s slot
    let (c, b) := blockCost alg
    let pad := leAt p 1 1
    let n := if method = 4 then Nat.max 1 (ceilDiv len b)
      else if pad = 2 then len / b + 1 else if pad = 3 then ceilDiv len b + 1 else Nat.max 1 (ceilDiv len b)
    c * n

/-- Signing cost of a key (Table 07-14). -/
def signCost (alg : Nat) : Nat :=
  match alg % 256 with
  | 0x01 => 48680 | 0x02 => 112600 | 0x03 => 41000 | 0x11 => 1760600 | 0x12 => 4000600
  | 0x20 => 1172392 | 0x21 => 1758392 | 0x22 => 2540392 | _ => 0

/-- KBU cycles of a key block under a protection key (Table 06-5), and the 64 of R215. -/
def kbuCost (s : State) (k : Slot) : Nat :=
  let palg := (s.slot k.kbpkSlot).alg
  let l := if palg = 0x210 then 240 else if palg = 0x218 then 288 else 336
  let st := if palg = 0x210 then 40 else if palg = 0x218 then 32 else 52
  let kk := if palg = 0x210 then 1 else 2
  let q := (2 + algBytes k.keyAlg + 15) / 16
  let h := (k.keyBlock.length - 32 * q - 32) / 16
  (2 + 2 * kk + h + 2 * q) * l + st + 8 + 64

/-- Slot references a service fetches for the request's options (Table 03-2, R133). -/
def fetchedRefs (h : Header) (p : Bytes) : List Nat :=
  match h.service with
  | 0x0101 | 0x0102 => [h.slot0, h.slot1]
  | 0x0201 | 0x0301 | 0x0302 | 0x0501 | 0x0502 | 0x0601 | 0x0602 => [h.slot0]
  | 0x0401 => [h.slot0, h.slot1]
  | 0x0701 => if leAt p 1 1 = 2 then [h.slot0, h.slot1] else [h.slot0]
  | 0x0803 => if h.nslot = 2 then [h.slot0, h.slot1] else [h.slot0]
  | 0x0A01 => (if bit (leAt p 0 1) 0 then [h.slot0] else [h.slot0, h.slot1, h.slot2]) ++ [h.slot3, h.slot3 + 1, h.slot3 + 2]
  | _ => if 0x8000 ≤ h.service then (List.range h.nslot).map h.slotRef else []

/-- The image bound to a customer code for a tenant. -/
def boundImage (s : State) (tenant code : Nat) : Option (Image × Binding) :=
  match s.svc.bindings.find? (fun b => b.tenant = tenant && b.code = code) with
  | some b => (tfind s.svc.images b.image).map (fun i => (i, b))
  | none => none

def isCustomer (svc : Nat) : Bool := 0x8000 ≤ svc

/-- Codes of Table 03-2. -/
def builtinCodes : List Nat :=
  [0x0101, 0x0102, 0x0103, 0x0201, 0x0301, 0x0302, 0x0401, 0x0501, 0x0502, 0x0601, 0x0602, 0x0701, 0x0801, 0x0802, 0x0803,
   0x0804, 0x0A01]

/-- Is the service known for the tenant (check 9, R89)? -/
def serviceKnown (s : State) (h : Header) : Bool :=
  builtinCodes.contains h.service || (isCustomer h.service && (boundImage s h.tenant h.service).isSome)

/-- Declared budget of a request. -/
def declaredBudget (s : State) (h : Header) (p : Bytes) : Nat :=
  let base : Nat :=
    match h.service with
    | 0x0101 => if leAt p 2 1 = 1 then 16000 else 6000
    | 0x0102 => if leAt p 1 1 = 1 then 18000 else 8000
    | 0x0103 => 2000
    | 0x0201 =>
      let len := leAt p 40 2
      8000 + (if leAt p 0 1 = 2 then 240 * Nat.max 1 (ceilDiv len 16) else 432 * (len / 8 + 1))
    | 0x0301 | 0x0302 => 3000 + macCost s h.slot0 p + (if leAt p 3 1 = 1 then 10000 else 0)
    | 0x0401 => 12000
    | 0x0501 | 0x0502 => 5000
    | 0x0601 | 0x0602 => if leAt p 0 1 = 2 then 4000 + 2400 * (ceilDiv (leAt p 6 1 + leAt p 40 2 + 1) 16 + 1) else 16000
    | 0x0701 => 8000
    | 0x0801 | 0x0804 => 2000
    | 0x0802 => 2000 + 200 * ceilDiv (leAt p 8 2) 128
    | 0x0803 => 6000 + signCost (cachedAlg s h.slot0) + (if h.nslot = 2 then signCost (cachedAlg s h.slot1) else 0)
    | 0x0A01 => 16000 + (match tfind s.svc.models (leAt p 14 2) with | some m => m.budget | none => 0)
    | _ => match boundImage s h.tenant h.service with | some (i, _) => i.budget | none => 0
  base + ((fetchedRefs h p).map (fun i => let k := s.slot i; if k.blob then kbuCost s k else 0)).sum

/-- Is the service marked C0 for the request's options (Table 03-2, R106, R138, R140, R145)? -/
def serviceC0 (s : State) (h : Header) (p : Bytes) : Bool :=
  match h.service with
  | 0x0101 | 0x0201 | 0x0301 | 0x0302 | 0x0501 | 0x0502 => true
  | 0x0102 => !bit (leAt p 28 1) 0
  | 0x0601 | 0x0602 => leAt p 0 1 = 1
  | 0x0A01 => match tfind s.svc.models (leAt p 14 2) with | some m => m.c0Claim | none => false
  | _ => match boundImage s h.tenant h.service with | some (i, _) => i.c0Claim | none => false

/-- Does the service change state when it runs, so that it is never spilled (R90)? -/
def serviceState (h : Header) (p : Bytes) : Bool :=
  match h.service with
  | 0x0102 => bit (leAt p 28 1) 0
  | 0x0103 | 0x0801 | 0x0802 | 0x0803 | 0x0804 => true
  | 0x0701 => leAt p 1 1 = 1
  | _ => false

/-- Condition 4: every key the service will fetch and the header key are pinned (R180, R284). -/
def keysPinned (s : State) (h : Header) (p : Bytes) : Bool :=
  (s.slot (s.tenant h.tenant).headerSlot).pinned &&
  (fetchedRefs h p).all (fun i => let k := s.slot i; k.pinned && (!k.blob || (s.slot k.kbpkSlot).pinned))

-- Release.

/-- Remove a request from every list it waits in. -/
def unlist (r : Nat) (s : State) : State :=
  match s.req? r with
  | none => s
  | some q =>
    let k := s.queue q.qn
    let was := (s.chan k.excessChan).excess.contains r
    let s := if k.list.contains r then s.setQueue q.qn { k with list := k.list.filter (fun x => !(x == r)) } else s
    let s := { s with
      qm := { s.qm with readyList := s.qm.readyList.filter (fun x => !(x == r)), excessHeld := s.qm.excessHeld.filter (fun x => !(x == r)),
                        internal := s.qm.internal.filter (fun x => !(x == r)) },
      chans := s.chans.map (fun c => (c.1, { c.2 with excess := c.2.excess.filter (fun x => !(x == r)) })) }
    let left := s.reqs.any (fun e => e.1 != r && e.2.qn = q.qn && e.2.stage = .excess)
    if was && !left then s.setQueue q.qn { s.queue q.qn with excess := false } else s

/-- A running request gives up its context, its core's slot and its work in the engines (step 10 of
Table 01-6, R203, R226). -/
def freeContext (r : Nat) (q : Request) (s : State) : State :=
  match q.stage with
  | .running n _ =>
    let s := releaseCtx n q.ctx s
    let s := s.modEng n (fun e => { e with
      cipher := e.cipher.filter (fun j => j.ctx != q.ctx), digest := e.digest.filter (fun j => j.ctx != q.ctx),
      pk := e.pk.filter (fun j => j.ctx != q.ctx), eph := e.eph.filter (fun p => p.2.1 != q.ctx) })
    let s := s.modIntc n (fun k => { k with reqs := k.reqs.filter (fun e => e.data % 2 ^ 18 != r) })
    (List.range 8).foldl (fun s c =>
      let sl := tget {} (s.chan n).slots c
      let s := if sl.c0 = some r then markSlot n c 0x200 none s else s
      if sl.n = some r then markSlot n c 0x201 none s else s) s
  | _ => s

/-- The request is answered and leaves the part. -/
def releaseReq (r : Nat) (s : State) : State :=
  match s.req? r with
  | none => s
  | some q =>
    let s := freeContext r q (unlist r s)
    let s := match q.via with
      | .frieze _ => s
      | .internal _ _ _ => s
      | _ =>
        let k := s.queue q.qn
        match q.stage with
        | .running _ _ => s.setQueue q.qn { k with running := k.running - 1 }
        | .spilled p =>
          let s := s.setQueue q.qn { k with running := k.running - 1 }
          if q.c0Spill then
            let f : FrzPort := tget ({} : FrzPort) s.frz.ports p
            { s with frz := { s.frz with ports := tset ({} : FrzPort) s.frz.ports p { f with tokens := f.tokens + 1 } } }
          else s
        | _ => s
    syncQueues { s with
      reqs := tdel s.reqs r
      svc := { s.svc with batches := s.svc.batches.map (fun e => if e.2.busy = some r then (e.1, { e.2 with busy := none }) else e) } }

/-- Answer a request and release it. -/
def answer (r status detail : Nat) (payload : Bytes) (s : State) : State :=
  match s.req? r with
  | none => s
  | some q =>
    let q := { q with status := status, detail := detail, response := payload, tOut := s.time }
    releaseReq r (sendResponse q (match q.stage with | .spilled _ => true | _ => false) s)

/-- End a request with a status and an empty payload. -/
def endRequest (r status : Nat) (s : State) : State := answer r status 0 [] s

/-- A ring request leaves without a response, by a completion; an Ethernet one is discarded (Table 02-17). -/
def dropRequest (r cstatus : Nat) (s : State) : State :=
  match s.req? r with
  | none => s
  | some q =>
    let s := match q.via with
      | .ring f k => completion f k q.tag 0 cstatus false s
      | v => countDiscard v 7 s
    releaseReq r s

end Sys2Proof.Machine
end

