-- ==== Sys2Proof/Machine/FrzLink.lean ====
section
/-! DEFINITION. Frieze routes (chapter 14): delays (R461), routes (R464), and the choice of a part to spill to
(R470, R471). -/

namespace Sys2Proof.Machine

-- Delays and routes.

/-- D_c of a link, ps: the reported delay plus 0.8 ns (R461). -/
def dC (k : FrzPort) : Nat := k.delay + 800

def partnerAddr (k : FrzPort) : Nat := leAt k.cap 8 2 % 4096
def partnerPort (k : FrzPort) : Nat := leAt k.cap 10 1

/-- A route: sum of (600 ns + D_c) in ps, links, first port. -/
structure Route where
  sum : Nat
  links : Nat
  port : Nat
  /-- addresses along it, the destination last -/
  path : List Nat := []
deriving DecidableEq, Repr

/-- Least sum, then fewer links, then lower port (R464). -/
def Route.better (a b : Route) : Bool :=
  a.sum < b.sum || (a.sum = b.sum && (a.links < b.links || (a.links = b.links && a.port < b.port)))

/-- Links of the topology as the part knows it: from address, to address, D_c, and own port for its own links. -/
def edges (s : State) : List (Nat × Nat × Nat × Nat) :=
  ((upPorts s).map (fun p => (partAddr s, partnerAddr (s.frzPort p), dC (s.frzPort p), p))) ++
  s.frz.topo.flatMap (fun t => t.2.links.map (fun l => (t.1, l.1, l.2, 3)))

/-- One pass over the links. -/
def relax (es : List (Nat × Nat × Nat × Nat)) (self : Nat) (t : Tab Route) : Tab Route :=
  es.foldl (fun t e =>
    let (a, b, d, p) := e
    if b = self then t
    else
      let src : Option Route := if a = self then (if p < 3 then some { sum := 0, links := 0, port := p } else none) else tfind t a
      match src with
      | none => t
      | some r =>
        let n : Route := { sum := r.sum + 600000 + d, links := r.links + 1, port := r.port, path := r.path ++ [b] }
        match tfind t b with
        | some o => if n.better o then tput t b n else t
        | none => tput t b n) t

def relaxTimes (es : List (Nat × Nat × Nat × Nat)) (self : Nat) : Nat → Tab Route → Tab Route
  | 0, t => t
  | n + 1, t => relaxTimes es self n (relax es self t)

/-- Routes to every part that UP links reach. -/
def routes (s : State) : Tab Route := relaxTimes (edges s) (partAddr s) (s.frz.topo.length + 1) []

/-- Port by which a part is reached. -/
def routePort (s : State) (addr : Nat) : Option Nat := (tfind (routes s) addr).map (fun r => r.port)

/-- Parts in the topology. -/
def topoParts (s : State) : Nat := (routes s).length + 1

-- Spill credit (R469 to R471).

/-- Is device time good enough for C0 spill over a link? -/
def timeGood (s : State) (p : Nat) : Bool :=
  (s.frz.timeState = .locked || s.frz.timeState = .master) && decide ((s.frzPort p).offset ≤ 20) && decide (-20 ≤ (s.frzPort p).offset)

/-- Credit of an advertisement for a class. -/
def Advert.credit (a : Advert) (k : Nat) : Nat := if k = 2 then a.c2 else if k = 3 then a.c3 else a.c1

/-- May a request be spilled at all (R189)? -/
def spillAllowed (s : State) (q : Request) : Bool :=
  bit (s.queue q.qn).qctl 4 && !q.hdr.noSpill && !q.hdr.ordered && !serviceState q.hdr q.payload && !q.wasSpilled &&
  (q.hdr.class != 3 || s.cfgB 0x4003 4) &&
  (match q.via with | .eth _ _ => true | .ring _ _ => true | _ => false)

/-- The part that takes a spilled request of C1 to C3 or a best-effort C0 request (R470). -/
def spillTarget (s : State) (q : Request) : Option Advert :=
  let k := Nat.max 1 q.hdr.class
  let ok := s.frz.adverts.filter (fun a => 0 < a.credit k && a.links ≤ s.cfg 0x4003 5 && (routePort s a.addr).isSome)
  ok.foldl (fun b a => match b with
    | none => some a
    | some o =>
      if a.links < o.links || (a.links = o.links && (o.credit k < a.credit k || (a.credit k = o.credit k && a.addr < o.addr))) then some a
      else b) none

/-- Level of the bucket over a partner's advertised C0 credit, refilled to now (R471). -/
def outLevelNow (s : State) (p : Nat) (a : Advert) : Nat :=
  let k := s.frzPort p
  Nat.min (a.c0Depth * 65536) (k.outLevel + a.c0Rate * 65536 * (s.time - k.outLast) / 1000)

/-- Largest response payload of a C0 service is at most 2,048 bytes (R471). -/
def c0ResponseFits (s : State) (h : Header) : Bool :=
  if isCustomer h.service then (match boundImage s h.tenant h.service with | some (i, _) => i.maxRsp ≤ 2048 | none => false) else true

/-- The direct neighbour that takes a C0 request (R190, R471). -/
def c0SpillTarget (s : State) (q : Request) : Option Advert :=
  if !s.cfgB 0x4003 1 || !c0ResponseFits s q.hdr then none
  else s.frz.adverts.find? (fun a =>
    a.links = 1 && a.tenants.contains q.hdr.tenant && (s.frzPort a.port).state = .up && partnerAddr (s.frzPort a.port) = a.addr &&
    timeGood s a.port && 0 < (s.frzPort a.port).tokens && charge q * 65536 ≤ outLevelNow s a.port a && 0 < a.c0Rate)

/-- EXTENSION of a C0 spill over a link, ns, rounded up (Table 14-11). -/
def extensionNs (k : FrzPort) : Nat := (2 * (600000 + dC k) + 999) / 1000

/-- The spill envelope (Table 14-11). -/
def envelope (s : State) (r : Nat) (q : Request) (c0 : Bool) (ext : Nat) : Bytes :=
  let pcie := match q.via with | .ring _ _ => true | _ => false
  leBytes 2 (partAddr s % 4096) ++ leBytes 1 (b2n c0 + 2 * b2n pcie) ++ [0] ++ leBytes 4 r ++ leBytes 8 q.tIn ++ leBytes 4 ext ++
  leBytes 4 (charge q) ++ zeros 8

/-- Take one from an advertisement's credit for a class. -/
def takeCredit (addr k : Nat) (s : State) : State :=
  s.modFrz (fun f => { f with adverts := f.adverts.map (fun a =>
    if a.addr = addr then (if k = 2 then { a with c2 := a.c2 - 1 } else if k = 3 then { a with c3 := a.c3 - 1 } else { a with c1 := a.c1 - 1 })
    else a) })

/-- Send a request that waits in the table to a neighbour (R190, R472). -/
def spillOut (r : Nat) (a : Advert) (c0 : Bool) (s : State) : State :=
  match s.req? r with
  | none => s
  | some q =>
    let s := unlist r s
    let port := if c0 then a.port else (routePort s a.addr).getD a.port
    let ext := if c0 then extensionNs (s.frzPort port) else 0
    let s := if c0 then
        let lvl := outLevelNow s port a
        s.modFrzPort port (fun k => { k with tokens := k.tokens - 1, outLevel := lvl - charge q * 65536, outLast := s.time })
      else takeCredit a.addr (Nat.max 1 q.hdr.class) s
    let msg := envelope s r q c0 ext ++ q.hdr.bytes ++ q.payload
    let s := s.setReq r { q with stage := .spilled port, wasSpilled := true, spillTo := a.addr, c0Spill := c0, extraNs := ext, path := partAddr s :: (if c0 then [a.addr] else ((tfind (routes s) a.addr).map (fun t => t.path)).getD [a.addr]) }
    let k := s.queue q.qn
    let s := s.setQueue q.qn { k with running := k.running + 1 }
    syncQueues (bump 0x9052 8 q.hdr.tenant (frzSend port (if c0 then 1 else 3) 0x01 a.addr msg s))

-- Port states and handshakes (R456, R458).

/-- A change of a port's data state, with device event 0x8050 + p (R456). The management state follows in the same
step. -/
def setFrz (p : Nat) (st : PortState) (s : State) : State :=
  if (s.frzPort p).state = st then s.modFrzPort p (fun k => { k with mgmt := st, enteredAt := s.time })
  else devEvent (0x8050 + p) st.code (s.modFrzPort p (fun k => { k with state := st, mgmt := st, enteredAt := s.time }))

/-- The capability record (Table 14-6). -/
def capability (s : State) (p : Nat) : Bytes :=
  serialBytes s ++ leBytes 2 (partAddr s) ++ leBytes 1 p ++ leBytes 1 (s.cfg 0x1000 4) ++ leBytes 4 (s.cfg 0x6000 2) ++
  padTo 8 s.ks.mkid ++ leBytes 2 (s.cfg 0x6004 1) ++ leBytes 2 (s.cfg 0x6005 1) ++ leBytes 4 (s.cfg 0x6002 2) ++
  leBytes 4 (s.cfg 0x6002 1) ++ leBytes 4 (selectedBank s).release ++ zeros 24

/-- The payload of an LHELLO before its signature. -/
def lhelloBody (nonce pub cap chain : Bytes) : Bytes := nonce ++ pub ++ cap ++ chain

/-- Send an LHELLO: nonce and ephemeral key are drawn; without a usable signing key none is sent. -/
def sendLhello (p : Nat) (s : State) : State :=
  match fetchChecks (s.cfg 0x5005 1) 0 0x40000 (fun a => a = 0x1002) true s with
  | .fail _ s => s
  | .ok k s =>
    let nonce := freeBytes 32 s
    let s := useFree s
    let eph := freeBytes 48 s
    let s := useFree s
    let body := lhelloBody nonce (pkPublic 4 eph) (capability s p) (s.octets 0x1008 1)
    let sig := pkSign 2 2 k.material (digest 2 body 0) [] (freeBytes 48 s)
    let s := useFree s
    frzSend p 2 0x24 (partnerAddr (s.frzPort p)) (body ++ padTo 96 sig) (s.modFrzPort p (fun k => { k with myNonce := nonce, myEph := eph }))

end Sys2Proof.Machine
end

