-- ==== Sys2Proof/Machine/Quarantine.lean ====
section
/-! DEFINITION. Changes of a channel's state (chapter 01, R23 to R29), the moves of queues and excess
queues that follow them (R182, R186), the forced quarantine window (R183) and quarantine (R27, R228). -/

namespace Sys2Proof.Machine

/-- Value of a channel state (Table 01-3). -/
def ChanState.code : ChanState → Nat
  | .off => 0 | .bootTest => 1 | .inService => 2 | .draining => 3 | .restTest => 4 | .restStandby => 5
  | .returning => 6 | .quarantine => 7

/-- Does a core of the channel stand halted (R408)? -/
def haltedCore (s : State) (n : Nat) : Bool := (List.range 8).any (fun c => (s.core (n * 8 + c)).run = .halted)

/-- States in which a BRK may stay armed (R408). -/
def debugState (st : ChanState) : Bool := st = .restTest || st = .restStandby || st = .quarantine

/-- Homes of a channel, in ascending queue number. -/
def homesOf (s : State) (n : Nat) : List Nat := (s.qm.queues.filter (fun e => queueValid e.2 && e.2.channel = n)).map (fun e => e.1)

/-- An armed BRK does not outlive the states in which one may stay armed (R408). -/
def disarmBreaks (n : Nat) (st : ChanState) (s : State) : State :=
  if debugState st then s
  else (List.range 8).foldl (fun s i => s.modCore (n * 8 + i) (fun k => { k with armed := false })) s

/-- Retention sleep in REST_STANDBY, and its end (R382). -/
def retentionStep (n : Nat) (old st : ChanState) (s : State) : State :=
  if st = .restStandby && s.cfgB (chIdx n 0x13) 1 then retentionEnter n s
  else if old = .restStandby then retentionExit n s else s

/-- Buckets follow the number of channels in service (R176). -/
def bucketStep (old st : ChanState) (s : State) : State :=
  if (old = .inService) != (st = .inService) then clipBuckets s else s

/-- A channel that enters service takes the excess requests held while none was (R182). -/
def takeHeldExcess (n : Nat) (s : State) : State :=
  if s.qm.excessHeld.isEmpty then s
  else
    noteExcess s.qm.excessHeld n
      ({ s with qm := { s.qm with excessHeld := [] } }.modChan n (fun k => { k with excess := k.excess ++ s.qm.excessHeld }))

/-- What follows for homes and excess queues; `before`: the homes that the channel had (R182, R186). -/
def homeStep (n : Nat) (old st : ChanState) (before : List Nat) (s : State) : State :=
  if old = .inService then moveExcess n before (if s.supRestarting then s else assignHomes s)
  else if st = .inService then balanceTo n (assignHomes (takeHeldExcess n s))
  else s

/-- Change a channel's state: device event 0x8000 + n, and what follows for its queues, the buckets,
retention sleep and armed breaks. A channel with a halted core does not leave its state (R408). -/
def setChanState (n : Nat) (st : ChanState) (s : State) : State :=
  let old := (s.chan n).data
  if old = st || haltedCore s n then s
  else
    let moved := s.setChan n { s.chan n with data := st, mgmt := st, divergeSince := none, enteredAt := s.time }
    syncQueues (homeStep n old st (homesOf s n) (bucketStep old st (retentionStep n old st (disarmBreaks n st
      (devEvent (0x8000 + n) (st.code + 256 * old.code) moved)))))

/-- Healthy channels: not in QUARANTINE (R24). -/
def healthyCount (s : State) : Nat := ((List.range 9).filter (fun n => (s.chan n).data != .quarantine)).length

/-- Open a forced quarantine window (R183): every C0 request within the conditions leaves them. -/
def openWindow (n : Nat) (s : State) : State :=
  let s := bump 0x9053 5 0 (devEvent 0x8041 n s)
  { s with
    qm := { s.qm with windows := s.qm.windows ++ [{ openedAt := s.time, channel := n, moved := true, rescaled := true }] }
    reqs := s.reqs.map (fun e => (e.1, if e.2.within then { e.2 with within := false, bestEffort := true } else e.2)) }

/-- The rest channel's part when an in-service channel enters QUARANTINE (R27). -/
def recallRest (s : State) : State :=
  (List.range 9).foldl (fun s m =>
    match (s.chan m).data with
    | .restStandby => setChanState m .returning s
    | .restTest => s.modChan m (fun c => { c with abandon := true })
    | .draining =>
      if s.rest.urgentMove then s
      else setChanState m .inService { s with rest := { s.rest with next := none } }
    | _ => s) s

/-- Requests running on a channel. -/
def runningOn (s : State) (n : Nat) : List Nat :=
  (s.reqs.filter (fun e => match e.2.stage with | .running m _ => m = n | _ => false)).map (fun e => e.1)

/-- A channel enters QUARANTINE (R27, R182, R183, R186, R228, Table 02-17). -/
def quarantineChannel (n : Nat) (s : State) : State :=
  let was := (s.chan n).data
  if was = .quarantine || haltedCore s n then s
  else
    let s := setChanState n .quarantine s
    let s := clearCells n s
    let s := (runningOn s n).foldl (fun s r => endRequest r 0x0506 s) s
    let s := withdrawAll n s
    let s := s.modChan n (fun c => { c with abandon := false, testPhase := 0 })
    let s := if s.rest.channel = n then { s with rest := { s.rest with channel := 9 } } else s
    let s := if s.rest.next = some n then { s with rest := { s.rest with next := none, urgentMove := false } } else s
    if was = .inService then recallRest (openWindow n s) else s

end Sys2Proof.Machine
end

