-- ==== Sys2Proof/Machine/Response.lean ====
section
/-! DEFINITION. Response levels (15, R490 to R496) and what they do to requests, sessions, keys and the
lifecycle (02 R85, 06 R227, 08 R301 to R303); the entries of alarms in the Patina log. -/

namespace Sys2Proof.Machine

-- Lifecycle entries (16, R534, R535, Table 16-14).

/-- Value of a lifecycle state (Table 16-9). -/
def LifeState.code : LifeState → Nat
  | .manufacture => 0 | .initial => 1 | .operational => 2 | .recovery => 3 | .zeroized => 4 | .decommissioned => 5

/-- A lifecycle transition with its entry. CAUSE: 0 ceremony, 1 L4, 2 battery lost, 3 boot condition, 4 condition
removed, 5 fuse. -/
def setLife (new : LifeState) (cause : Nat) (s : State) : State :=
  if s.life.state = new then s
  else
    logEntry 0x0700 1 [BitVec.ofNat 8 s.life.state.code, BitVec.ofNat 8 new.code, BitVec.ofNat 8 cause]
      { s with life := { s.life with state := new } }

/-- A boot condition of Table 16-12 that keeps the part in RECOVERY: no DDR, a LOST configuration, no key store. -/
def bootCondition (s : State) : Bool := s.ddr.cap = 0 || s.mgmt.lost = 2 || s.ks.missing

/-- Removal of the condition ends RECOVERY (R535). -/
def endRecovery (s : State) : State :=
  if s.life.state = .recovery && !bootCondition s then setLife .operational 4 s else s

-- Alarm entries (R483, R493, Table 15-9).

/-- A raise entry: alarm, its level, place `i` of `n`, time, SDATA and the level executed. -/
def raiseEntry (a lvl n i time : Nat) (sdata : Bytes) (exec erase : Nat) : Entry :=
  { time := time, source := 0x0100 + a, code := 1, level := lvl, eflags := if 1 < n then 2 else 0, group := n * 256 + i,
    data := padTo 24 (padTo 16 sdata ++ [BitVec.ofNat 8 exec, BitVec.ofNat 8 erase]) }

/-- A clear entry: how long the alarm was ACTIVE, saturating. -/
def clearEntry (a ns : Nat) (s : State) : State := logEntry (0x0100 + a) 2 (leBytes 8 (Nat.min (2 ^ 64 - 1) ns)) s

/-- An end entry: METHOD 0 hold time, 1 OPERATOR write, 2 officer ceremony. -/
def endEntry (a method slot : Nat) (s : State) : State :=
  logEntry (0x0100 + a) 3 ([BitVec.ofNat 8 method] ++ leBytes 4 slot) s

-- Outputs (R496).

/-- One ALM_N output: driven low from a threshold up and for 1 ms after each assertion. -/
def almPin (lvl thr now : Nat) (low : Bool) (since : Nat) : Bool × Nat :=
  if thr ≤ lvl then (true, if low then since else now)
  else (low && decide (now < since + 1000000), since)

/-- Both ALM_N outputs; both are low until the ROM has restored the held states, and released on the backup cell. -/
def updatePins (s : State) : State :=
  if !s.batt.mainPower then { s with pins := { s.pins with alm0 := false, alm1 := false } }
  else if s.pins.almForced then s
  else
    let p0 := almPin (levelHeld s) (s.cfg 0x7004 1) s.time s.pins.alm0 s.pins.alm0At
    let p1 := almPin (levelHeld s) (s.cfg 0x7004 2) s.time s.pins.alm1 s.pins.alm1At
    { s with pins := { s.pins with alm0 := p0.1, alm0At := p0.2, alm1 := p1.1, alm1At := p1.2 } }

-- Responses.

/-- L2: requests admitted and not dispatched are answered 0x0F02, not run (Table 02-17). -/
def respondL2 (s : State) : State :=
  let waiting := (s.reqs.filter (fun e => (match e.2.via with | .internal _ _ _ => false | _ => true) &&
    (match e.2.stage with | .fetchWait => true | .queued => true | .ready => true | .excess => true | _ => false))).map (fun e => e.1)
  waiting.foldl (fun s r => endRequest r 0x0F02 s) s

/-- Every request is caught: a ring gets a completion, Ethernet nothing (Table 02-17). A descriptor whose frame is
not complete is completed too (R84). -/
def catchRequests (cstatus : Nat) (s : State) : State :=
  let s := (s.reqs.map (fun e => e.1)).foldl (fun s r => dropRequest r cstatus s) s
  let s := s.rings.foldl (fun s e =>
    e.2.fetched.foldl (fun s d => completion (e.1 / 256) (e.1 % 256) d.1 0 cstatus false s) s) s
  s.eth.foldl (fun s e =>
    let s := e.2.held.foldl (fun s _ => bump (0x9040 + e.1) 7 0 s) s
    s.setPort e.1 { s.port e.1 with held := [] }) s

/-- Ring pairs go to STOPPED, Ethernet sessions cease to exist. -/
def endSessions (err : Nat) (s : State) : State :=
  let s := s.rings.foldl (fun s e =>
    if e.2.state = .disabled ∨ e.2.state = .stopped then s else ringError (e.1 / 256) (e.1 % 256) err s) s
  { s with sessions := [] }

/-- Management sessions close (R434, R441): their transactions roll back, with one that has not passed its commit
point; one past it goes on without its session, and a domain transaction in hand at its coordinator likewise (R444). -/
def dropSessions (gone : Nat → MgSess → Bool) (s : State) : State :=
  let lost (m : Nat) : Bool := match tfind s.mgmt.sess m with | some k => gone m k | none => true
  let keep (j : CommitJob) : Bool := match j.sess with
    | some m => !lost m || 4 ≤ j.stage || j.domain
    | none => true
  let job := match s.mgmt.job with
    | some j => if keep j then some { j with sess := j.sess.filter (fun m => !lost m) } else none
    | none => none
  let dropped := s.mgmt.job.isSome && job.isNone
  let s := if dropped then s.updKs (fun k => { k with changed := true, image := match k.image with
      | some i => if i.forCommit then none else some i
      | none => none })
    else s
  { s with mgmt := { s.mgmt with
      sess := s.mgmt.sess.filter (fun e => !gone e.1 e.2), job := job, commits := s.mgmt.commits.filter (fun m => !lost m),
      owner := s.mgmt.owner.filter (fun e => !lost e.2),
      domain := s.mgmt.domain.map (fun e => (e.1, { e.2 with sess := e.2.sess.filter (fun m => !lost m) })) } }

/-- The sessions that L3 closes are the authenticated ones; L4 closes all (R434). -/
def closeMgmt (every : Bool) (s : State) : State := dropSessions (fun _ k => every || k.auth || k.handshake) s

/-- Frieze ports clear their link keys after what they have queued (R459); a joined link stays aligned until the
part resumes. -/
def clearFrieze (s : State) : State :=
  (List.range 3).foldl (fun s p =>
    let s := s.modFrzPort p (fun k => { k with
      txKey := [], txIv := [], rxKey := [], rxIv := [], oldRxKey := [], oldRxLeft := 0, nextTxKey := [], nextRxKey := [], sent := []
      waiting := [], partials := [], txSeq := 0, rxSeq := 0, txEpoch := 0, rxEpoch := 0 })
    match (s.frzPort p).state with
    | .up | .held | .measure | .handshake => setFrz p .align s
    | _ => s) s

/-- Clearance of working keys on the main die: cells, handles, generators, key cache, roots and session keys, with
the fates of Table 02-17. -/
def clearWorking (cstatus err : Nat) (s : State) : State :=
  clearAllKeys (endSessions err (catchRequests cstatus s))

/-- The master key register reads zero from here (R43). -/
def eraseMaster (s : State) : State :=
  s.updKs (fun k => { k with w0 := 0, w1 := 0, w2 := 0, w3 := 0, zeroized := true })

def setClearLines (v : Bool) (s : State) : State := { s with clear := { l0 := v, l1 := v, l2 := v } }

/-- L3, or L4 with its own completion code and ring error. -/
def respondL3 (l4 : Bool) (s : State) : State :=
  let s := stopBackup (setClearLines true s)
  let s := if l4 then clearWorking 0x0F05 6 s else clearWorking 0x0F04 5 s
  clearFrieze (closeMgmt l4 s)

/-- L4: the erase, the lifecycle and the fates of zeroization. `cause`: of the lifecycle entry. -/
def zeroizeWith (cause : Nat) (s : State) : State :=
  let s := respondL3 true (eraseMaster s)
  match s.life.state with
  | .initial | .operational | .recovery => setLife .zeroized cause s
  | _ => s

def respondL4 (s : State) : State := zeroizeWith 1 s

/-- Are alarm reports carried over the Plinth link to the main die? -/
def linkCarries (s : State) : Bool := s.plink.state = .up && (s.alarm 0x17).state = .clear


/-- ALARM message of an alarm of this part, flooded on every UP port (R475). -/
def floodAlarm (r : WinReport) (time : Nat) (s : State) : State :=
  if r.alarm = 0x24 || !linkCarries s || (r.level != 4 && r.level < s.cfg 0x6030 1) then s
  else
    let s := s.modFrz (fun f => { f with ownAlarm := f.ownAlarm + 1 })
    flood 0 0x20 (leBytes 2 (partAddr s) ++ serialBytes s ++ leBytes 4 s.frz.ownAlarm ++ leBytes 2 r.alarm ++
      leBytes 1 r.level ++ leBytes 8 time) none s

/-- The added actions of the levels above `before`, from the most severe down (R493, R494). `time`, `reports`: the
group. -/
def respond (before after time : Nat) (reports : List WinReport) (s : State) : State :=
  let s := alarmEndsCer reports s
  let s := if 1 ≤ after then reports.foldl (fun s r => floodAlarm r time s) s else s
  let s := if before < 4 ∧ 4 ≤ after then respondL4 s
    else if before < 3 ∧ 3 ≤ after then respondL3 false s else s
  let s := if before < 2 ∧ 2 ≤ after then respondL2 s else s
  let s := if before < 1 ∧ 1 ≤ after then devEvent 0x8070 (freeNat (2 ^ 32) s) (useFree s) else s
  updatePins s

/-- The level held has fallen from `before`: below L3 the clear lines are released, the roots are resent and the
pinned entries refilled (R302), and the links return to HANDSHAKE (R459); below L2 admission resumes by itself. -/
def levelFell (before : Nat) (s : State) : State :=
  let s :=
    if 3 ≤ before ∧ levelHeld s < 3 then
      let s := deriveRoots (setClearLines false s)
      let s := if s.ks.rootsPresent then
          (s.ks.slots.filter (fun e => e.2.pinned)).foldl (fun s e => askFill e.1 false s) s
        else s
      (List.range 3).foldl (fun s p =>
        if (s.frzPort p).state = .align then
          sendLhello p (setFrz p .handshake s)
        else s) s
    else s
  updatePins s

/-- An alarm that is not ACTIVE becomes CLEAR with its end entry. -/
def endAlarm (a method slot : Nat) (s : State) : State :=
  let before := levelHeld s
  levelFell before (endEntry a method slot (s.setAlarm a { s.alarm a with state := .clear, raised := 0, oneShot := false }))

/-- An alarm leaves ACTIVE and becomes HELD, with its clear entry. -/
def leaveActive (a : Nat) (s : State) : State :=
  let k := s.alarm a
  let s := if a = 0x20 then rtcMark true s else s
  clearEntry a (s.time - k.activeSince) (s.setAlarm a { k with state := .held, leftAt := s.time, oneShot := false })

/-- The master key register is erased at the report of a sensor source at L4, without a clock edge (R43, R491). -/
def sensorErase (a : Nat) (s : State) : State :=
  if a ≤ 0x11 && alarmLevel s a = 4 && watching s then eraseMaster s else s

end Sys2Proof.Machine
end

