-- ==== Sys2Proof/Machine/Rest.lean ====
section
/-! DEFINITION. The Plinth link (01, R17 to R21), the rest role and its rotation (R24 to R30), self-tests of
channels (18, R592 to R595) and the reset of a channel's cores. -/

namespace Sys2Proof.Machine

-- The Plinth link.

def State.modPlink (s : State) (f : Plink → Plink) : State := { s with plink := f s.plink }

/-- A retrain starts: the first of a 10 ms window, or the next one of it (R20). -/
def startRetrain (s : State) : State :=
  let s := s.modPlink (fun k =>
    if 0 < k.retrains ∧ s.time < k.windowStart + 10000000 then { k with state := .retrain, retrains := k.retrains + 1 }
    else { k with state := .retrain, retrains := 1, windowStart := s.time })
  devEvent 0x8071 (s.plink.retrains % 4) s

/-- A frame is not delivered: the endpoint asks for it again, and its fault source may order a retrain (R19). -/
def linkReplay (s : State) : State :=
  let (s, lasting) := countFault 0x0A 0 0 (emit (.plink 1 []) s)
  if lasting && s.plink.state = .up then startRetrain s else s

/-- Deliver a frame at an endpoint. -/
def LinkEnd.take (e : LinkEnd) (payload : Bytes) : LinkEnd :=
  { e with rxCtr := e.rxCtr + 1, delivered := e.delivered ++ [payload] }

/-- The sender keeps a frame for replay, and counts it. -/
def LinkEnd.sent (e : LinkEnd) (payload : Bytes) : LinkEnd :=
  { e with txCtr := e.txCtr + 1, replay := (payload :: e.replay).take 64 }

def execPlinthLinkFrame (toMain crcOk : Bool) (header payload tag : Bytes) (s : State) : Res :=
  .next (
    if s.plink.state != .up then s
    else if !crcOk then linkReplay s
    else
      let e := if toMain then s.plink.main else s.plink.plinth
      let key := leBytes 32 s.plink.linkKey.toNat
      let ct := linkCrypt key toMain e.rxCtr payload
      if linkTag key toMain e.rxCtr header ct = tag then
        s.modPlink (fun k =>
          if toMain then { k with main := k.main.take payload, plinth := k.plinth.sent payload }
          else { k with plinth := k.plinth.take payload, main := k.main.sent payload })
      else raiseAlarm 0x17 [] s)

def execPlinthLinkLockLoss (s : State) : Res := .next (if s.plink.state = .up then startRetrain s else s)

def execPlinthLinkRetrainComplete (ok : Bool) (s : State) : Res :=
  .next (
    if s.plink.state != .retrain then s
    else if ok then s.modPlink (fun k => { k with state := .up })
    else if 3 ≤ s.plink.retrains ∧ s.time < s.plink.windowStart + 10000000 then
      raiseLasting 0x0A 2 (devEvent 0x8071 (s.plink.retrains % 4) (s.modPlink (fun k => { k with state := .failed })))
    else startRetrain s)

-- Clear-keys lines (R21).

/-- Lines that are asserted. -/
def ClearLines.count (c : ClearLines) : Nat := b2n c.l0 + b2n c.l1 + b2n c.l2

def execClearKeysAssert (l0 l1 l2 : Bool) (s : State) : Res :=
  let s := { s with clear := { l0 := l0, l1 := l1, l2 := l2 } }
  .next (if 2 ≤ s.clear.count then clearFrieze (closeMgmt false (clearWorking 0x0F04 5 s)) else s)

def execClearLineDisagreement (l0 l1 l2 : Bool) (s : State) : Res :=
  let s := { s with clear := { l0 := l0, l1 := l1, l2 := l2 } }
  .next (if s.clear.count = 1 ∨ s.clear.count = 2 then raiseAlarm 0x16 [] s else s)

-- Core resets (Table 10-11, R595).

/-- Code segment in which a core starts: its channel SRAM alias, or its local memory (DESIGN CHOICE, log 25). -/
def resetCode (c : Nat) : BitVec 128 :=
  if c < 72 then mkSeg 0 0x3FFFFF 0 true true false false else mkSeg 0x400000 0x3FFFFF 0 true true false false

/-- Is any core locked up? -/
def anyLocked (s : State) : Bool := s.cores.any (fun e => e.2.run = .lockedUp)

/-- CORE_LOCK_N is low: a core is locked up, or the pin went low less than 1 µs ago (R365). -/
def coreLockPin (s : State) : Bool := anyLocked s || (s.pins.coreLock && decide (s.time < s.pins.coreLockAt + 1000))

/-- Reset and start a core. -/
def startCore (c : Nat) (s : State) : State :=
  let s := s.setCore c { run := .running, sg := [(7, resetCode c)] }
  if anyLocked s then s else { s with pins := { s.pins with coreLock := coreLockPin s } }

/-- Reset the eight cores of a channel and its interrupt controller. -/
def resetChannel (n : Nat) (s : State) : State :=
  (List.range 8).foldl (fun s i => startCore (n * 8 + i) s) (resetIntc n s)

-- Moves of the rest role (R24, R25, R28, R594).

/-- The first channel numbered above `r`, modulo 9, that is not in QUARANTINE (R24). -/
def rotationNext (s : State) (r : Nat) : Nat :=
  (((List.range 9).map (fun i => (r + 1 + i) % 9)).find? (fun n => (s.chan n).data != .quarantine)).getD r

/-- A channel starts a self-test. -/
def startTest (n : Nat) (s : State) : State :=
  s.modChan n (fun c => { c with testPhase := 1, testStart := s.time, abandon := false })

/-- A channel enters REST_TEST, where its rest period begins. -/
def enterRest (n : Nat) (s : State) : State :=
  startTest n { setChanState n .restTest s with
    rest := { s.rest with channel := n, start := s.time, next := none, urgentMove := false, period := s.cfg 0x9002 1 } }

/-- Start a move of the rest role from a channel in REST_STANDBY to another, or test it again where it stands. -/
def moveRest (dst : Nat) (urgent : Bool) (s : State) : State :=
  let r := s.rest.channel
  if dst = r then enterRest r s
  else setChanState r .returning { s with rest := { s.rest with next := some dst, urgentMove := urgent } }

/-- The channel that a move takes to rest: the one asked for, where it is healthy, or the next in rotation. -/
def restTarget (s : State) : Nat :=
  match s.rest.reqNormal with
  | some k => if (s.chan k).data = .quarantine then rotationNext s s.rest.channel else k
  | none => rotationNext s s.rest.channel

/-- An urgent request starts its move when the rest channel is not under test (R594); with only eight healthy
channels its channel drains at once (R28). -/
def urgentMove (s : State) : State :=
  match s.rest.reqUrgent with
  | none => s
  | some k =>
    let done (s : State) : State := { s with rest := { s.rest with reqUrgent := none } }
    if s.rest.channel < 9 then
      if (s.chan s.rest.channel).data = .restStandby ∧ s.rest.next = none then done (moveRest k true s) else s
    else if (s.chan k).data = .inService then
      done (setChanState k .draining { s with rest := { s.rest with next := some k, urgentMove := true } })
    else s

/-- Channels that still have to take the runtime of the bank named, and are not in QUARANTINE. -/
def oldChannels (s : State) : List Nat := s.life.olds.filter (fun n => (s.chan n).data != .quarantine)

/-- Step 5 of Table 16-15: the next move, made without waiting for the rest period. With only eight healthy channels
the next one drains and returns without a test. -/
def bankMove (s : State) : State :=
  if !(s.life.act = 1 || s.life.act = 3) || s.supRestarting || (oldChannels s).isEmpty then s
  else if healthyCount s = 9 then
    (if decide (s.rest.channel < 9) && (s.chan s.rest.channel).data = .restStandby && s.rest.next = none then
      moveRest (rotationNext s s.rest.channel) false s
    else s)
  else if (List.range 9).any (fun n => (s.chan n).data = .draining || (s.chan n).data = .returning) then s
  else
    match (oldChannels s).find? (fun n => (s.chan n).data = .inService) with
    | some n => setChanState n .draining s
    | none => s

/-- A channel has taken the runtime of the bank named; the last one ends step 5, or the reversion. -/
def bankTaken (n : Nat) (s : State) : State :=
  if !s.life.olds.contains n then s
  else
    let s : State := { s with life := { s.life with olds := s.life.olds.filter (fun x => x != n) } }
    if !(oldChannels s).isEmpty then s
    else if s.life.act = 1 then { s with life := { s.life with act := 2, trialAt := s.time } }
    else if s.life.act = 3 then { s with life := { s.life with act := 0 } }
    else s

/-- A channel that stands by while fewer than eight carry traffic returns at once (R27); else a held urgent request
goes ahead. -/
def afterStandby (n : Nat) (s : State) : State :=
  if serviceCount s < 8 then setChanState n .returning s else bankMove (urgentMove s)

def execRestPeriodExpiry (s : State) : Res :=
  let r := s.rest.channel
  .next (
    if healthyCount s = 9 && decide (r < 9) && (s.chan r).data = .restStandby && s.rest.next = none && !s.supRestarting &&
        decide (s.rest.start + s.rest.period * 1000000000 ≤ s.time) then
      let t := restTarget s
      moveRest t false { s with rest := { s.rest with reqNormal := none } }
    else s)

/-- A notice for a management session (R446). -/
def noticeTo (m code v : Nat) (s : State) : State :=
  match tfind s.mgmt.sess m with
  | some k => { s with mgmt := { s.mgmt with sess := tput s.mgmt.sess m { k with notices := pushNotice code v k.notices } } }
  | none => s

/-- The session that asked for a commit is told of a held install on a returning channel (R446). -/
def noticeOwner (cgen : Nat) (s : State) : State :=
  match tfind s.mgmt.owner cgen with
  | some m => noticeTo m 4 cgen s
  | none => s

/-- The warden applies what it missed, and the channel's event queue is empty (Table 01-3, R29). -/
def installHeld (n : Nat) (s : State) : State :=
  let c := s.chan n
  let s := c.pending.foldl (fun s g => noticeOwner g s) s
  withdrawAll n (s.modChan n (fun c => { c with pending := [], cgenInstalled := c.pending.foldl Nat.max c.cgenInstalled }))

def execReturnComplete (n : Nat) (s : State) : Res :=
  .next (
    if (s.chan n).data != .returning then s
    else
      let s := installHeld n s
      let s := setChanState n .inService (bankTaken n s)
      let s := if s.rest.channel = n then { s with rest := { s.rest with channel := 9 } } else s
      match s.rest.next with
      | some k =>
        if (s.chan k).data = .inService then setChanState k .draining s
        else { s with rest := { s.rest with next := none, urgentMove := false } }
      | none => bankMove s)

/-- A bank's activation with only eight healthy channels drains and returns each channel without a test (R548). -/
def drainsForBank (s : State) (n : Nat) : Bool :=
  (s.life.act = 1 || s.life.act = 3) && decide (healthyCount s ≤ 8) && s.rest.next != some n

def execDrainComplete (n : Nat) (s : State) : Res :=
  .next (
    if (s.chan n).data != .draining || !(runningOn s n).isEmpty then s
    else if drainsForBank s n then setChanState n .returning s
    else enterRest n s)

-- Self-tests (R592 to R595).

/-- Limits that a test's findings reach (R231, R258, R593): more than 16 cells, two engines of a kind, more spare
rows than there are. -/
def testLimits (c : Channel) (spares : Nat) (cells digests pks : List Nat) : Bool :=
  decide (16 < cells.length) || decide (2 ≤ digests.length) || decide (2 ≤ pks.length) || decide (64 < c.spareRows + spares)

/-- Histories of a channel's cells and engines that return to use start empty (R584). -/
def clearHistory (source : Nat) (units : List Nat) (s : State) : State :=
  units.foldl (fun s u => s.setFaultUnit source u { s.faultUnit source u with times := [] }) s

/-- Histories of a channel that returns from QUARANTINE start empty. -/
def clearChannelHistory (n : Nat) (s : State) : State :=
  [0x01, 0x02, 0x07, 0x10, 0x11].foldl (fun s src => clearHistory src [n] s) s

/-- A channel's SRAM reads zero. -/
def clearSram (n : Nat) (s : State) : State :=
  let base := 0x100000000 + n * 0x1000000
  { s with mem := s.mem.filter (fun e => !(decide (base ≤ e.1) && decide (e.1 < base + 0x400000))) }

/-- Cells and engines that passed return, those that failed stay out (phases 15 to 17). -/
def testUnits (n : Nat) (pass : Bool) (cells digests pks : List Nat) (s : State) : State :=
  let e := s.engOf n
  let s := if pass then
      let s := clearHistory 0x05 ((e.retired.filter (fun c => !cells.contains c)).map (fun c => n * 512 + c)) s
      let s := clearHistory 0x06 ((e.digestOut.filter (fun x => !digests.contains x)).map (fun x => n * 16 + x)) s
      clearHistory 0x06 ((e.pkOut.filter (fun x => !pks.contains x)).map (fun x => n * 16 + 8 + x)) s
    else s
  let join (old new : List Nat) : List Nat := if pass then new else old ++ new.filter (fun x => !old.contains x)
  s.modEng n (fun e => { e with
    retired := join e.retired cells, digestOut := join e.digestOut digests, pkOut := join e.pkOut pks })

/-- A test is running on the channel. -/
def testing (s : State) (n : Nat) : Bool :=
  let c := s.chan n
  c.testPhase != 0 && (c.data = .restTest || c.data = .bootTest || c.data = .quarantine)

/-- Where a channel goes after a test it passed. -/
def testPassed (n : Nat) (s : State) : State :=
  let c := s.chan n
  match c.data with
  | .restTest => afterStandby n (setChanState n .restStandby s)
  | .quarantine =>
    if !c.heldQuarantine && s.cfg 0x9002 5 ≤ (c.returns.filter (fun t => decide (s.time < t + 86400000000000))).length then
      s.modChan n (fun c => { c with heldQuarantine := true })
    else
    let s := clearChannelHistory n (s.modChan n (fun c => { c with
      heldQuarantine := false, returns := if c.heldQuarantine then c.returns else c.returns ++ [s.time] }))
    let s := setChanState n .restStandby s
    let s := if s.rest.channel = 9 then { s with rest := { s.rest with channel := n, start := c.testStart } } else s
    afterStandby n s
  | _ => s

/-- A self-test ends (R593 to R595): its findings, its record, and where the channel goes. -/
def selfTestEnd (n failPhase spares : Nat) (cells digests pks : List Nat) (s : State) : State :=
  if !(testing s n) then s
  else
    let c := s.chan n
    let e := s.engOf n
    let pass := failPhase = 0 && !testLimits c spares cells digests pks
    let newCells := (cells.filter (fun x => !e.retired.contains x)).length
    let newEngines := (digests.filter (fun x => !e.digestOut.contains x)).length + (pks.filter (fun x => !e.pkOut.contains x)).length
    let rec_ : TestRecord := { result := if pass then 0 else 1, phase := failPhase, retired := newCells, withdrawn := newEngines,
                               tStart := c.testStart, tEnd := s.time }
    let s := testUnits n pass cells digests pks s
    let s := s.modChan n (fun c => { c with
      lastTest := rec_, lastPassed := pass, testPhase := 0, abandon := false, spareRows := Nat.min 64 (c.spareRows + spares) })
    let s := bump (chIdx n 2) (if pass then 2 else 3) 0 s
    if pass then testPassed n (clearSram n (clearCells n s))
    else
      let s := (countFault 0x10 n 0 s).1
      if (s.chan n).data = .quarantine then s.modChan n (fun c => { c with heldQuarantine := true })
      else quarantineChannel n s

def execSelfTestComplete (n failPhase spares : Nat) (cells digests pks : List Nat) (s : State) : Res :=
  .next (selfTestEnd n failPhase spares cells digests pks s)

def execSelfTestAbandon (n phase : Nat) (s : State) : Res :=
  .next (
    let c := s.chan n
    if c.data != .restTest || !c.abandon then s
    else
      let s := s.modChan n (fun c => { c with
        lastTest := { result := 2, phase := phase, retired := 0, withdrawn := 0, tStart := c.testStart, tEnd := s.time },
        testPhase := 0, abandon := false })
      let s := healthRecord { source := 0x10, unit := n, count := 0, lasting := false, time := s.time } s
      if c.lastPassed then setChanState n .returning s else quarantineChannel n s)

def execChannelQuarantine (n : Nat) (s : State) : Res := .next (if n < 9 then quarantineChannel n s else s)

def execHomeQueueAssign (s : State) : Res := .next (if s.supRestarting then s else syncQueues (assignHomes s))

/-- BUDGET_OVERRUN (R26): the warden aborts the request. -/
def execBudgetOverrun (r : Nat) (s : State) : Res :=
  match s.req? r with
  | none => .next s
  | some q => .next (match q.stage with
    | .running _ (some _) => if q.ready then s else endRequest r 0x0503 s
    | _ => s)

end Sys2Proof.Machine
end

