-- ==== Sys2Proof/Machine/BootEnd.lean ====
section
/-! DEFINITION. Availability (18, R602), the boot record (16, R551) and the last steps of boot, which a joining Frieze
partner may bring about (16, R538; 01, R30). -/

namespace Sys2Proof.Machine

-- Availability.

/-- The part is available: OPERATIONAL, PART_STATUS 0x0F00 or 0x0F01, and seven channels in service; a forced
quarantine window counts as available. -/
def available (s : State) : Bool :=
  s.life.state = .operational && decide (partState s ≤ 0x0F01) && (decide (7 ≤ serviceCount s) || !s.qm.windows.isEmpty)

/-- `n` ms have passed under main power. -/
def countMs (n : Nat) (s : State) : State :=
  if !s.batt.mainPower then s
  else
    let c := partState s % 256
    let h := s.health
    let h := if c = 0 then h else { h with stateMs := tput h.stateMs c (tget 0 h.stateMs c + n) }
    { s with health := if available s then h
        else { h with unavailable := h.unavailable + n, unavailableSinceClear := h.unavailableSinceClear + n } }

-- The boot record.

def State.modLife (s : State) (f : Life → Life) : State := { s with life := f s.life }

/-- Write bytes into the boot record. -/
def recordAt (off : Nat) (b : Bytes) (s : State) : State :=
  s.modLife (fun l => let r := padTo 64 l.bootRecord; { l with bootRecord := r.take off ++ b ++ r.drop (off + b.length) })

/-- RESULT, BANK, LAST_STEP and RELEASE of the record. -/
def recordHead (s : State) : State :=
  recordAt 0 (leBytes 2 s.life.result ++ leBytes 1 (if s.life.wait = .sdCard then 2 else b2n s.life.selB) ++ leBytes 1 s.life.step ++
    leBytes 4 (selectedBank s).release) s

/-- Entry of a boot: completed 1, failure exit 2 (Table 16-14). -/
def bootEntry (code : Nat) (s : State) : State := logEntry 0x0800 code (s.life.bootRecord.take 24) s

/-- Step `k` completes `us` µs after the release; device time runs on to it. -/
def stepDone (k us : Nat) (s : State) : State :=
  let t := Nat.max s.time (s.life.bootAt + us * 1000)
  let s := countMs (t / 1000000 - s.time / 1000000) { s with time := t }
  recordHead (recordAt (4 + 4 * k) (leBytes 4 us) (s.modLife (fun l => { l with step := k })))

/-- An exit of Table 16-12: OD 0x8002.02, the record and an entry. -/
def bootExit (result : Nat) (s : State) : State := bootEntry 2 (recordHead (s.modLife (fun l => { l with result := result })))

-- Service.

/-- Step 9: the channels that passed go into service, SC8 to rest; with one in QUARANTINE all eight carry traffic (R28,
R30). -/
def channelsUp (s : State) : State :=
  let ok := (List.range 9).filter (fun n => (s.chan n).data = .bootTest)
  let s := (ok.filter (fun n => n != 8 || ok.length < 9)).foldl (fun s n => setChanState n .inService s) s
  if ok.length < 9 then s
  else setChanState 8 .restStandby { s with rest := { s.rest with channel := 8, start := s.time, period := s.cfg 0x9002 1 } }

/-- Steps 8 and 9 of boot end: the part enters service. -/
def enterService (s : State) : State :=
  let us := (s.time - s.life.bootAt) / 1000
  let s := stepDone 8 us (s.modLife (fun l => { l with wait := .no }))
  let s := endRecovery (updatePins (channelsUp s))
  let s := s.modLife (fun l => if l.act = 1 || l.act = 2 then { l with act := 2, trialAt := s.time } else { l with act := 0 })
  bootEntry 1 (stepDone 9 us s)

/-- A partner has joined while boot waits for one. -/
def partnerJoined (s : State) : State := if s.life.wait = .partner then enterService s else s

end Sys2Proof.Machine
end

