-- ==== Sys2Proof/Machine/Cells.lean ====
section
/-! DEFINITION. The cipher cells' work: the computation of each mode of Table 06-5, completion of cipher
descriptors, randomness, cell faults and the generators (chapter 06). -/

namespace Sys2Proof.Machine

-- The computation of a mode.

/-- What a descriptor yields. -/
inductive COut where
  | data (b : Bytes)
  | verdict (ok : Bool)
  | key (h : Handle)
  | fail (cstat : Nat)

/-- A result kept to OUT_TRUNC bytes, 0 keeping all. -/
def keep (n : Nat) (b : Bytes) : Bytes := if n = 0 then b else b.take n

/-- A MAC as DATA, or compared with OUT_TRUNC bytes at AUX (log 20). -/
def macOut (d : CDesc) (mac aux : Bytes) : COut :=
  if d.inv then .verdict (keep d.trunc mac = aux.take (keep d.trunc mac).length) else .data (keep d.trunc mac)

/-- Usage that the header of an unwrapped key block gives its key (Table 08-12). -/
def kbHandleUsage (b : Bytes) : Nat :=
  match kbUsage b with
  | 0x4230 => 0x800 | 0x4330 => 0x100 | 0x4430 => 3 | 0x4530 => 0x80 | 0x4B30 | 0x4B31 => 0xC000
  | 0x4D31 | 0x4D33 | 0x4D36 | 0x4D37 => 0xC | 0x5030 => 0x30 | 0x5631 | 0x5632 => 0x40 | _ => 0

/-- ALG of unwrapped material, by the header's algorithm and the length; 0 when they do not fit. -/
def kbKeyAlg (b : Bytes) (len : Nat) : Nat :=
  if kbAlg b = 0x54 then (if len = 16 ∨ len = 24 then 0x100 + len else 0)
  else if kbAlg b = 0x41 then (if len = 16 ∨ len = 24 ∨ len = 32 then 0x200 + len else 0)
  else if kbAlg b = 0x48 then (if 16 ≤ len ∧ len ≤ 48 then 0x300 + len else 0) else 0

/-- Wrap a key into a key block under a protection key, with header fields for a usage (R289, R290), filled from `pad`. -/
def keyBlockOf (kbpk : Handle) (h : Handle) (usage exp : Nat) (pad : Bytes) : Bytes :=
  let (u, a, m) := kbFor h.alg usage
  kbWrap kbpk.material (kbHeader u a m exp h.material.length) h.material pad

/-- PINX (R98 to R102): IN is the fixed part of Table 03-6. -/
def pinxOut (k0 k1 : Handle) (inp rnd : Bytes) (down : Bool) : COut :=
  let sf := leAt inp 0 1
  let df := leAt inp 1 1
  let okf (f : Nat) : Bool := f = 0 || f = 1 || f = 3 || f = 4
  match panDigits (slice inp 4 12) with
  | none => .fail 8
  | some pan =>
    if !okf sf || !okf df || !pinPermitted sf df down then .fail 8
    else if !pinAlgOk sf k0.alg || !pinAlgOk df k1.alg then .fail 3
    else
      match pinOfField sf (pinFieldOf sf k0.alg k0.material pan (slice inp 32 16)) with
      | none => .fail 8
      | some pin => .data (padTo 16 (pinBlock df k1.alg k1.material pan pin rnd))

/-- PINV (R103 to R105): IN is the fixed part of Table 03-7. -/
def pinvOut (k0 k1 : Handle) (inp : Bytes) : COut :=
  let f := leAt inp 0 1
  match panDigits (slice inp 4 12) with
  | none => .fail 8
  | some pan =>
    if !pinAlgOk f k0.alg then .fail 3
    else
      match pinOfField f (pinFieldOf f k0.alg k0.material pan (slice inp 32 16)) with
      | none => .fail 8
      | some pin =>
        if leAt inp 3 1 = 1 then
          .verdict (pinOffsetMatch k1.material (slice inp 48 8) (slice inp 72 16) (nibbles (slice inp 56 6)) (leAt inp 29 1) pin k1.alg)
        else .verdict (pinPvvMatch k1.material pan (leAt inp 30 1) (nibbles (slice inp 62 2)) pin k1.alg)

/-- The computation of a descriptor (Table 06-5). `pol`: the policy of the claimed slot for SLOT output. -/
def cipherCompute (d : CDesc) (k0 : Handle) (k1 : Option Handle) (inp aux rnd : Bytes) (pol : Option Policy) (down : Bool) : COut :=
  let bl := blockLen k0.alg
  let key := k0.material
  let whole := inp.length % bl = 0
  match d.mode with
  | 1 => if whole then .data (keep d.trunc (ecb d.inv k0.alg key inp)) else .fail 1
  | 2 =>
    if !whole ∨ aux.length ≠ bl then .fail 1
    else .data (if d.inv then cbcDec k0.alg key aux (blocksOf bl inp) else cbcEnc k0.alg key aux (blocksOf bl inp))
  | 3 => if aux.length ≠ bl then .fail 1 else .data (ctrMode k0.alg (leAt d.params 0 1) key aux (blocksOf bl inp))
  | 4 => macOut d (cmac k0.alg key inp) aux
  | 5 => macOut d (macAlg1 (leAt d.params 0 1) k0.alg key inp) aux
  | 6 => macOut d (macAlg3 (leAt d.params 0 1) key inp) aux
  | 7 =>
    let iv := slice d.params 0 12
    if d.inv then
      let ct := inp.take (inp.length - d.trunc)
      if inp.length < d.trunc then .fail 1
      else if (gcmTag key iv aux ct).take d.trunc = inp.drop (inp.length - d.trunc) then .data (gcmCrypt key iv ct)
      else .fail 8
    else
      let ct := gcmCrypt key iv inp
      .data (ct ++ (gcmTag key iv aux ct).take d.trunc)
  | 8 =>
    let radix := leAt d.params 0 2
    if inp.any (fun b => radix ≤ b.toNat) || radix ^ inp.length < 1000000 then .fail 8
    else .data (ff1 d.inv key radix aux inp)
  | 9 =>
    if d.inv then
      match kwUnwrap key inp with
      | none => .fail 5
      | some m =>
        let alg := match pol with
          | some p => if algBytes p.alg = m.length then p.alg else 0x200 + m.length
          | none => 0x200 + m.length
        if m.length = 16 ∨ m.length = 24 ∨ m.length = 32 then .key { alg := alg, material := m, usage := 0xF } else .fail 3
    else
      match k1 with
      | none => .fail 1
      | some w =>
        if !w.exportable then .fail 2
        else if keyStrength k0.alg < keyStrength w.alg ∨ w.material.length < 16 ∨ 32 < w.material.length then .fail 3
        else .data (kwWrap key w.material)
  | 0xA =>
    if leAt inp 0 1 ≠ 0x44 ∨ 1024 < inp.length then .fail 5
    else
      match kbUnwrap key inp with
      | none => .fail 5
      | some m =>
        if kbKeyAlg inp m.length = 0 ∨ kbHandleUsage inp = 0 then .fail 5
        else .key { alg := kbKeyAlg inp m.length, material := m, usage := kbHandleUsage inp, exportable := kbExport inp = 0x45 }
  | 0xB =>
    match k1 with
    | none => .fail 1
    | some w =>
      if !w.exportable then .fail 2
      else if keyStrength k0.alg < keyStrength w.alg then .fail 3
      else .data (keyBlockOf k0 w w.usage 0x45 rnd)
  | 0x10 => match k1 with | some w => pinxOut k0 w inp rnd down | none => .fail 1
  | 0x11 => match k1 with | some w => pinvOut k0 w inp | none => .fail 1
  | 0x12 =>
    match panDigits (slice inp 0 12) with
    | none => .fail 8
    | some pan =>
      let n := leAt inp 16 1
      let code := cardCode key pan ((nibbles (slice inp 12 2)).take 4) ((nibbles (slice inp 14 2)).take 3) n
      if n < 3 ∨ 5 < n then .fail 8
      else if d.inv then .verdict ((nibbles (slice inp 20 4)).take n = code)
      else .data (packNibbles ((code ++ List.replicate 8 0xF).take 8))
  | 0x13 =>
    match panDigits (slice d.params 0 12) with
    | none => .fail 8
    | some pan =>
      if k0.alg = 0x218 ∨ (isTdes k0.alg ∧ 16 < pan.length) then .fail 3
      else .key { alg := if isTdes k0.alg then 0x110 else k0.alg, usage := k0.usage,
                  material := cardMaster k0.alg key pan (nibbles (slice d.params 12 1)), exportable := k0.exportable }
  | 0x14 => .key { k0 with material := cardSession k0.alg key (slice d.params 0 2) }
  | 0x15 =>
    if d.cls = 4 then
      .key { alg := k0.alg, material := dukptInitial key (slice d.params 0 8), usage := 0x800, exportable := true }
    else if !ksnValid (slice d.params 0 12) then .fail 8
    else
      let wk := dukptAlg k0.alg (leAt d.params 12 1)
      let use := leAt d.params 13 1
      if keyStrength k0.alg < keyStrength wk ∨ 5 < leAt d.params 12 1 then .fail 3
      else .key { alg := wk, material := dukpt key (slice d.params 0 12) wk use,
                  usage := if use = 0 then 4 else if use = 1 then 8 else if use = 2 then 0xC else 0x10 }
  | _ =>
    let alg := match pol with | some p => p.alg | none => leAt d.params 0 2
    let l := leAt d.params 2 2
    if !isSym alg || aux.length < l then .fail 1
    else .key { alg := alg, material := kdf108 k0.alg key (aux.take l) (aux.drop l) (algBytes alg), usage := 0xF,
                exportable := k0.exportable }

-- Completion (R206).

/-- Write a completion record: status, verdict, detail, output length and cycles at bytes 48 to 63. -/
def completionRecord (stat verdict detail outLen cycles : Nat) : Bytes :=
  leBytes 1 stat ++ leBytes 1 verdict ++ leBytes 2 detail ++ leBytes 4 outLen ++ leBytes 4 cycles ++ zeros 4

/-- Retire a cell; a seventeenth sends the channel to QUARANTINE (R231). -/
def retireCell (n cell : Nat) (s : State) : State :=
  let e := s.engOf n
  if e.retired.contains cell then s
  else if 16 ≤ e.retired.length then quarantineChannel n s
  else s.modEng n (fun e => { e with retired := (tput (e.retired.map (fun c => (c, ()))) cell ()).map (fun p => p.1) })

/-- A cell self-check mismatch (R230, R231). -/
def cellMismatch (n cell : Nat) (s : State) : State :=
  let (s, lasting) := countFault 5 (n * 512 + cell) 0 (bump (chIdx n 0x10) 7 0 s)
  if lasting then retireCell n cell s else s

/-- Does the job wait for the other descriptor of its context to write the handle it reads (R206)? -/
def waitsHandle (s : State) (n : Nat) (j : CipherJob) : Bool :=
  let d := CDesc.ofBytes j.desc
  needsK1 d && kSrc d.k1 = 1 &&
  (tfind (tget {} (s.chan n).ctxs j.ctx).handles (kIndex d.k1)).isNone &&
  (s.engOf n).cipher.any (fun q => q.off != j.off && q.ctx = j.ctx && (CDesc.ofBytes q.desc).cls = 2 && (CDesc.ofBytes q.desc).num = kIndex d.k1)

/-- The keys of a job: as fetched, or from the context's handles. -/
def jobKeys (s : State) (n : Nat) (j : CipherJob) : Option Handle × Option Handle :=
  let d := CDesc.ofBytes j.desc
  let hs := (tget {} (s.chan n).ctxs j.ctx).handles
  ((if kSrc d.k0 = 1 then tfind hs (kIndex d.k0) else j.key0),
   (if needsK1 d then (if kSrc d.k1 = 1 then tfind hs (kIndex d.k1) else j.key1) else none))

/-- The result of a job: CSTAT, VERDICT, CDETAIL and OUT_LEN, and the state in which its output is written. -/
def cipherResult (n : Nat) (j : CipherJob) (s : State) : Nat × Nat × Nat × Nat × State :=
  let d := CDesc.ofBytes j.desc
  if j.cstat ≠ 0 then (j.cstat, 0, j.cdetail, 0, s)
  else
    match jobKeys s n j with
    | (none, _) => (1, 0, 0, 0, s)
    | (some k0, k1) =>
      if kSrc d.k0 = 1 && !handlePermits d k0 then (2, 0, 0, 0, s)
      else if kSrc d.k0 = 1 && !modeAlg d.mode k0.alg then (3, 0, 0, 0, s)
      else if needsK1 d && k1.isNone then (1, 0, 0, 0, s)
      else
        let h := ctxHdr s n j.ctx
        let claim := (tget {} (s.chan n).ctxs j.ctx).claims.find? (fun c => c.1 = h.slotRef d.num)
        let pol := if d.cls = 3 then claim.map (fun c => Policy.ofBytes c.2) else none
        let inp := ctxBytes s n j.ctx d.inOff d.inLen
        let aux := ctxBytes s n j.ctx d.auxOff d.auxLen
        let rnd := freeBytes 16 s
        let out := cipherCompute d k0 k1 inp aux rnd pol (s.cfgB 0x4120 3)
        let s := useFree s
        let write (b : Bytes) : Nat × Nat × Nat × Nat × State :=
          if d.outCap < b.length then (7, 0, 0, 0, s) else (0, 0, 0, b.length, ctxPut n j.ctx d.outOff b s)
        match out with
        | .fail c => (c, 0, 0, 0, s)
        | .data b => write b
        | .verdict ok => (0, b2n (!ok), 0, 0, s)
        | .key k =>
          if d.cls = 2 then
            (0, 0, 0, 0, s.modChan n (fun c =>
              let x := tget {} c.ctxs j.ctx
              { c with ctxs := tset {} c.ctxs j.ctx { x with handles := tput x.handles d.num k } }))
          else if d.cls = 3 then
            let ksrc := if d.mode = 9 then 5 else 3
            let (st, s) := writeClaimed n j.ctx (h.slotRef d.num) { k with exportable := k.exportable && k0.exportable } ksrc s
            (st, 0, 0, 0, s)
          else
            match k1 with
            | none => (1, 0, 0, 0, s)
            | some w =>
              if keyStrength w.alg < keyStrength k.alg then (3, 0, 0, 0, s)
              else if d.mode = 0x15 then
                write (kbWrap w.material (kbHeader 0x4231 0x41 0x58 0x4E k.material.length) k.material rnd)
              else write (keyBlockOf w k 0x80 0x4E rnd)

/-- A cipher descriptor completes (R206, R213, R230). `finding`: 0 none, 1 a mismatch whose rerun passed, 2 a
mismatch confirmed in the rerun, 3 a second refusal of a key transfer. -/
def execCipherCompletion (n off cycles finding : Nat) (s : State) : Res :=
  match (s.engOf n).cipher.find? (fun j => j.off = off) with
  | none => .next s
  | some j =>
    if !j.waits.isEmpty || j.stalled || (j.cstat = 0 && waitsHandle s n j) then .next s
    else
      let cell := j.cells.headD 0
      let s := if finding = 1 ∨ finding = 2 then cellMismatch n cell (useFree s) else s
      let j := if j.cstat ≠ 0 then j else if finding = 2 then { j with cstat := 0xA }
        else if finding = 3 then { j with cstat := 4, cdetail := 0x0206 } else j
      let (st, verdict, detail, len, s) := cipherResult n j s
      let s := putTarget (.sram n (off + 48)) (completionRecord st verdict detail len cycles) s
      let s := s.modEng n (fun e => { e with cipher := e.cipher.filter (fun q => !(q.off = off)) })
      let s := raiseLine n (j.core % 8) s
      let s := if finding = 2 then quarantineChannel n s else s
      let s := if finding = 3 then
          (let (s, lasting) := countFault 7 n 0 s
           if lasting then quarantineChannel n s else s)
        else s
      .next s

/-- The store to SUBMIT of core `c` (R206). -/
def execSubmit (c off : Nat) (s : State) : Res :=
  match submitWrite c off s with
  | .done s => .next s
  | .stall s => .next s

/-- A stalled hand-over is accepted once its context has room; the store completes (R206, R239, R249). -/
def releaseStall (c reg : Nat) (go : State → Submitted) (s : State) : State :=
  let k := s.core c
  match k.stalled with
  | some (r, _) =>
    if r = reg then
      match go (s.modCore c (fun k => { k with stalled := none })) with
      | .done s' => s'.modCore c (fun k => { k with pc := k.pc + 8 })
      | .stall _ => s
    else s
  | none => s

def stalledValue (s : State) (c : Nat) : Nat := match (s.core c).stalled with | some (_, v) => v | none => 0

def execSubmitStallRelease (c : Nat) (s : State) : Res := .next (releaseStall c 0 (submitWrite c (stalledValue s c)) s)

-- Randomness (R221 to R225).

/-- Generators: 0 to 8 of the channels, 9 of the ingress parser, 10 of the egress assembler, 11 of the key
fetch unit. -/
def genOf (s : State) (g : Nat) : Generator := if g < 9 then (s.engOf g).gen else tget {} s.gens (g - 9)
def setGen (g : Nat) (k : Generator) (s : State) : State :=
  if g < 9 then s.modEng g (fun e => { e with gen := k }) else { s with gens := tset {} s.gens (g - 9) k }

def genInstances (g : Nat) : Nat := if g < 9 then 10 else 2

/-- State of a generator from its instances (Table 06-8). -/
def genState (g : Nat) (k : Generator) : GenState :=
  let is := (List.range (genInstances g)).map (fun i => tget {} k.inst i)
  if k.state = .failed then .failed
  else if !is.all (fun i => i.seeded) then .unseeded
  else if is.any (fun i => i.limited) then .short
  else if is.any (fun i => i.due) then .reseedDue
  else .running

/-- Change an instance; the channel's line 0x02D reports a change of state, and descriptors in flight stop
while the distributor is short (R224). -/
def genUpdate (g i : Nat) (f : Drbg → Drbg) (s : State) : State :=
  let k := genOf s g
  let k' := { k with inst := tset {} k.inst i (f (tget {} k.inst i)) }
  let st := genState g k'
  let s := setGen g { k' with state := st, dueSince := if st = .reseedDue && k.state != .reseedDue then s.time else k'.dueSince } s
  let s := if g < 9 && st = .short && k.state != .short then
      s.modEng g (fun e => { e with cipher := e.cipher.map (fun j => { j with stalled := !j.cells.isEmpty }) }) else s
  if g < 9 && st != k.state then raiseLine g 0x2D s else s

/-- Only an instance of the generator acts. -/
def genInst (g i : Nat) : Bool := g < 12 && i < genInstances g

def execReseedIntervalReached (g i : Nat) (s : State) : Res :=
  .next (if genInst g i && (tget {} (genOf s g).inst i).seeded then genUpdate g i (fun d => { d with due := true }) s else s)

def execReseedLimitReached (g i : Nat) (s : State) : Res :=
  .next (if genInst g i && (tget {} (genOf s g).inst i).seeded then genUpdate g i (fun d => { d with due := true, limited := true }) s else s)

/-- A seed packet of the Plinth entropy source reseeds an instance (R221, R222). `good`: its known-answer
check passed; a failure makes the generator FAILED and sends the channel to QUARANTINE (Table 06-8). -/
def execSeedPacket (g i : Nat) (seed : Bytes) (good : Bool) (s : State) : Res :=
  if !genInst g i || (s.noiseJitterBad && s.noiseLatchBad) then .next s
  else
    let s := bumpBy 0x2030 3 0 384 s
    if good then
      let s := genUpdate g i (fun _ => { seeded := true, seed := padTo 48 seed }) s
      .next (if g < 9 then bump (chIdx g 0x11) 2 0 s else s)
    else
      let s := setGen g { genOf s g with state := .failed } s
      .next (if g < 9 then quarantineChannel g (raiseLine g 0x2D s) else s)

/-- A generator has been RESEED_DUE for 1 s: device event 0x8080. -/
def execReseedDueTimeout (g : Nat) (s : State) : Res :=
  let k := genOf s g
  .next (if g < 9 && k.state = .reseedDue && k.dueSince + 1000000000 ≤ s.time then devEvent 0x8080 g s else s)

/-- A mask seed reaches a stalled cell (R224): its operation resumes, and the cycles stalled are counted. -/
def execCellSeedArrival (n cell cycles : Nat) (s : State) : Res :=
  if (s.engOf n).cipher.any (fun j => j.stalled && j.cells.contains cell) && !genShort s n then
    .next (bumpBy (chIdx n 0x10) 5 0 cycles (s.modEng n (fun e => { e with cipher := e.cipher.map (fun j =>
      if j.cells.contains cell then { j with stalled := false } else j) })))
  else .next s

/-- A noise source fails its continuous tests (R221): alarm 0x19 for one, 0x1A for both; device event 0x8081. -/
def execEntropySourceFailure (latch : Bool) (s : State) : Res :=
  let s := if latch then { s with noiseLatchBad := true } else { s with noiseJitterBad := true }
  let both := s.noiseJitterBad && s.noiseLatchBad
  let s := devEvent 0x8081 (b2n s.noiseJitterBad + 2 * b2n s.noiseLatchBad) s
  .next (raiseAlarm (if both then 0x1A else 0x19) [] s)

end Sys2Proof.Machine
end

