-- ==== Sys2Proof/Machine/Engines.lean ====
section
/-! DEFINITION. The digest engines and public-key engines (chapter 07): the computation and completion of
their jobs, engine faults, and the fills that jobs wait for. -/

namespace Sys2Proof.Machine

-- Digest jobs.

/-- Chain, buffered bytes and byte count of a chain of jobs. -/
structure DChain where
  chain : Bytes
  buf : Bytes
  count : Nat

/-- Read a saved state (Table 07-5); none where R238 refuses it. -/
def savedState (alg : Nat) (b : Bytes) : Option DChain :=
  let n := leAt b 2 2
  if leAt b 0 1 ≠ alg ∨ leAt b 1 1 ≠ 1 ∨ digestRate alg ≤ n ∨ leAt b 4 4 ≠ 0 ∨ !allZero (slice b 216 40) ∨ !allZero (slice b 424 88) then none
  else some { chain := slice b 16 200, buf := slice b 256 n, count := leAt b 8 8 }

/-- A saved state's 512 bytes. -/
def stateBytes (alg : Nat) (d : DChain) : Bytes :=
  leBytes 1 alg ++ [1] ++ leBytes 2 d.buf.length ++ zeros 4 ++ leBytes 8 d.count ++ padTo 200 d.chain ++ zeros 40 ++
  padTo 168 d.buf ++ zeros 88

/-- Absorb more bytes. -/
def DChain.add (alg : Nat) (d : DChain) (b : Bytes) : DChain :=
  let st := absorb alg d.chain (d.buf ++ b)
  { chain := st.1, buf := st.2, count := d.count + b.length }

/-- Bytes of the fragments: data from the context's area, and the KEY block (R236). -/
def fragBytes (s : State) (n x alg : Nat) (key : Option Bytes) (fs : List Frag) : Bytes :=
  fs.flatMap (fun f => if f.key then hmacPad alg f.outer (key.getD []) else ctxBytes s n x f.off f.len)

/-- The result of a digest job: DSTAT, VERDICT, OUT_LEN, and the state with its output or saved state. -/
def digestResult (n : Nat) (j : DigestJob) (s : State) : Nat × Nat × Nat × State :=
  let d := DDesc.ofBytes j.desc
  if j.jstat ≠ 0 then (j.jstat, 0, 0, s)
  else
    let fs := fragsOf s n j.ctx d
    let start := if d.init then some { chain := hashInit d.alg, buf := [], count := 0 : DChain }
      else savedState d.alg (ctxBytes s n j.ctx d.stateOff 512)
    match start with
    | none => (1, 0, 0, s)
    | some st =>
      let b := fragBytes s n j.ctx d.alg j.frag fs
      if 2 ^ 61 ≤ st.count + b.length then (0xD, 0, 0, s)
      else
        let st := DChain.add d.alg st b
        if !d.final then (0, 0, 0, ctxPut n j.ctx d.stateOff (stateBytes d.alg st) s)
        else
          let out := keep d.trunc (digestFinish d.alg (digestOut d.alg d.xof) st.count st.chain st.buf)
          if d.outsel = 1 then (0, b2n (out != ctxBytes s n j.ctx d.expectOff out.length), 0, s)
          else if d.outCap < out.length then (7, 0, 0, s)
          else (0, 0, out.length, ctxPut n j.ctx d.outOff out s)

/-- A withdrawn engine; a second of its kind sends the channel to QUARANTINE (R258). -/
def withdrawEngine (n e : Nat) (s : State) : State :=
  let k := s.engOf n
  if e < 8 then
    if k.digestOut.contains e then s
    else
      let s := s.modEng n (fun k => { k with digestOut := k.digestOut ++ [e] })
      if 1 ≤ k.digestOut.length then quarantineChannel n s else s
  else
    if k.pkOut.contains (e - 8) then s
    else
      let s := s.modEng n (fun k => { k with pkOut := k.pkOut ++ [e - 8] })
      if 1 ≤ k.pkOut.length then quarantineChannel n s else s

/-- An engine self-check mismatch: engines 0 to 7 digest, 8 and 9 public-key. -/
def engineMismatch (n e : Nat) (s : State) : State :=
  let (s, lasting) := countFault 6 (n * 16 + e) 0 (bump (chIdx n 0x12) 6 0 s)
  if lasting then withdrawEngine n e s else s

/-- A freed engine resumes its suspended job, or takes the next waiting one (R242). -/
def digestNext (n e : Nat) (s : State) : State :=
  let js := (s.engOf n).digest
  if js.any (fun j => j.engine = some e && j.suspended) then
    s.modEng n (fun k => { k with digest := k.digest.map (fun j => if j.engine = some e then { j with suspended := false } else j) })
  else
    match js.find? (fun j => j.engine.isNone && j.jstat = 0) with
    | some w => s.modEng n (fun k => { k with digest := k.digest.map (fun j => if j.off = w.off then { j with engine := some e } else j) })
    | none => s

/-- Does a job with DEPENDS wait for the other job of its context (R239)? -/
def dependsWaits (s : State) (n : Nat) (j : DigestJob) : Bool :=
  (DDesc.ofBytes j.desc).depends && (s.engOf n).digest.any (fun q => q.ctx = j.ctx && q.off != j.off)

/-- A digest job completes (R239). `stall`: cycles it waited for randomness. -/
def execDigestCompletion (n off cycles finding stall : Nat) (s : State) : Res :=
  match (s.engOf n).digest.find? (fun j => j.off = off) with
  | none => .next s
  | some j =>
    if j.jstat = 0 && (!j.waits.isEmpty || j.suspended || j.engine.isNone || dependsWaits s n j) then .next s
    else
      let e := j.engine.getD 0
      let s := if finding = 0 then s else engineMismatch n e s
      let j := if j.jstat = 0 ∧ finding = 2 then { j with jstat := 0xA } else j
      let (st, verdict, len, s) := digestResult n j s
      let keyed := (fragsOf s n j.ctx (DDesc.ofBytes j.desc)).any (fun f => f.key)
      let s := putTarget (.sram n (off + 48)) (completionRecord st verdict j.jdetail len cycles) s
      let s := s.modEng n (fun k => { k with digest := k.digest.filter (fun q => !(q.off = off)) })
      let s := match j.engine with | some e => digestNext n e s | none => s
      let s := bump (chIdx n 0x12) 1 0 s
      let s := if keyed then bump (chIdx n 0x12) 2 0 s else s
      let s := if stall = 0 then s else bumpBy (chIdx n 0x12) 5 0 stall s
      let s := raiseLine n (8 + j.core % 8) s
      .next (if finding = 2 then quarantineChannel n s else s)

def execDsubmit (c off : Nat) (s : State) : Res :=
  match dsubmitWrite c off s with
  | .done s => .next s
  | .stall s => .next s

def execDsubmitStallRelease (c : Nat) (s : State) : Res := .next (releaseStall c 4 (dsubmitWrite c (stalledValue s c)) s)

-- Public-key descriptors.

/-- The session keys of R61 for a shared secret. -/
def sessionKeys (secret nonceP nonceD : Bytes) (sid : Nat) : Bytes :=
  hkdf secret (nonceP ++ nonceD)
    ([0x41, 0x58, 0x39, 0x36, 0x34, 0x30, 0x20, 0x73, 0x65, 0x73, 0x73, 0x69, 0x6F, 0x6E] ++ leBytes 4 sid) 72

/-- Install keys derived from a secret in a session. -/
def Session.withKeys (k : Session) (ks : Bytes) : Session :=
  { k with keyIn := slice ks 0 32, keyOut := slice ks 32 32, ivIn := slice ks 64 4, ivOut := slice ks 68 4 }

/-- AGREE hands its secret to the key fetch unit, which installs the keys of the handshake's session (R253). -/
def installAgreed (n x : Nat) (secret : Bytes) (s : State) : State :=
  match ctxReq s n x with
  | some q =>
    match q.via with
    | .internal false _ sid =>
      match s.session? sid with
      | some k => s.setSession sid (k.withKeys (sessionKeys secret (slice k.hello 8 32) (slice k.helloReply 8 32) sid))
      | none => s
    | .internal true f r =>
      let k := s.ring f r
      s.setRing f r { k with session := k.session.map (fun e =>
        e.withKeys (sessionKeys secret (slice e.hello 8 32) (slice e.helloReply 8 32) (f * 256 + r))) }
    | _ => s
  | none => s

/-- A shared secret in a handle: an AES-256 key whose one permit is SRC_OF_DERIVE (R253). -/
def putSecret (n x num : Nat) (secret : Bytes) (s : State) : State :=
  s.modChan n (fun c =>
    let k := tget {} c.ctxs x
    { c with ctxs := tset {} c.ctxs x { k with handles := tput k.handles num { alg := 0x220, material := secret, usage := 0x200000 } } })

/-- The result of a public-key descriptor: PSTAT, RESULT, OUT_LEN, and the state with its output. -/
def pkResult (n : Nat) (j : PkJob) (s : State) : Nat × Nat × Nat × State :=
  let d := PDesc.ofBytes j.desc
  if j.pstat ≠ 0 then (j.pstat, 0, 0, s)
  else
    let inp := ctxBytes s n j.ctx d.inOff d.inLen
    let aux := ctxBytes s n j.ctx d.auxOff d.auxLen
    let sig := ctxBytes s n j.ctx d.sigOff d.sigLen
    let pub := if d.pubSlot then j.pub else ctxBytes s n j.ctx d.pubOff d.pubLen
    let rnd := freeBytes 64 s
    let s := useFree s
    let key := (j.key.map (fun k => k.material)).getD []
    let write (b : Bytes) (s : State) : Nat × Nat × Nat × State :=
      if d.outCap < b.length then (7, 0, 0, s) else (0, 0, b.length, ctxPut n j.ctx d.outOff b s)
    match d.op with
    | 1 => write (pkSign d.pkalg d.hash key inp aux rnd) s
    | 2 => if !pkValid d.pkalg pub then (0xC, 0, 0, s)
      else (0, b2n (!pkVerify d.pkalg d.hash d.v15 pub inp aux sig), 0, s)
    | 3 =>
      let out := pkPublic 4 (rnd.take 48)
      if d.outCap < out.length then (7, 0, 0, s)
      else write out (s.modEng n (fun e => { e with eph := tput e.eph (j.engine.getD 0) (j.ctx, rnd.take 48) }))
    | 4 =>
      if !pkValid 4 pub then (0xC, 0, 0, s)
      else
        match (s.engOf n).eph.find? (fun e => e.2.1 = j.ctx) with
        | none => (2, 0, 0, s)
        | some (e, _, k) =>
          (0, 0, 0, installAgreed n j.ctx (pkAgree 4 k pub) (s.modEng n (fun g => { g with eph := tdel g.eph e })))
    | 5 =>
      if !pkValid d.pkalg pub then (0xC, 0, 0, s)
      else
        let (ct, ss) := kemEncap d.pkalg pub (rnd.take 32)
        if d.outCap < ct.length then (7, 0, 0, s) else write ct (putSecret n j.ctx d.num ss s)
    | 6 => (0, 0, 0, putSecret n j.ctx d.num (kemDecap d.pkalg key sig) s)
    | _ => write (if j.pub.isEmpty then pkPublic d.pkalg key else j.pub) s

/-- A freed public-key engine takes the next waiting descriptor, C0 contexts first (R257). -/
def pkNext (n e : Nat) (s : State) : State :=
  let js := (s.engOf n).pk.filter (fun j => j.engine.isNone && j.pstat = 0)
  match (js.filter (fun j => j.c0) ++ js).head? with
  | some w => s.modEng n (fun k => { k with pk := k.pk.map (fun j => if j.off = w.off then { j with engine := some e } else j) })
  | none => s

/-- A public-key operation completes (R249). `attempts`: of an ML-DSA signing (R256); `stall`: cycles it
waited for randomness. -/
def execPkCompletion (n off cycles finding attempts stall : Nat) (s : State) : Res :=
  match (s.engOf n).pk.find? (fun j => j.off = off) with
  | none => .next s
  | some j =>
    if j.pstat = 0 && (!j.waits.isEmpty || j.engine.isNone) then .next s
    else
      let e := j.engine.getD 0
      let s := if finding = 0 then s else engineMismatch n (8 + e) s
      let j := if j.pstat = 0 ∧ finding = 2 then { j with pstat := 0xA } else j
      let (st, result, len, s) := pkResult n j s
      let s := putTarget (.sram n (off + 48)) (completionRecord st result j.pdetail len cycles) s
      let s := s.modEng n (fun k => { k with pk := k.pk.filter (fun q => !(q.off = off)) })
      let s := match j.engine with | some e => pkNext n e s | none => s
      let s := bump (chIdx n 0x12) 4 0 s
      let s := if 96 < attempts ∧ isMldsa (PDesc.ofBytes j.desc).pkalg then bump (chIdx n 0x12) 8 0 s else s
      let s := if stall = 0 then s else bumpBy (chIdx n 0x12) 5 0 stall s
      let s := raiseLine n (0x10 + j.core % 8) s
      .next (if finding = 2 then quarantineChannel n s else s)

def execPsubmit (c off : Nat) (s : State) : Res :=
  match psubmitWrite c off s with
  | .done s => .next s
  | .stall s => .next s

-- Fills (R282).

/-- The job goes on once its last fill is in. -/
def cipherFilled (n i : Nat) (j : CipherJob) (s : State) : CipherJob × State :=
  if j.waits.contains i then
    let j := { j with waits := j.waits.filter (fun w => !(w = i)) }
    if j.waits.isEmpty && j.cstat = 0 then cipherKeys n j s else (j, s)
  else (j, s)

def digestFilled (n i : Nat) (j : DigestJob) (s : State) : DigestJob × State :=
  if j.waits.contains i then fragFetch n { j with waits := [] } s else (j, s)

def pkFilled (n i : Nat) (j : PkJob) (s : State) : PkJob × State :=
  if j.waits.contains i then pkFetch n { j with waits := [] } s else (j, s)

/-- Pass the state through a list of jobs. -/
def mapJobs {α : Type} (f : α → State → α × State) : List α → State → List α × State
  | [], s => ([], s)
  | j :: t, s =>
    let (j, s) := f j s
    let (t, s) := mapJobs f t s
    (j :: t, s)

/-- A key cache fill or extension read completes (R282): the next fill starts, and every fetch that waited
for the slot proceeds. A record that does not verify fails them with 0x0206 (R276). -/
def execKeyCacheFillComplete (i : Nat) (s : State) : Res :=
  if !s.ks.fills.contains i then .next s
  else
    let s := s.updKs (fun k => { k with
      fills := k.fills.filter (fun x => !(x = i)) ++ k.fillQueue.take 1, fillQueue := k.fillQueue.drop 1 })
    let good := !(s.slot i).macBad
    let s := if resident s i && good then s else (fillEntry i s).1
    .next ((List.range 9).foldl (fun s n =>
      if good then
        let (cs, s) := mapJobs (cipherFilled n i) (s.engOf n).cipher s
        let (ds, s) := mapJobs (digestFilled n i) (s.engOf n).digest s
        let (ps, s) := mapJobs (pkFilled n i) (s.engOf n).pk s
        s.modEng n (fun e => { e with cipher := cs, digest := ds, pk := ps })
      else s.modEng n (fun e => { e with
        cipher := e.cipher.map (fun j => if j.waits.contains i then { j with waits := [], cstat := 4, cdetail := 0x0206 } else j),
        digest := e.digest.map (fun j => if j.waits.contains i then { j with waits := [], jstat := 4, jdetail := 0x0206 } else j),
        pk := e.pk.map (fun j => if j.waits.contains i then { j with waits := [], pstat := 4, pdetail := 0x0206 } else j) })) s)

end Sys2Proof.Machine
end

