-- ==== Sys2Proof/Machine/QueueMgr.lean ====
section
/-! DEFINITION. The queue manager (chapter 05): the descriptor cache (R172), checks 2 to 13 of Table 02-15,
admission (R179 to R182), dispatch and selection (R184, R185), steal (R187), wait limits (R188), spill (R190)
and the C0 deadlines (R194). -/

namespace Sys2Proof.Machine

-- Answers to requests that are not in the table.

/-- Answer a request that is refused before it has a place in the table. -/
def refuse (q : Request) (status detail : Nat) (s : State) : State :=
  sendResponse { q with status := status, detail := detail, response := [], tOut := s.time } false s

-- The descriptor cache (R172).

/-- Is a queue's descriptor locked in the cache? -/
def descLocked (k : Queue) : Bool := queueValid k && (queueClass k = 0 || bit k.qctl 5)
def lockedCount (s : State) : Nat := (s.qm.queues.filter (fun e => descLocked e.2)).length
def descCached (s : State) (qn : Nat) : Bool := descLocked (s.queue qn) || s.qm.cache.contains qn

/-- A descriptor is used or filled: most recently used first, 32,768 with the locked ones. -/
def descTouch (qn : Nat) (s : State) : State :=
  if descLocked (s.queue qn) then s
  else { s with qm := { s.qm with cache := (qn :: s.qm.cache.filter (fun x => !(x == qn))).take (32768 - lockedCount s) } }

-- Checks.

/-- Check 3: reserved fields and unused slot references are zero (Tables 02-1 and 02-2). -/
def headerReservedBad (h : Header) : Bool :=
  16 ≤ h.flags || 4 ≤ h.cls || 2 ^ 20 ≤ h.queue || h.rsv14 != 0 || h.rsv40 != 0 ||
  2 ^ 21 ≤ h.slot0 || 2 ^ 21 ≤ h.slot1 || 2 ^ 21 ≤ h.slot2 || 2 ^ 21 ≤ h.slot3 ||
  (h.nslot = 0 && h.slot0 != 0) || (h.nslot ≤ 1 && h.slot1 != 0) || (h.nslot ≤ 2 && h.slot2 != 0) || (h.nslot ≤ 3 && h.slot3 != 0)

/-- Is the program or model that a request needs approved for its tenant (R141, R151)? -/
def programApproved (s : State) (q : Request) : Bool :=
  if isCustomer q.hdr.service then
    (match boundImage s q.hdr.tenant q.hdr.service with | some (_, b) => b.approved | none => false)
  else if q.hdr.service = 0x0A01 then
    (tfind s.svc.models (leAt q.payload 14 2)).isSome && s.svc.approvals.contains (q.hdr.tenant, leAt q.payload 14 2)
  else true

/-- Is a tenant refused with 0x0302: suspended, or awaiting resynchronisation (R294, R479)? -/
def tenantHeld (s : State) (t : Nat) : Bool := decide ((s.tenant t).state ≠ .active) || (s.tenant t).resync

/-- Checks 9 to 11. -/
def serviceChecks (s : State) (q : Request) : Option Nat :=
  firstFail [(!serviceKnown s q.hdr, 0x010A), ((refusesRequests s).isSome, (refusesRequests s).getD 0), (tenantHeld s q.hdr.tenant, 0x0302),
    (s.svc.disabled.contains (q.hdr.tenant, q.hdr.service), 0x0303), (!programApproved s q, 0x0306)]

/-- A tenant's requests that are queued, running or spilled. -/
def outstanding (s : State) (t : Nat) : Nat :=
  (s.reqs.filter (fun e => e.2.hdr.tenant = t && e.2.stage != .fetchWait &&
    (match e.2.via with | .eth _ _ => true | .ring _ _ => true | _ => false))).length

def admOf (s : State) (t : Nat) : AdmRecord := tget {} s.qm.adm t
def setAdm (t : Nat) (a : AdmRecord) (s : State) : State := { s with qm := { s.qm with adm := tput s.qm.adm t a } }
def outLimit (s : State) (t : Nat) : Nat := let l := (admOf s t).outLimit; if l = 0 then s.cfg 0x4004 1 else l

/-- Request table entries in use. -/
def tableUsed (s : State) : Nat := (s.reqs.filter (fun e => e.2.stage != .fetchWait)).length

/-- Does a tenant's level hold a charge (R176)? -/
def levelHolds (s : State) (t c : Nat) : Bool :=
  let a := refilled s (admOf s t)
  a.c0Rate != 0 && decide (c * 65536 ≤ a.level)

/-- Conditions 2 to 6 of Table 05-5. -/
def boundConditions (s : State) (q : Request) : Bool :=
  let k := s.queue q.qn
  q.payload.length ≤ 2048 && serviceC0 s q.hdr q.payload && q.budget ≤ 40000 && keysPinned s q.hdr q.payload &&
  !q.hdr.ordered && !k.barrier && !k.excess && s.qm.windows.isEmpty

-- Enqueueing.

/-- Give a request a table index, the lowest free or the one it holds. -/
def tableIndex (s : State) (have_ : Option Nat) : Nat := have_.getD (firstFree s.reqs 0)

/-- Enqueue at its queue's tail. -/
def enqueue (r : Nat) (q : Request) (s : State) : State :=
  let s := s.setReq r { q with tQueued := s.time }
  let s := s.setQueue q.qn { s.queue q.qn with list := (s.queue q.qn).list ++ [r] }
  let s := largest 0x9053 3 (tableUsed s) s
  s

/-- A C0 request within the conditions joins the ready list (R184). -/
def enqueueReady (r : Nat) (q : Request) (s : State) : State :=
  let s := enqueue r { q with within := true, stage := .ready } s
  syncQueues (bump 0x9052 2 q.hdr.tenant { s with qm := { s.qm with readyList := s.qm.readyList ++ [r] } })

/-- A best-effort C0 request joins an excess queue (R182). -/
def enqueueExcess (r : Nat) (q : Request) (s : State) : State :=
  let k := s.queue q.qn
  let n := if k.excess then k.excessChan else (argMax (chansIn s) (freeSlots s)).getD 0
  let s := enqueue r { q with bestEffort := true, stage := .excess } s
  let s := s.setQueue q.qn { s.queue q.qn with excess := true, excessChan := n }
  syncQueues (bump 0x9052 3 q.hdr.tenant (s.modChan n (fun c => { c with excess := c.excess ++ [r] })))

/-- Check 13 for a C0 request (R180, R181). -/
def admitC0 (have_ : Option Nat) (q : Request) (s : State) : State :=
  let c := charge q
  let a := refilled s (admOf s q.hdr.tenant)
  let cond1 := levelHolds s q.hdr.tenant c
  let rest := boundConditions s q
  let s := if (tfind s.qm.adm q.hdr.tenant).isSome then setAdm q.hdr.tenant a s else s
  let r := tableIndex s have_
  let drop (s : State) : State := { s with reqs := tdel s.reqs r }
  if cond1 && rest then enqueueReady r q (setAdm q.hdr.tenant { a with level := a.level - c * 65536 } s)
  else if !cond1 && a.overflow = 1 then bump 0x9052 4 q.hdr.tenant (refuse q 0x0304 0 (drop s))
  else if q.hdr.rejectUnbounded then bump 0x9052 4 q.hdr.tenant (refuse q 0x0504 0 (drop s))
  else
    match (if !cond1 && rest && spillAllowed s q then c0SpillTarget s q else none) with
    | some ad => spillOut r ad true (enqueue r { q with within := true, stage := .ready } s)
    | none => enqueueExcess r q s

/-- Checks 12 and 13, and the enqueue (R179 to R181, R198). -/
def admitRequest (have_ : Option Nat) (q : Request) (s : State) : State :=
  let t := q.hdr.tenant
  let q := { q with budget := declaredBudget s q.hdr q.payload }
  let k := s.queue q.qn
  let drop (s : State) : State := match have_ with | some r => { s with reqs := tdel s.reqs r } | none => s
  let reserve := q.hdr.class = 0 && levelHolds s t (charge q)
  if outLimit s t ≤ outstanding s t then bump 0x9052 7 t (refuse q 0x0305 0 (drop s))
  else if 262144 ≤ tableUsed s || (!reserve && 253952 ≤ tableUsed s) then bump 0x9053 1 0 (refuse q 0x0501 0 (drop s))
  else if k.depthLimit ≤ k.list.length then
    bump 0x9053 2 0 (refuse q 0x0502 0 (drop (s.setQueue q.qn { k with fullSeen := true })))
  else if chansIn s = [] then refuse q 0x0505 0 (drop s)
  else if q.hdr.class = 0 then admitC0 have_ q s
  else syncQueues (enqueue (tableIndex s have_) { q with stage := .queued } s)

/-- Checks 7 to 13, once the descriptor is in the cache. -/
def checksWithQueue (have_ : Option Nat) (q : Request) (s : State) : State :=
  let k := s.queue q.qn
  let drop (s : State) : State := match have_ with | some r => { s with reqs := tdel s.reqs r } | none => s
  match firstFail [(!queueValid k, 0x0107), (k.tenant != q.hdr.tenant, 0x0109), (queueClass k != q.hdr.class, 0x0108),
      (q.hdr.class = 0 && 2048 < q.hdr.payloadLen, 0x010B)] with
  | some st => refuse q st 0 (drop s)
  | none =>
    match serviceChecks s q with
    | some st => refuse q st 0 (drop s)
    | none => admitRequest have_ q (descTouch q.qn s)

/-- Check 7 needs the queue's descriptor: a request to a queue that is not in the cache waits for its fetch
(R172). -/
def needQueue (q : Request) (s : State) : State :=
  let busy := s.qm.waiting.any (fun r => match s.req? r with | some w => w.qn = q.qn | none => false)
  if descCached s q.qn && !busy then checksWithQueue none q s
  else
    let r := firstFree s.reqs 0
    let s := if busy then s else bump 0x9053 7 0 s
    { (s.setReq r { q with stage := .fetchWait }) with qm := { s.qm with waiting := s.qm.waiting ++ [r] } }

/-- Tenants that a session speaks for (R62): its own, or every one; on a ring within the function's range. -/
def authorised (s : State) (via : Via) (se : Session) (t : Nat) : Bool :=
  (se.multiTenant || se.tenant = t) &&
  (match via with
   | .ring f _ => s.cfg (0x1030 + f) 1 ≤ t && t ≤ s.cfg (0x1030 + f) 2
   | _ => true)

/-- A request message passes the checks of Table 02-15 from check 2 on. `q` carries how it came; `padBad`: the
record's padding was not zero. -/
def arrive (q : Request) (se : Session) (msg : Bytes) (padBad : Bool) (s : State) : State :=
  let h := Header.ofBytes msg
  let q := { q with hdr := h, payload := msg.drop 64, tIn := s.time, pcie := (match q.via with | .ring _ _ => true | _ => false) }
  let un := { q with unauth := true }
  if h.version ≠ 1 then refuse un 0x0101 0 s
  else if headerReservedBad h || padBad then refuse un 0x0103 0 s
  else
    match headerKey s h.tenant with
    | none => refuse un 0x020A 0x10 s
    | some key =>
      if cmac 0x220 key h.macBytes ≠ h.mac then refuse un 0x0104 0 s
      else
        match firstFail [(16384 < h.payloadLen || h.payloadLen != q.payload.length, 0x0105), (4 < h.nslot, 0x0106),
            (!authorised s q.via se h.tenant, 0x0301)] with
        | some st => refuse q st 0 s
        | none => needQueue q s

/-- The fetch of a queue's descriptor ends (R172). -/
def execDescriptorCacheFetchComplete (qn : Nat) (good : Bool) (s : State) : Res :=
  let rs := s.qm.waiting.filter (fun r => match s.req? r with | some q => q.qn = qn | none => false)
  if rs.isEmpty then .next s
  else
    let s := { s with qm := { s.qm with waiting := s.qm.waiting.filter (fun r => !rs.contains r) } }
    if good then
      .next (rs.foldl (fun s r => match s.req? r with | some q => checksWithQueue (some r) q s | none => s) (descTouch qn s))
    else
      .next (rs.foldl (fun s r => match s.req? r with
        | some q => bump 0x9053 1 0 (refuse q 0x0501 0 { s with reqs := tdel s.reqs r })
        | none => s) (bump 0x9053 6 0 s))

-- Dispatch (step 4 and 5 of Table 01-6).

/-- Lowest request context of a channel that no request holds: 0 to 7, or 8 to 14 for C0 (log 18). -/
def freeCtx (s : State) (n : Nat) (c0 : Bool) : Nat :=
  let used := s.reqs.filterMap (fun e => match e.2.stage with | .running m _ => if m = n then some e.2.ctx else none | _ => none)
  (((List.range 7).map (fun i => if c0 then 8 + i else i) ++ (if c0 then [] else [7])).find? (fun x => !used.contains x)).getD
    (if c0 then 8 else 0)

/-- Dispatch a request to a channel: it leaves its lists, takes a context, its message is copied to the
context's area, and its event waits at the channel's queue port. -/
def dispatchTo (n r : Nat) (s : State) : State :=
  match s.req? r with
  | none => s
  | some q =>
    let c0 := q.stage = .ready
    let s := unlist r s
    let x := freeCtx s n c0
    let s := s.setReq r { q with stage := .running n none, ctx := x, c0Slot := c0, servedBy := n }
    let s := ctxPut n x 0 (q.hdr.bytes ++ q.payload) s
    let s := match q.via with
      | .frieze _ => s
      | .internal _ _ _ => s
      | _ => s.setQueue q.qn { s.queue q.qn with running := (s.queue q.qn).running + 1 }
    let ev := if c0 then 0x200 else 0x201
    let cls := if c0 then 0 else if q.hdr.class = 0 then 1 else q.hdr.class
    let data := r + x * 2 ^ 18 + cls * 2 ^ 22
    let s := s.modIntc n (fun k => { k with reqs := k.reqs ++ [{ event := ev, data := data, tRaise := s.time % 2 ^ 32 }] })
    syncQueues s

/-- The first request of the ready list whose queue is not PAUSED (R184). -/
def readyHead (s : State) : Option Nat :=
  s.qm.readyList.find? (fun r => match s.req? r with | some q => !queuePaused (s.queue q.qn) | none => false)

/-- DISPATCH: the head of the ready list to the channel with most free C0 slots (R184). -/
def execDispatch (s : State) : Res :=
  match readyHead s, argMax (chansIn s) (freeC0 s) with
  | some r, some n => .next (if 0 < freeC0 s n then dispatchTo n r s else s)
  | _, _ => .next s

-- Selection (R185).

/-- Weight of a queue or of the excess queue; a spill-in queue has its port's weight (R472). -/
def weightOf (s : State) (id : Nat) : Nat :=
  if id = excessId then s.cfg 0x4001 5 else if excessId < id then s.cfg (0x6020 + (id - excessId - 1) / 4) 4 else (s.queue id).weight

def deficitOf (s : State) (n id : Nat) : Int := if id = excessId then (s.chan n).excessDeficit else (s.queue id).deficit
def freshOf (s : State) (n id : Nat) : Bool := if id = excessId then (s.chan n).excessFresh else (s.queue id).fresh
def headOf (s : State) (n id : Nat) : Option Nat := if id = excessId then (s.chan n).excess.head? else (s.queue id).list.head?

def setDeficit (n id : Nat) (d : Int) (fresh : Bool) (s : State) : State :=
  if id = excessId then s.modChan n (fun c => { c with excessDeficit := d, excessFresh := fresh })
  else s.setQueue id { s.queue id with deficit := d, fresh := fresh }

def nextClass (k : Nat) : Nat := if k = 3 then 1 else k + 1

/-- One selection for a channel, at most `fuel` passes: the request, if any, and the state. -/
def selectLoop (n : Nat) : Nat → State → Option Nat × State
  | 0, s => (none, s)
  | fuel + 1, s =>
    let c := s.chan n
    let k := c.classPtr
    match c.activeOf k with
    | [] =>
      selectLoop n fuel (s.setChan n { c with
        classDeficit := tdel c.classDeficit k, classPtr := nextClass k, classStale := tset false c.classStale k false })
    | id :: t =>
      let quantum : Int := s.cfg 0x4001 4
      let cd : Int := tget 0 c.classDeficit k + (if tget false c.classStale k then 0 else (s.cfg 0x4001 k : Int) * quantum)
      let s := s.setChan n { c with classDeficit := tset 0 c.classDeficit k cd, classStale := tset false c.classStale k true }
      let qd : Int := deficitOf s n id + (if freshOf s n id then (weightOf s id : Int) * quantum else 0)
      let s := setDeficit n id qd false s
      match headOf s n id with
      | none => (none, s)
      | some r =>
        let ch : Int := reqCharge s r
        if ch ≤ qd ∧ ch ≤ cd then
          (some r, setDeficit n id (qd - ch) false (s.modChan n (fun c => { c with classDeficit := tset 0 c.classDeficit k (cd - ch) })))
        else
          let s := if qd < ch then (setDeficit n id qd true s).modChan n (fun c => c.setActive k (t ++ [id])) else s
          let s := if cd < ch then s.modChan n (fun c => { c with
              classStale := tset false c.classStale k false, classPtr := nextClass k })
            else s
          selectLoop n fuel s

/-- Has a channel an active queue of any class? -/
def anyActive (s : State) (n : Nat) : Bool :=
  let c := s.chan n
  !(c.active1.isEmpty && c.active2.isEmpty && c.active3.isEmpty)

/-- SELECT: internal requests of the part first (log 22), then R185. -/
def execSelect (n : Nat) (s : State) : Res :=
  if !inService s n || freeSlots s n = 0 then .next s
  else
    match s.qm.internal with
    | r :: _ => .next (dispatchTo n r s)
    | [] =>
      if !anyActive s n then .next s
      else
        match selectLoop n 4096 s with
        | (some r, s) => .next (dispatchTo n r s)
        | (none, s) => .next s

/-- Requests that a channel may steal (R187): the head of each active queue of the other channels, with the queue
and its channel, unless ORDERED or behind BARRIER. -/
def stealable (s : State) (n : Nat) : List (Nat × Nat × Nat) :=
  ((chansIn s).filter (fun m => m != n)).flatMap (fun m =>
    let c := s.chan m
    (c.active1 ++ c.active2 ++ c.active3).filterMap (fun id =>
      match headOf s m id with
      | some r => if isOrdered s r || (id != excessId && (s.queue id).barrier) then none else some (r, id, m)
      | none => none))

def waited (s : State) (r : Nat) : Nat := match s.req? r with | some q => s.time - q.tQueued | none => 0

/-- STEAL (R187). -/
def execSteal (n : Nat) (s : State) : Res :=
  if !inService s n || freeSlots s n = 0 || anyActive s n then .next s
  else
    let best := (stealable s n).foldl (fun (b : Option (Nat × Nat × Nat)) e =>
      match b with | none => some e | some o => if waited s o.1 < waited s e.1 then some e else b) none
    match best with
    | none => .next s
    | some (r, id, m) =>
      if waited s r < s.cfg 0x4003 3 * 1000 then .next s
      else
        let d := deficitOf s m id - (reqCharge s r : Int)
        .next (dispatchTo n r (setDeficit m id (if d < 0 then 0 else d) (freshOf s m id) s))

/-- WAIT_LIMIT_EXPIRY: queued requests of C1 to C3 of queue `qn` past WAIT_LIMIT are answered in queue order
(R188). -/
def execWaitLimitExpiry (qn : Nat) (s : State) : Res :=
  let k := s.queue qn
  if k.waitLimit = 0 || queueClass k = 0 then .next s
  else .next ((k.list.filter (fun r => k.waitLimit * 1000 < waited s r)).foldl
    (fun s r => endRequest r 0x0508 (bump 0x9052 9 k.tenant s)) s)

/-- Deadlines of R194 from T_IN, ns. -/
def deadline (q : Request) (eth pcie : Nat) : Nat := q.tIn + (if q.pcie then pcie else eth) + q.extraNs

/-- DISPATCH_DEADLINE (R194). -/
def execDispatchDeadline (r : Nat) (s : State) : Res :=
  match s.req? r with
  | none => .next s
  | some q =>
    .next (if q.within && q.stage = .ready && decide (deadline q 17682 18376 ≤ s.time) then
      endRequest r 0x0508 (bump 0x9052 5 q.hdr.tenant s) else s)

def isRunning (st : Stage) : Bool := match st with | .running _ _ => true | _ => false

/-- EXECUTION_DEADLINE (R194). -/
def execExecutionDeadline (r : Nat) (s : State) : Res :=
  match s.req? r with
  | none => .next s
  | some q =>
    .next (if q.within && isRunning q.stage && !q.ready && decide (deadline q 17912 18606 ≤ s.time) then
      endRequest r 0x0503 (bump 0x9052 6 q.hdr.tenant s) else s)

/-- FORCED_QUARANTINE_WINDOW_CLOSE (R183): the windows whose moves are made and that are 100 µs old, or 1 ms
old. -/
def execForcedQuarantineWindowClose (s : State) : Res :=
  .next { s with qm := { s.qm with windows := s.qm.windows.filter (fun w =>
    !((w.moved && w.rescaled && decide (w.openedAt + 100000 ≤ s.time)) || decide (w.openedAt + 1000000 ≤ s.time))) } }

/-- Is a request the head of its queue or of an excess queue? -/
def isHead (s : State) (r : Nat) (q : Request) : Bool :=
  if q.stage = .excess then (s.chan (s.queue q.qn).excessChan).excess.head? = some r
  else q.stage = .queued && (s.queue q.qn).list.head? = some r

/-- SPILL (R190): the head `r` has waited the spill time and no channel has a free non-C0 slot (log 23). -/
def execSpill (r : Nat) (s : State) : Res :=
  match s.req? r with
  | none => .next s
  | some q =>
    if !isHead s r q || !mayStart s r || !spillAllowed s q || (chansIn s).any (fun n => 0 < freeSlots s n) ||
        waited s r < s.cfg 0x4003 2 * 1000 then .next s
    else
      match spillTarget s q with
      | some a => .next (spillOut r a false s)
      | none => .next s

end Sys2Proof.Machine
end

