-- ==== Sys2Proof/Machine/Sessions.lean ====
section
/-! DEFINITION. Service sessions (chapter 02): handshakes (R60 to R62), protected frames (R55 to R59), records and
reassembly (R57, R67), the life of a session (R63, R64), and RESPOND (R35). -/

namespace Sys2Proof.Machine

-- Handshakes.

/-- Signed data of HELLO_REPLY and of CONFIRM: SHA-384. -/
def sha384 (b : Bytes) : Bytes := digest 2 b 0

/-- The peer's public key behind PEER_SLOT, or the key status of Table 02-16 (step 1 of Table 02-8). -/
def peerKey (slot : Nat) (s : State) : Except Nat Slot × State :=
  let (s, good) := if resident s slot then (cacheTouch slot (bump 0x9054 1 0 s), true) else fillEntry slot s
  if !good then (.error 0x0206, s)
  else
    match fetchChecks slot (s.slot slot).tenant 0x80000 (fun a => a = 0x1102) true s with
    | .ok k s => (.ok k, s)
    | .fail st s => (.error st, s)

/-- The code for which a HELLO cannot be served because of part state (R64). -/
def helloRefused (s : State) : Option Nat :=
  if s.life.state = .zeroized then some 0x0F05 else refusesRequests s

/-- A HELLO body is well formed: KEX 0x01, reserved content zero. -/
def helloGood (b : Bytes) : Bool :=
  b.length = 144 && leAt b 0 1 = 1 && leAt b 1 3 = 0 && leAt b 4 4 < 2 ^ 21 && allZero (slice b 137 7)

/-- A new session in HANDSHAKE for a HELLO whose peer key was found. -/
def newSession (body : Bytes) (k : Slot) (s : State) : Session :=
  { hello := body, peerSlot := leAt body 4 4, tenant := k.tenant, multiTenant := k.tenant = 0 && bit k.usage 23,
    opened := s.time, lastRx := s.time }

/-- A SESSION_ID that the part assigns: a free value, or the least unused one. -/
def freshSid (s : State) : Nat :=
  let c := 1 + freeNat (2 ^ 32 - 1) s
  if (tfind s.sessions c).isSome then firstFree s.sessions 1 else c

/-- The handshake runs as an internal C1 request (Table 02-8, step 2). -/
def internalRequest (via : Via) (tag addr cap : Nat) (s : State) : State :=
  let r := firstFree s.reqs 0
  let s := s.setReq r { hdr := { service := 1, cls := 1 }, via := via, tag := tag, rspAddr := addr, rspCap := cap, tIn := s.time,
                        tQueued := s.time }
  { s with qm := { s.qm with internal := s.qm.internal ++ [r] } }

/-- A HELLO on an Ethernet port. -/
def helloFrame (p : Peer) (body : Bytes) (s : State) : State :=
  if !helloGood body then bump (0x9040 + p.port) 2 0 s
  else
    let refuse (code : Nat) (s : State) : State := sendReset p.port p.ip p.udp 0 code s
    match helloRefused s with
    | some c => refuse c s
    | none =>
      let half := (s.sessions.filter (fun e => e.2.state = .handshake && e.2.port = p.port)).length
      if 4096 ≤ s.sessions.length ∨ s.cfg (0x1020 + p.port) 8 ≤ half then refuse 0x0509 s
      else
        match peerKey (leAt body 4 4) s with
        | (.error st, s) => refuse st s
        | (.ok k, s) =>
          let sid := freshSid s
          let se := { newSession body k s with port := p.port, peerIp := p.ip, peerUdp := p.udp, peerMac := p.mac, dscp := p.dscp }
          internalRequest (.internal false p.port sid) 0 0 0 (useFree (s.setSession sid se))

/-- The reply of a handshake, with the session's keys: NONCE_D and EPH_D are the generator's. None when the
session-signing key cannot be fetched, with its status. -/
def helloReply (sid : Nat) (se : Session) (s : State) : Except Nat Session × State :=
  let rnd := freeBytes 80 s
  let s := useFree s
  let nonce := rnd.take 32
  let eph := rnd.drop 32
  let head := [1, 0, 0, 0] ++ leBytes 4 sid ++ nonce ++ padTo 97 (pkPublic 4 eph) ++ zeros 7
  match fetchChecks (s.cfg 0x5005 1) 0 0x40000 (fun a => a = 0x1002) true s with
  | .fail st s => (.error st, s)
  | .ok k s =>
    let sig := padTo 96 (pkSign 2 2 k.material (sha384 (se.hello ++ head)) [] (freeBytes 48 s))
    let se := { se with helloReply := head ++ sig, opened := s.time }
    (.ok (se.withKeys (sessionKeys (pkAgree 4 eph (slice se.hello 40 97)) (slice se.hello 8 32) nonce sid)), useFree s)

/-- SIG_P of a CONFIRM: over SHA-384 of the HELLO and HELLO_REPLY bodies, under the key of PEER_SLOT. -/
def confirmGood (se : Session) (body : Bytes) (s : State) : Bool :=
  body.length = 96 && pkVerify 2 2 false (s.slot se.peerSlot).pub (sha384 (se.hello ++ se.helloReply)) [] body

-- Protected frames.

/-- May a frame with this SEQ be accepted (R59)? -/
def seqOk (high : Nat) (seen : List Nat) (seq : Nat) : Bool :=
  1 ≤ seq && (high < seq || (high ≤ seq + 1024 && !seen.contains seq))

/-- SEQ values kept as accepted: those within 1,024 below the highest. -/
def seqNote (high : Nat) (seen : List Nat) (seq : Nat) : Nat × List Nat :=
  let h := Nat.max high seq
  (h, (seq :: seen).filter (fun x => decide (h ≤ x + 1024)))

def Session.noteSeq (k : Session) (seq now : Nat) : Session :=
  let (h, l) := seqNote k.rxHigh k.rxSeen seq
  { k with rxHigh := h, rxSeen := l, rxFrames := k.rxFrames + 1, lastRx := now }

/-- Does the tag of a protected frame verify under the keys of a direction (R58)? -/
def tagOk (key iv : Bytes) (typ tflags sid seq : Nat) (ct tag : Bytes) : Bool :=
  !key.isEmpty && gcmTag key (iv ++ leBytes 8 seq) (frameHeader typ tflags sid seq ct.length) ct = tag

-- Records (R57).

/-- One record: RTYPE, MSG_NO, content, padding or reserved byte not zero. -/
structure Record where
  rtype : Nat
  msgNo : Nat
  content : Bytes
  padBad : Bool
deriving DecidableEq, Repr

/-- The records of a body; none when the framing is broken. -/
def recordsIn : Nat → Bytes → Option (List Record)
  | 0, b => if b.isEmpty then some [] else none
  | fuel + 1, b =>
    if b.isEmpty then some []
    else
      let len := leAt b 2 2
      let n := 8 + len + (8 - len % 8) % 8
      if b.length < n ∨ leAt b 0 1 = 0 ∨ 4 < leAt b 0 1 then none
      else
        match recordsIn fuel (b.drop n) with
        | none => none
        | some t =>
          some ({ rtype := leAt b 0 1, msgNo := leAt b 4 4, content := slice b 8 len,
                  padBad := leAt b 1 1 != 0 || !allZero (slice b (8 + len) (n - 8 - len)) } :: t)

def recordsOfBody (b : Bytes) : Option (List Record) := recordsIn (b.length / 8 + 1) b

/-- A message of a session reaches the checks from check 2 on. One too short for a header is discarded. -/
def messageIn (via : Via) (se : Session) (base : Request) (msg : Bytes) (padBad : Bool) (s : State) : State :=
  if msg.length < 64 then countDiscard via 6 s else arrive { base with via := via } se msg padBad s

/-- Drop a partial message and count it (R67). -/
def dropPartial (port sid : Nat) (s : State) : State :=
  match s.session? sid with
  | some k => if k.reasm.isSome then bump (0x9040 + port) 6 0 (s.setSession sid { k with reasm := none }) else s
  | none => s

/-- One record of an Ethernet DATA frame. -/
def recordIn (port sid seq : Nat) (r : Record) (s : State) : State :=
  match s.session? sid with
  | none => s
  | some k =>
    let via : Via := .eth port sid
    let base : Request := { hdr := {}, via := via }
    match r.rtype, k.reasm with
    | 1, _ => messageIn via k base r.content r.padBad (dropPartial port sid s)
    | 2, _ =>
      let s := dropPartial port sid s
      if r.content.length % 8 ≠ 0 ∨ r.padBad then bump (0x9040 + port) 6 0 s
      else s.setSession sid { k with reasm := some (r.msgNo, r.content, 1, s.time, seq + 1) }
    | _, none => bump (0x9040 + port) 6 0 s
    | t, some (no, c, n, t0, _) =>
      if r.msgNo ≠ no ∨ 16 ≤ n ∨ (t = 3 ∧ r.content.length % 8 ≠ 0) then dropPartial port sid s
      else if t = 3 then s.setSession sid { k with reasm := some (no, c ++ r.content, n + 1, t0, seq + 1) }
      else messageIn via { k with reasm := none } base (c ++ r.content) r.padBad (s.setSession sid { k with reasm := none })

/-- A frame of the session that arrives out of SEQ order ends an open reassembly; another moves it on. -/
def reasmSeq (port sid seq : Nat) (s : State) : State :=
  match s.session? sid with
  | some k =>
    (match k.reasm with
     | some (no, c, n, t0, next) =>
       if seq = next then s.setSession sid { k with reasm := some (no, c, n, t0, seq + 1) } else dropPartial port sid s
     | none => s)
  | none => s

-- Frames of an Ethernet session.

/-- A protected frame from a peer: session known, SEQ window, tag; then its own effect. -/
def protectedFrame (p : Peer) (typ tflags sid seq : Nat) (ct tag : Bytes) (go : State → State) (s : State) : State :=
  let unknown := sendReset p.port p.ip p.udp sid 0x0110 (bump (0x9040 + p.port) 4 0 s)
  match s.session? sid with
  | none => unknown
  | some k =>
    if (k.state = .open ∧ typ ≠ 3) ∨ (k.state = .handshake ∧ typ = 3) then
      if !seqOk k.rxHigh k.rxSeen seq then bump (0x9040 + p.port) 3 0 s
      else if !tagOk k.keyIn k.ivIn typ tflags sid seq ct tag then bump (0x9040 + p.port) 2 0 s
      else go (reasmSeq p.port sid seq (s.setSession sid (k.noteSeq seq s.time)))
    else if k.state = .open then bump (0x9040 + p.port) 3 0 s
    else unknown

/-- Close a session: its requests go on, their responses are discarded (Table 02-17). -/
def closeSession (sid : Nat) (s : State) : State := s.delSession sid

/-- The effect of a CONFIRM. -/
def confirmIn (p : Peer) (sid : Nat) (body : Bytes) (s : State) : State :=
  match s.session? sid with
  | none => s
  | some k =>
    if confirmGood k body s then
      ethSend sid 4 [] (s.setSession sid { k with state := .open, opened := s.time, hello := [], helloReply := [] })
    else sendReset p.port p.ip p.udp sid 0x0111 (closeSession sid s)

/-- The effect of a DATA frame: its records in order. -/
def dataIn (p : Peer) (sid seq : Nat) (body : Bytes) (s : State) : State :=
  match recordsOfBody body with
  | none => bump (0x9040 + p.port) 6 0 s
  | some rs => rs.foldl (fun s r => recordIn p.port sid seq r s) s

/-- A protected frame whose body is given in clear, as the rows of the table give it. -/
def clearFrame (p : Peer) (typ sid seq : Nat) (body tag : Bytes) (go : State → State) (s : State) : State :=
  let ct := match s.session? sid with
    | some k => gcmCrypt k.keyIn (k.ivIn ++ leBytes 8 seq) body
    | none => body
  protectedFrame p typ 0 sid seq ct tag go s

def execHello (p : Peer) (body : Bytes) (s : State) : Res := .next (helloFrame p body s)
def execConfirm (p : Peer) (sid seq : Nat) (body tag : Bytes) (s : State) : Res :=
  .next (clearFrame p 3 sid seq body tag (confirmIn p sid body) s)
def execData (p : Peer) (sid seq : Nat) (body tag : Bytes) (s : State) : Res :=
  .next (clearFrame p 0x10 sid seq body tag (dataIn p sid seq body) s)
def execClose (p : Peer) (sid seq : Nat) (body tag : Bytes) (s : State) : Res :=
  .next (clearFrame p 0x20 sid seq body tag (closeSession sid) s)
def execKeepalive (p : Peer) (sid seq : Nat) (tag : Bytes) (s : State) : Res :=
  .next (clearFrame p 0x21 sid seq [] tag (fun s => s) s)

/-- A datagram for the part's UDP port: one frame (R55, R56). -/
def datagram (p : Peer) (b : Bytes) (s : State) : State :=
  let typ := leAt b 1 1
  let tfl := leAt b 2 1
  let sid := leAt b 4 4
  let seq := leAt b 8 8
  let len := leAt b 16 4
  let bad := bump (0x9040 + p.port) 2 0 s
  if b.length < 24 ∨ leAt b 0 1 ≠ 1 ∨ leAt b 3 1 ≠ 0 ∨ leAt b 20 4 ≠ 0 ∨ 2 ≤ tfl ∨ len % 8 ≠ 0 then bad
  else if typ = 1 then
    if b.length ≠ 24 + len ∨ sid ≠ 0 ∨ seq ≠ 0 then bad else helloFrame p (b.drop 24) s
  else if typ ≠ 3 ∧ typ ≠ 0x10 ∧ typ ≠ 0x20 ∧ typ ≠ 0x21 then bad
  else if b.length ≠ 40 + len then bad
  else
    let ct := slice b 24 len
    let tag := b.drop (24 + len)
    let body := match s.session? sid with
      | some k => gcmCrypt k.keyIn (k.ivIn ++ leBytes 8 seq) ct
      | none => ct
    protectedFrame p typ tfl sid seq ct tag
      (if typ = 3 then confirmIn p sid body else if typ = 0x10 then dataIn p sid seq body
       else if typ = 0x20 then closeSession sid else fun s => s) s

-- The life of a session.

/-- The session a reference names. -/
def sessionAt (s : State) : SessRef → Option Session
  | .eth sid => s.session? sid
  | .ring f r => (s.ring f r).session
  | .mgmt _ => none

def setSessionAt (x : SessRef) (k : Session) (s : State) : State :=
  match x with
  | .eth sid => s.setSession sid k
  | .ring f r => s.setRing f r { s.ring f r with session := some k }
  | .mgmt _ => s

/-- A session ceases; a ring pair then waits for a new HELLO. -/
def endSession (x : SessRef) (s : State) : State :=
  match x with
  | .eth sid => closeSession sid s
  | .ring f r =>
    let k := s.ring f r
    s.setRing f r { k with session := none, state := if k.state = .open ∨ k.state = .handshake then .openNoKey else k.state }
  | .mgmt _ => s

/-- Act on a session where a condition on it holds. -/
def whenSession (x : SessRef) (c : Session → Bool) (go : Session → State → State) (s : State) : State :=
  match sessionAt s x with
  | some k => if c k then go k s else s
  | none => s

/-- Lifetime of a session, ns. -/
def lifetime (s : State) : Nat := s.cfg 0x1028 1 * 1000000000

def confirmTimeout (x : SessRef) (s : State) : State :=
  (whenSession x (fun k => k.state = .handshake && !k.helloReply.isEmpty && decide (k.opened + 1000000000 ≤ s.time))
    (fun _ s => endSession x s) s)

def execReassemblyTimeout (sid : Nat) (s : State) : Res :=
  .next (whenSession (.eth sid) (fun k => match k.reasm with | some (_, _, _, t0, _) => decide (t0 + 1000000 ≤ s.time) | none => false)
    (fun k s => dropPartial k.port sid s) s)

def sessionIdleTimeout (x : SessRef) (s : State) : State :=
  (whenSession x (fun k => k.state = .open && decide (k.lastRx + s.cfg 0x1028 2 * 1000000000 ≤ s.time))
    (fun _ s => endSession x s) s)

def rekeyDue (x : SessRef) (s : State) : State :=
  (whenSession x (fun k => k.state = .open && decide (k.opened + lifetime s ≤ s.time + 60000000000))
    (fun k s => setSessionAt x { k with rekeyDue := true } s) s)

/-- The lifetime has ended: after its time, or after 2^32 frames in either direction (R63). -/
def lifeOver (s : State) (k : Session) : Bool :=
  decide (k.opened + lifetime s ≤ s.time) || decide (2 ^ 32 ≤ k.rxFrames) || decide (2 ^ 32 ≤ k.txSeq)

/-- At the end of its lifetime a session gets CLOSE 0x0110 and accepts no further frame; a ring has no descriptor to
carry the CLOSE. -/
def sessionLifetimeEnd (x : SessRef) (s : State) : State :=
  (whenSession x (fun k => k.state = .open && lifeOver s k)
    (fun _ s =>
      let s := match x with
        | .eth sid => ethSend sid 0x20 (leBytes 2 0x0110 ++ zeros 6) s
        | _ => s
      match sessionAt s x with
      | some k => setSessionAt x { k with state := .ended, endedAt := s.time } s
      | none => s) s)

def sessionGraceEnd (x : SessRef) (s : State) : State :=
  (whenSession x (fun k => k.state = .ended && decide (k.endedAt + 1000000000 ≤ s.time)) (fun _ s => endSession x s) s)

-- Responses.

/-- HELLO_REPLY goes out; a handshake whose signing key is unusable is answered with its key status. -/
def respondHandshake (q : Request) (s : State) : State :=
  match q.via with
  | .internal false port sid =>
    (match s.session? sid with
     | none => s
     | some k =>
       match helloReply sid k s with
       | (.error st, s) => sendReset k.port k.peerIp k.peerUdp 0 st (closeSession sid s)
       | (.ok k, s) =>
         emit (.frame port sid 2 0 false (frameHeader 2 0 sid 0 240 ++ k.helloReply)) (s.setSession sid k))
  | .internal true f r =>
    let g := s.ring f r
    (match g.session with
     | none => s
     | some k =>
       match helloReply (f * 256 + r) k s with
       | (.error st, s) =>
         ringFrame f r q.tag q.rspAddr q.rspCap (frameHeader 0x22 0 0 0 8 ++ leBytes 4 0 ++ leBytes 2 st ++ zeros 2) false
           (s.setRing f r { g with session := none, state := .openNoKey })
       | (.ok k, s) =>
         ringFrame f r q.tag q.rspAddr q.rspCap (frameHeader 2 0 (f * 256 + r) 0 240 ++ k.helloReply) false
           (s.setRing f r { g with session := some k, state := .handshake }))
  | _ => s

/-- RESPOND (R35): a running request whose program has written its response. -/
def execRespond (r cycles : Nat) (s : State) : Res :=
  match s.req? r with
  | none => .next s
  | some q =>
    .next (match q.via with
      | .internal _ _ _ => if isRunning q.stage then releaseReq r (respondHandshake q s) else s
      | _ =>
        if isRunning q.stage && q.ready then
          answer r q.status q.detail q.response (s.setReq r { q with cycles := cycles })
        else s)

end Sys2Proof.Machine
end

