-- ==== Sys2Proof/Machine/Net.lean ====
section
/-! DEFINITION. The Ethernet ports (02, R65, R67, R85): the IP and UDP subset, answers to ARP, neighbour
solicitations and echo requests, and responses held while a link is down. -/

namespace Sys2Proof.Machine

/-- Big-endian field of `n` bytes at an offset. -/
def beAt (b : Bytes) (off n : Nat) : Nat := beNat (padTo n (slice b off n))

/-- Sum of the big-endian 16-bit words of a string, an odd last byte as a high byte. -/
def wordSum : Bytes → Nat
  | [] => 0
  | [a] => 256 * a.toNat
  | a :: b :: t => 256 * a.toNat + b.toNat + wordSum t

/-- Fold carries of a ones' complement sum into 16 bits. -/
def onesFold (v : Nat) : Nat :=
  let f (v : Nat) : Nat := v % 65536 + v / 65536
  f (f (f v))

/-- Is an Internet checksum over these bytes good? -/
def sumGood (b : Bytes) (pseudo : Nat) : Bool := onesFold (wordSum b + pseudo) = 0xFFFF

/-- An IP address as the model numbers it: IPv6 addresses lie above 2^128. -/
def ip6 (b : Bytes) : Nat := 2 ^ 128 + beNat b

/-- The part's own addresses on a port; none when the entry disables them. -/
def ownIp4 (s : State) (p : Nat) : Option Nat := let a := s.cfg (0x1020 + p) 1; if a = 0 then none else some a
def ownIp6 (s : State) (p : Nat) : Option Nat :=
  let b := s.octets (0x1020 + p) 2
  if allZero b then none else some (ip6 (padTo 16 b))

def isOwn (s : State) (p ip : Nat) : Bool := ownIp4 s p = some ip || ownIp6 s p = some ip

/-- A frame outside the supported subset is discarded and counted. -/
def outside (p : Nat) (s : State) : State := bump (0x9040 + p) 1 0 s

-- Answers.

def arpReply (port mac ip target : Nat) (s : State) : State :=
  if ownIp4 s port = some target then emit (.netReply port 0 (beBytes 6 mac ++ beBytes 4 ip ++ beBytes 4 target)) s else s

def neighbourReply (port mac ip target : Nat) (s : State) : State :=
  if ownIp6 s port = some target then
    emit (.netReply port 1 (beBytes 6 mac ++ beBytes 16 (ip % 2 ^ 128) ++ beBytes 16 (target % 2 ^ 128))) s
  else s

def echoReply (port mac ip target : Nat) (data : Bytes) (s : State) : State :=
  if isOwn s port target && s.cfgB (0x1020 + port) 7 then
    emit (.netReply port 2 (beBytes 6 mac ++ (if ip < 2 ^ 32 then beBytes 4 ip else beBytes 16 (ip % 2 ^ 128)) ++ data)) s
  else s

def execArpRequest (port mac ip target : Nat) (s : State) : Res := .next (arpReply port mac ip target s)
def execNeighbourSolicitation (port mac ip target : Nat) (s : State) : Res := .next (neighbourReply port mac ip target s)
def execIcmpEcho (port mac ip target : Nat) (data : Bytes) (s : State) : Res := .next (echoReply port mac ip target data s)

-- Frames.

/-- A UDP datagram: `pseudo` is the sum of its pseudo header without the length. -/
def udpIn (p : Peer) (v6 : Bool) (pseudo : Nat) (u : Bytes) (s : State) : State :=
  let len := beAt u 4 2
  let sum := beAt u 6 2
  let u := u.take len
  if u.length < 8 ∨ u.length ≠ len then outside p.port s
  else if (if sum = 0 then v6 else !sumGood u (pseudo + len)) then outside p.port s
  else if beAt u 2 2 ≠ s.cfg (0x1020 + p.port) 3 then outside p.port s
  else datagram { p with udp := beAt u 0 2 } (u.drop 8) s

/-- An IPv4 packet without options, not a fragment. -/
def ip4In (port mac : Nat) (b : Bytes) (s : State) : State :=
  let total := beAt b 2 2
  let src := beAt b 12 4
  let dst := beAt b 16 4
  let body := (b.take total).drop 20
  if b.length < 20 ∨ leAt b 0 1 ≠ 0x45 ∨ total < 20 ∨ b.length < total then outside port s
  else if !sumGood (b.take 20) 0 || beAt b 6 2 % 0x4000 != 0 || ownIp4 s port != some dst then outside port s
  else
    let proto := leAt b 9 1
    if proto = 17 then
      udpIn { port := port, mac := mac, ip := src, udp := 0, dscp := leAt b 1 1 / 4 } false (wordSum (slice b 12 8) + 17) body s
    else if proto = 1 ∧ leAt body 0 1 = 8 then echoReply port mac src dst (body.drop 4) s
    else outside port s

/-- An IPv6 packet without extension headers. -/
def ip6In (port mac : Nat) (b : Bytes) (s : State) : State :=
  let len := beAt b 4 2
  let src := ip6 (slice b 8 16)
  let dst := ip6 (slice b 24 16)
  let body := slice b 40 len
  if b.length < 40 ∨ leAt b 0 1 / 16 ≠ 6 ∨ body.length ≠ len then outside port s
  else
    let next := leAt b 6 1
    if next = 58 ∧ leAt body 0 1 = 135 then neighbourReply port mac src (ip6 (slice body 8 16)) s
    else if ownIp6 s port ≠ some dst then outside port s
    else if next = 17 then
      udpIn { port := port, mac := mac, ip := src, udp := 0, dscp := beAt b 0 2 / 64 % 64 } true (wordSum (slice b 8 32) + 17) body s
    else if next = 58 ∧ leAt body 0 1 = 128 then echoReply port mac src dst (body.drop 4) s
    else outside port s

/-- What an Ethernet II frame carries, after its VLAN tag: EtherType and payload; none for a tag that is not the
port's. -/
def untag (s : State) (port : Nat) (b : Bytes) : Option (Nat × Bytes) :=
  let vlan := s.cfg (0x1020 + port) 5
  if beAt b 12 2 = 0x8100 then (if beAt b 14 2 % 4096 = vlan then some (beAt b 16 2, b.drop 18) else none)
  else if vlan = 0 then some (beAt b 12 2, b.drop 14) else none

/-- Ethernet frame check failures are a fault source whose lasting fault retrains the link (18, R585). -/
def fcsFailure (port : Nat) (s : State) : State :=
  let (s, lasting) := countFault 0x0C port 0 s
  if lasting then s.setPort port { s.port port with up := false, mgmtUp := false } else s

def execEthFrameReceive (port : Nat) (fcsOk : Bool) (frame : Bytes) (s : State) : Res :=
  .next (
    if 4 ≤ port ∨ (s.port port).up = false then s
    else if !fcsOk then fcsFailure port s
    else
      let mac := beAt frame 6 6
      match untag s port frame with
      | none => outside port s
      | some (et, b) =>
        if frame.length < 14 then outside port s
        else if et = 0x0800 then ip4In port mac b s
        else if et = 0x86DD then ip6In port mac b s
        else if et = 0x0806 ∧ beAt b 6 2 = 1 then arpReply port mac (beAt b 14 4) (beAt b 24 4) s
        else outside port s)

-- Links (R85).

def execEthLinkDown (p : Nat) (s : State) : Res :=
  .next (if 4 ≤ p ∨ !(s.port p).up then s
    else devEvent (0x8058 + p) 0 (s.setPort p { s.port p with up := false, mgmtUp := false, divergeSince := none }))

def execEthLinkUp (p : Nat) (s : State) : Res :=
  .next (if 4 ≤ p ∨ (s.port p).up ∨ (s.port p).disabled then s
    else
      let held := (s.port p).held
      let s := devEvent (0x8058 + p) 1 (s.setPort p { s.port p with up := true, mgmtUp := true, divergeSince := none, held := [] })
      held.foldl (fun s h => if (s.session? h.sid).isSome then ethMessage h.sid h.msg s else bump (0x9040 + p) 7 0 s) s)

def execLinkDownHoldExpiry (p : Nat) (s : State) : Res :=
  let k := s.port p
  let expired (h : HeldRsp) : Bool := decide (h.since + s.cfg (0x1020 + p) 6 * 1000 ≤ s.time)
  .next (if 4 ≤ p then s
    else bumpBy (0x9040 + p) 8 0 (k.held.filter expired).length (s.setPort p { k with held := k.held.filter (fun h => !expired h) }))

end Sys2Proof.Machine
end

