-- ==== Sys2Proof/Machine/Alarms.lean ====
section
/-! DEFINITION. The alarm machine (15, R483 to R497): reports, decision windows, held responses, the
Armature, the external tamper inputs, and the sampling of the battery domain (R498 to R501). -/

namespace Sys2Proof.Machine

-- Reports.

/-- A detector's report: a sensor source at L4 erases the master key register at once (R491). -/
def sensorReport (a : Nat) (sdata : Bytes) (oneShot : Bool) (s : State) : State :=
  alarmReport a (alarmLevel s a) sdata oneShot (sensorErase a s)

/-- What the invalid register of a hardened machine does before its machine takes a step (R489): the alarm machine
drives the clear-keys lines, a Plinth link machine retrains. -/
def invalidState (a : Nat) (s : State) : State :=
  if a = 0x14 then respondL3 false s
  else if a = 0x15 ∧ s.plink.state = .up then startRetrain s
  else s

/-- ALARM_REPORT: alarms 0x23 and 0x24 have their own sources. -/
def execAlarmReport (a : Nat) (sdata : Bytes) (s : State) : Res :=
  .next (if 0x22 < a ∨ !watching s then s else sensorReport a sdata false (invalidState a s))

/-- Is the alarm in the open decision window? -/
def inWindow (s : State) (a : Nat) : Bool := match s.window with
  | some w => w.reports.any (fun r => r.alarm = a)
  | none => false

/-- A detector no longer reports: HELD at once, or at the end of the decision window that holds its raise. -/
def deassert (a : Nat) (s : State) : State :=
  let k := s.alarm a
  if k.state != .active then s
  else if inWindow s a then s.setAlarm a { k with oneShot := true }
  else leaveActive a s

def execAlarmDeassert (a : Nat) (s : State) : Res := .next (deassert a s)

-- Groups (R493).

/-- Insert a report in ascending order of alarm number, after its equals. -/
def insertReport (r : WinReport) : List WinReport → List WinReport
  | [] => [r]
  | x :: t => if r.alarm < x.alarm then r :: x :: t else x :: insertReport r t

def sortReports (l : List WinReport) : List WinReport := l.foldl (fun acc r => insertReport r acc) []

/-- The raise entries of a group, with one TIME, in ascending order of alarm number. -/
def raiseEntries (reports : List WinReport) (time exec : Nat) (s : State) : State :=
  let n := reports.length
  (List.zip reports (List.range n)).foldl (fun s e =>
    logPush (raiseEntry e.1.alarm e.1.level n e.2 time e.1.sdata exec (if e.1.level = 4 then (s.alarm e.1.alarm).erase else 0)) s) s

/-- DECISION_WINDOW_CLOSE. -/
def closeWindow (s : State) : State :=
  match s.window with
  | none => s
  | some w =>
    let reports := sortReports w.reports
    let union := reports.foldl (fun m r => Nat.max m r.level) 0
    let s := { s with window := none }
    let s := respond w.before (Nat.max w.before union) w.openedAt reports s
    let s := raiseEntries reports w.openedAt union s
    reports.foldl (fun s r => if (s.alarm r.alarm).oneShot && (s.alarm r.alarm).state = .active then leaveActive r.alarm s else s) s

def execDecisionWindowClose (s : State) : Res := .next (closeWindow s)

/-- ERASE_READBACK (R492): the outcome goes into the raise entries of the alarms at L4. -/
def execEraseReadback (zero : Bool) (s : State) : Res :=
  let o := if zero then 1 else 2
  let hit (a : Nat) : Bool := (s.alarm a).state != .clear && decide ((s.alarm a).raised = 4) && (s.alarm a).erase != 2
  .next { s with
    alarms := s.alarms.map (fun e => if hit e.1 then (e.1, { e.2 with erase := o }) else e)
    batt := { s.batt with eraseBad := s.batt.eraseBad || !zero }
    pat := { s.pat with queue := s.pat.queue.map (fun e =>
      if e.source / 256 = 1 && e.code = 1 && e.level = 4 then { e with data := setAt e.data 17 (BitVec.ofNat 8 o) } else e) } }

-- Ending a response (R495).

def execHoldTimeExpiry (a : Nat) (s : State) : Res :=
  let k := s.alarm a
  .next (
    if k.state = .held && !alarmLatched s a && decide (k.raised < 4) && decide (k.leftAt + s.cfg 0x7003 1 * 1000000000 ≤ s.time)
    then endAlarm a 0 0xFFFFFFFF s else s)

/-- May a write end the response of this alarm? -/
def endable (s : State) (a : Nat) : Bool :=
  (s.alarm a).state = .held && alarmLatched s a && decide ((s.alarm a).raised ≤ 2) && !inWindow s a

/-- A write to OD 0x7002.01 by the principal in a slot. -/
def endResponseWrite (v slot : Nat) (s : State) : Except Nat State :=
  if v = 0xFF then
    .ok (((List.range 0x25).filter (endable s)).foldl (fun s a => endAlarm a 1 slot s) s)
  else if 0x24 < v then .error 0x06
  else if (s.alarm v).state = .active || decide (2 < (s.alarm v).raised) || inWindow s v then .error 0x10
  else if endable s v then .ok (endAlarm v 1 slot s)
  else .ok s

-- The Armature (R485, R486).

/-- Groups' last resistance and capacitance in SDATA. -/
def armSdata (g net : Nat) (s : State) : Bytes :=
  leBytes 1 g ++ leBytes 1 net ++ leBytes 4 (tget 0 s.arm.lastR g) ++ leBytes 4 (tget 0 s.arm.lastC g)

/-- ARMATURE_PATTERN_PERIOD: the nets that mismatched in this period. -/
def execArmaturePatternPeriod (nets : List Nat) (s : State) : Res :=
  let keys := (List.range 256).filter (fun n => nets.contains n || (tfind s.arm.hist n).isSome)
  let hist : Tab (List Bool) := (keys.map (fun n => (n, (nets.contains n :: tget [] s.arm.hist n).take 4))).filter
    (fun e => e.2.any (fun b => b))
  let s := { s with arm := { s.arm with hist := hist } }
  let twice (n : Nat) : Bool := decide (2 ≤ ((tget [] hist n).filter (fun b => b)).length)
  .next (
    match (List.range 256).find? (fun n => nets.contains n && twice n) with
    | some n => sensorReport 0 (armSdata (n / 8) n s) false s
    | none =>
      match (List.range 256).find? (fun n => nets.contains n) with
      | none => s
      | some n =>
        let (s, lasting) := countFault 0x0E 0 0 (bump 0x9070 3 0 s)
        if lasting then sensorReport 0 (armSdata (n / 8) n s) true s else s)

/-- ARMATURE_RC_MEASURE: group, resistance in mΩ and capacitance in fF, corrected for die temperature. A group that
was never trained has no baseline to deviate from. -/
def execArmatureRcMeasure (g r c : Nat) (s : State) : Res :=
  let off (v base pct : Nat) : Bool := base != 0 && (decide (base * (100 + pct) < v * 100) || decide (v * 100 < base * (100 - pct)))
  let dev := off r (tget 0 s.arm.baseR g) 10 || off c (tget 0 s.arm.baseC g) 15
  let before := tget false s.arm.deviated g
  let s := { s with arm := { s.arm with
    lastR := tset 0 s.arm.lastR g (r % 2 ^ 32), lastC := tset 0 s.arm.lastC g (c % 2 ^ 32), deviated := tset false s.arm.deviated g dev } }
  .next (if dev && before && decide (g < 32) then sensorReport 1 (armSdata g (freeNat 256 s) s) false (useFree s) else s)

/-- DETECTOR_SELF_TEST (R484): the tested detector's report of its stimulus raises nothing; its silence raises 0x1D. -/
def execDetectorSelfTest (a : Nat) (reported : Bool) (s : State) : Res :=
  .next (
    if reported then
      let was := !s.arm.failed.isEmpty
      let s := { s with arm := { s.arm with failed := s.arm.failed.filter (fun x => x != a) } }
      if was && s.arm.failed.isEmpty then deassert 0x1D s else s
    else
      raiseAlarm 0x1D (leBytes 1 a)
        { s with arm := { s.arm with failed := if s.arm.failed.contains a then s.arm.failed else s.arm.failed ++ [a] } })

-- External tamper inputs (R488, R625).

/-- Does a level reading, in mV, raise in a mode (Table 15-3)? -/
def tampLevel (mode mv : Nat) : Bool :=
  match mode with
  | 1 => decide (800 < mv)
  | 2 => decide (mv < 400)
  | 3 => decide (mv < 5) || decide (1100 < mv)
  | _ => false

/-- Does a loop resistance, in Ω, raise in a mode? -/
def tampWindow (mode trained ohms : Nat) : Bool :=
  match mode with
  | 1 => decide (10000 < ohms)
  | 2 => decide (ohms < 100000)
  | 3 => decide (trained * 125 < ohms * 100) || decide (ohms * 100 < trained * 75)
  | _ => false

def tampMode (s : State) (n : Nat) : Nat := s.cfg 0x7008 (n + 1)

/-- TAMP_IN_SAMPLE under main power: a level reading through the filter, or a resistance measurement. -/
def execTampInSample (n : Nat) (window : Bool) (v : Nat) (s : State) : Res :=
  .next (
    if 4 ≤ n ∨ !watching s then s
    else if window then
      let s := { s with arm := { s.arm with tampR := tset 0 s.arm.tampR n (v % 2 ^ 32) } }
      if tampWindow (tampMode s n) (tget 0 s.arm.trained n) v then sensorReport (0x0E + n) (leBytes 4 v) false s else s
    else if tampLevel (tampMode s n) v then
      let since := (tfind s.arm.tampSince n).getD s.time
      let s := { s with arm := { s.arm with tampSince := tput s.arm.tampSince n since } }
      if since + s.cfg 0x7009 (n + 1) * 1000 ≤ s.time then
        sensorReport (0x0A + n) (leBytes 4 (tget 0 s.arm.tampR n)) false s
      else s
    else { s with arm := { s.arm with tampSince := tdel s.arm.tampSince n } })

-- The battery domain (R498 to R501).

/-- Sources that a sample on the backup cell can report. -/
def sampled (s : State) (a : Nat) : Bool :=
  a = 0 || a = 1 || a = 6 || a = 7 || a = 8 || a = 9 || a = 0x14 || a = 0x1E || a = 0x1F || a = 0x20 ||
  (0x0A ≤ a && a ≤ 0x11 && tampMode s ((a - 0x0A) % 4) != 0)

/-- Level and armed flag of an alarm by the battery domain's copies of the configuration (R497). -/
def battLevel (s : State) (a : Nat) : Nat := (tfind s.batt.levels a).getD (alarmDefault a).1
def battArmed (s : State) (a : Nat) : Bool :=
  match tfind s.batt.flags a with
  | some f => bit f 1 || (alarmDefault a).2.2.2 = 2
  | none => (alarmDefault a).2.2.2 != 0

/-- An armed alarm of L2 or above erases the master key register without main power (R499). -/
def armedErases (s : State) (a : Nat) : Bool := battArmed s a && decide (2 ≤ battLevel s a)

/-- The battery domain keeps an entry that it forms, or counts it as lost. -/
def battEntry (e : Entry) (s : State) : State :=
  if s.batt.entries.length + s.pat.buffer.length < 64 then
    { s with
      batt := { s.batt with entries := s.batt.entries ++ [{ e with seq := s.pat.headSeq + 1, eflags := e.eflags ||| 1 }] }
      pat := { s.pat with headSeq := s.pat.headSeq + 1 } }
  else
    let a := e.source % 256
    { s with batt := { s.batt with lost := sat32 (s.batt.lost + 1),
                                   lostMask := s.batt.lostMask ||| 2 ^ (a % 64) } }

/-- Record the real-time count of a sample. -/
def battRtc (rtc : Nat) (s : State) : State := { s with batt := { s.batt with rtc := rtc, rtcAt := s.time } }

/-- An onset latch records the count of a sample. -/
def battOnset (a rtc : Nat) (s : State) : State :=
  if (tfind s.batt.onset a).isSome then s else { s with batt := { s.batt with onset := tput s.batt.onset a rtc } }

/-- UNPOWERED_SAMPLE: the real-time count, the readback after an erase, and the alarms that report with their SDATA. -/
def execUnpoweredSample (rtc : Nat) (zero : Bool) (reports : List (Nat × Bytes)) (s : State) : Res :=
  .next (
    if watching s then s
    else
      let reps := (List.range 0x25).filterMap (fun a => if sampled s a then reports.find? (fun e => e.1 = a) else none)
      let now := rtcTicks rtc
      let s := battRtc rtc s
      let s := reps.foldl (fun s e => battOnset e.1 rtc s) s
      let erases := reps.any (fun e => armedErases s e.1 || e.1 = 0x1F)
      let s := if erases then
          let s := eraseMaster s
          { s with batt := { s.batt with erased := true, eraseBad := s.batt.eraseBad || !zero } }
        else s
      if reps.any (fun e => e.1 = 0x1F) then { s with batt := { s.batt with valid := false } }
      else
        let fresh := reps.filter (fun e => (s.alarm e.1).state = .clear)
        let n := fresh.length
        let erased (a : Nat) : Nat := if armedErases s a then (if zero then 1 else 2) else 0
        let exec := if erases then 4 else 0
        let s := (List.zip fresh (List.range n)).foldl (fun s e =>
          let a := e.1.1
          let l := battLevel s a
          let s := battEntry (raiseEntry a l n e.2 now e.1.2 exec (erased a)) s
          s.setAlarm a { s.alarm a with state := .active, raised := l, activeSince := now, oneShot := false, erase := erased a }) s
        let s := reps.foldl (fun s e => s.setAlarm e.1 { s.alarm e.1 with
          state := .active, activeSince := if (s.alarm e.1).state = .active then (s.alarm e.1).activeSince else now }) s
        let gone := s.batt.reporting.filter (fun a => !reps.any (fun e => e.1 = a))
        let s := gone.foldl (fun s a =>
          let k := s.alarm a
          if k.state != .active then s
          else
            let e : Entry := { time := now, source := 0x0100 + a, code := 2, data := padTo 24 (leBytes 8 (now - k.activeSince)) }
            (battEntry e s).setAlarm a { k with state := .held, leftAt := now }) s
        { s with batt := { s.batt with reporting := reps.map (fun e => e.1) } })

end Sys2Proof.Machine
end

