-- ==== Sys2Proof/Machine/Flash.lean ====
section
/-! DEFINITION. The flash array of the Plinth die (chapter 16, R517 to R531): its areas and block map, the
controller's registers and commands, reads of units, and wear. -/

namespace Sys2Proof.Machine

def State.modFlash (s : State) (f : Flash → Flash) : State := { s with flash := f s.flash }

def Flash.block (f : Flash) (b : Nat) : FlashBlock := tget {} f.blocks b
def Flash.setBlock (f : Flash) (b : Nat) (k : FlashBlock) : Flash := { f with blocks := tset {} f.blocks b k }
def Flash.modBlock (f : Flash) (b : Nat) (g : FlashBlock → FlashBlock) : Flash := f.setBlock b (g (f.block b))

/-- Contents of a page; an unlisted page is erased. -/
def Flash.page (f : Flash) (p : Nat) : Bytes := tget (List.replicate 256 0xFF) f.pages p

/-- THRESH of FL_CFG. -/
def Flash.thresh (f : Flash) : Nat := bits f.cfg 20 16

-- Areas and the block map (R518).

/-- Table 16-1: first logical block, blocks, minimum of each area but the spare one. -/
def flashAreas : List (Nat × Nat × Nat) :=
  [(0, 4, 3), (4, 4, 2), (8, 24, 16), (32, 24, 22), (56, 24, 22), (80, 36, 32), (116, 48, 40), (164, 64, 60), (228, 2, 2)]

/-- Number of an area, in the order of Table 16-1; 9 is the spare area. -/
def areaOf (l : Nat) : Nat := (flashAreas.findIdx? (fun a => decide (a.1 ≤ l ∧ l < a.1 + a.2.1))).getD 9

/-- Physical block of a logical one; 256 where none is left. -/
def Flash.phys (f : Flash) (l : Nat) : Nat := tget l f.map l

/-- Logical block that a physical one serves. -/
def Flash.logical (f : Flash) (b : Nat) : Option Nat := (List.range 230).find? (fun l => f.phys l = b)

/-- Blocks that an area still has. -/
def Flash.areaBlocks (f : Flash) (a : Nat) : Nat :=
  match flashAreas[a]? with
  | some (first, n, _) => ((List.range n).filter (fun i => f.phys (first + i) < 256)).length
  | none => f.spares.length

/-- Patina entry of the flash: block retired, or area below its minimum (Table 16-14). -/
def retireEntry (l b symptom : Nat) (s : State) : State := logEntry 0x0A00 1 (leBytes 2 l ++ leBytes 1 b ++ leBytes 1 symptom) s

/-- Retire a physical block for a symptom (R518, R530): the next spare takes its place, or its area goes on with
fewer blocks. -/
def retireBlock (b symptom : Nat) (s : State) : State :=
  match s.flash.logical b with
  | none => s
  | some l =>
    let s := s.modFlash (fun f => { f.modBlock b (fun k => { k with state := 2 }) with retired := f.retired + 1 })
    let s := retireEntry l b symptom s
    match s.flash.spares with
    | x :: t => s.modFlash (fun f => { f with map := tput f.map l x, spares := t })
    | [] =>
      let s := s.modFlash (fun f => { f with map := tput f.map l 256 })
      match flashAreas[areaOf l]? with
      | some (first, _, least) =>
        if s.flash.areaBlocks (areaOf l) + 1 = least then logEntry 0x0A00 2 (leBytes 2 first) (raiseOther 1 s) else s
      | none => s

/-- Ring areas, whose worn blocks are left to be recycled: anchors, configuration store, Patina. -/
def ringArea (a : Nat) : Bool := a = 1 || a = 2 || a = 7

/-- Stage 2 of Table 16-7: no further PROGRAM to the block. -/
def closeBlock (b : Nat) (s : State) : State := s.modFlash (fun f => f.modBlock b (fun k => { k with closed := true }))

-- Wait states (R525).

/-- Wait states that the clock and rail in force need: ceil(access time × frequency) − 1. -/
def wsNeeded (s : State) : Nat :=
  let ns := if 780 ≤ tget 800 s.health.railNow 5 then 18 else 24
  (ns * s.flash.mhz + 999) / 1000 - 1

-- Reads (R522, R528).

def setRstat (st unit count : Nat) (s : State) : State :=
  s.modFlash (fun f => { f with rstatus := st, runit := unit, count := count })

/-- A read of a unit: its data, whether it is uncorrectable, and the effects. With too few wait states, data and
FL_RSTAT are free values; of a suspended block, the data is. -/
def unitRead (u : Nat) (s : State) : Bytes × Bool × State :=
  let f := s.flash
  let b := u / 2048
  if f.cfg % 16 < wsNeeded s then
    (freeBytes 64 s, false,
      setRstat (freeNat 4 (useFree s)) (freeNat (2 ^ 19) (useFree (useFree s))) (freeNat 64 (useFree (useFree (useFree s))))
        (useFree (useFree (useFree (useFree s)))))
  else if f.suspended ∧ f.sblock = b then (freeBytes 64 s, false, setRstat 3 u 63 (useFree s))
  else
    let count := tget 0 f.units u
    if count = 60 then (freeBytes 64 s, true, bump 0x9071 2 0 (setRstat 2 u 60 (useFree s)))
    else
      let data := if (f.block b).unspecified then freeBytes 64 s else slice (f.page (u / 4)) (u % 4 * 64) 64
      let s := if (f.block b).unspecified then useFree s else s
      let s := s.modFlash (fun f => f.modBlock b (fun k => { k with worst := Nat.max k.worst count }))
      if f.thresh < count then
        let s := s.modFlash (fun f => { f.modBlock b (fun k => { k with state := Nat.max 1 k.state }) with
          warns := sat32 (f.warns + 1), warnEvent := true })
        let s := if 16 ≤ count then closeBlock b s else s
        (data, false, bump 0x9071 1 0 (setRstat 1 u count s))
      else (data, false, setRstat 0 u count s)

-- Commands (Table 16-5).

/-- PROGRAM 1, ERASE 2, BLANK_CHECK 5: why the command is refused, in the order of the model (log 30). -/
def flashRefusal (op : Nat) (s : State) : Option Nat :=
  let f := s.flash
  let b := f.addr / 0x20000
  let changes := op = 1 || op = 2
  firstFail ([(f.busy, 0x01), (op = 2 && f.suspended && f.sblock != b, 0x01),
    ((op = 1 && f.addr % 256 != 0) || (op = 2 && f.addr % 0x20000 != 0), 0x06), (f.suspended && f.sblock = b, 0x03),
    (changes && (f.block b).locked, 0x08), (op = 1 && decide (f.addr / 256 % 512 < (f.block b).nextPage), 0x02),
    (changes && decide (tget 800 s.health.railNow 5 < 720), 0x09)] : List (Bool × Nat))

/-- Start a command, or refuse it with its RESULT. -/
def flashStart (op : Nat) (s : State) : State :=
  match flashRefusal op s with
  | some r => s.modFlash (fun f => { f with lastCmd := op, result := r })
  | none =>
    s.modFlash (fun f =>
      let b := f.addr / 0x20000
      let f := if op = 1 then f.modBlock b (fun k => { k with nextPage := f.addr / 256 % 512 + 1 }) else f
      { f with
        busy := true, lastCmd := op, runSince := s.time
        running := some (op, if op = 2 then b else f.addr / 256,
          if op = 1 then (List.range 256).map (fun i => tget 0 f.pbuf i) else []) })

def flashSuspend (s : State) : State :=
  match s.flash.running with
  | some (2, b, _) =>
    bump 0x9071 3 0 (s.modFlash (fun f => { f with busy := false, suspended := true, sblock := b, running := none, lastCmd := 3, result := 0 }))
  | _ => s.modFlash (fun f => { f with lastCmd := 3, result := if f.busy then 0x01 else 0x07 })

def flashResume (s : State) : State :=
  s.modFlash (fun f =>
    if f.busy then { f with lastCmd := 4, result := 0x01 }
    else if f.suspended then
      { f with busy := true, suspended := false, running := some (2, f.sblock, []), runSince := s.time, lastCmd := 4, result := 0 }
    else { f with lastCmd := 4, result := 0x07 })

/-- A write of FL_CMD starts the command of its opcode; an opcode that Table 16-5 does not list starts nothing. -/
def flashCommand (op : Nat) (s : State) : State :=
  match op with
  | 1 | 2 | 5 => flashStart op s
  | 3 => flashSuspend s
  | 4 => flashResume s
  | _ => s

/-- Erase a block of its pages. -/
def Flash.clearBlock (f : Flash) (b : Nat) : Flash :=
  { f.modBlock b (fun k => { k with erases := k.erases + 1, nextPage := 0, unspecified := false }) with
    pages := f.pages.filter (fun e => e.1 / 512 != b), units := f.units.filter (fun e => e.1 / 2048 != b) }

/-- Place a page's bytes. -/
def Flash.putPage (f : Flash) (p : Nat) (data : Bytes) : Flash :=
  { f.modBlock (p / 512) (fun k => { k with nextPage := Nat.max k.nextPage (p % 512 + 1) }) with pages := tput f.pages p data }

/-- Is a page erased? -/
def Flash.blank (f : Flash) (p : Nat) : Bool :=
  (tfind f.pages p).isNone && !(f.block (p / 512)).unspecified && (List.range 4).all (fun i => tget 0 f.units (p * 4 + i) = 0)

/-- The running command ends: `ok`, its verify passed; its time in µs for PROGRAM, in 10 µs units for ERASE. -/
def flashComplete (ok : Bool) (time : Nat) (s : State) : State :=
  let idle (f : Flash) (r : Nat) : Flash := { f with busy := false, running := none, result := r }
  match s.flash.running with
  | some (1, p, data) =>
    let s := s.modFlash (fun f =>
      { (idle f (if ok then 0 else 0x04)).putPage p (if ok then data else freeBytes 256 s) with tProgram := time % 65536 })
    let s := if ok then s else useFree s
    let s := s.modFlash (fun f => f.modBlock (p / 512) (fun k => { k with longProgram := Nat.max k.longProgram (time % 65536) }))
    if !ok || 200 < time % 65536 then closeBlock (p / 512) s else s
  | some (2, b, _) =>
    let s := s.modFlash (fun f =>
      { (if ok then f.clearBlock b else f.modBlock b (fun k => { k with erases := k.erases + 1, unspecified := true })) with
        tErase := time % 65536 })
    let s := s.modFlash (fun f => (idle f (if ok then 0 else 0x05)).modBlock b (fun k => { k with
      longErase := Nat.max k.longErase (time % 65536) }))
    if !ok || 1200 < time % 65536 then retireBlock b 3 s
    else if (s.flash.block b).closed then retireBlock b 2 s else s
  | some (5, p, _) => s.modFlash (fun f => idle f (if f.blank p then 0 else 0x0A))
  | _ => s

-- Registers (Table 16-2).

/-- FL_STATUS. -/
def flStatus (f : Flash) : Nat :=
  b2n f.busy * 2 ^ 31 + b2n f.suspended * 2 ^ 30 + (if f.suspended then f.sblock else 0) * 2 ^ 22 + f.lastCmd * 256 + f.result

/-- FL_RSTAT. -/
def flRstat (f : Flash) : Nat := f.rstatus * 2 ^ 30 + f.runit * 64 + f.count

/-- Value of the 32-bit register at an offset; FL_CMD reads zero. -/
def flReg (f : Flash) (o : Nat) : Nat :=
  match o with
  | 0x000 => f.cfg
  | 0x008 => f.addr
  | 0x00C => flStatus f
  | 0x010 => flRstat f
  | 0x014 => f.tErase * 65536 + f.tProgram
  | 0x018 => f.warns
  | _ => 0

/-- A read of the registers, of the bytes at an offset. -/
def flRead (o size : Nat) (s : State) : Nat :=
  if 0x100 ≤ o then leNat ((List.range size).map (fun i => tget 0 s.flash.pbuf (o - 0x100 + i)))
  else leNat ((List.range size).map (fun i => BitVec.ofNat 8 (flReg s.flash ((o + i) / 4 * 4) / 2 ^ (8 * ((o + i) % 4)))))

/-- FL_PBUF bytes from an offset. -/
def pbufPut (o : Nat) (b : Bytes) (f : Flash) : Flash :=
  { f with pbuf := (List.range b.length).foldl (fun t i => tset 0 t (o + i) (b.getD i 0)) f.pbuf }

/-- A write of the registers; reserved bits stay zero. -/
def flWrite (o size v : Nat) (s : State) : State :=
  match o with
  | 0x000 => s.modFlash (fun f => { f with cfg := v % 16 + bits v 20 16 * 65536 })
  | 0x004 => flashCommand (v % 256) s
  | 0x008 => s.modFlash (fun f => { f with addr := v % 2 ^ 25 })
  | _ => if 0x100 ≤ o then s.modFlash (pbufPut (o - 0x100) (leBytes size v)) else s

-- Commands of the table.

def execProgram (s : State) : Res := .next (flashStart 1 s)
def execErase (s : State) : Res := .next (flashStart 2 s)
def execSuspend (s : State) : Res := .next (flashSuspend s)
def execResume (s : State) : Res := .next (flashResume s)
def execBlankCheck (s : State) : Res := .next (flashStart 5 s)
def execFlashCommandComplete (ok : Bool) (time : Nat) (s : State) : Res := .next (flashComplete ok time s)

/-- FLASH_UNIT_READ: the unit is read with the error count that its bits now have, more than 24 bit errors being
uncorrectable. -/
def execFlashUnitRead (unit count : Nat) (s : State) : Res :=
  let u := unit % 2 ^ 19
  let s := s.modFlash (fun f => { f with units := tset 0 f.units u (if 24 < count then 60 else count) })
  let r := unitRead u s
  .next (emit (.value (leNat r.1)) r.2.2)

/-- A worn block of a long-lived area: its data moves to a fresh block, and a block of stage 2 is retired (R529,
R530). -/
def scrubBlock (b : Nat) (s : State) : State :=
  match s.flash.logical b with
  | none => s
  | some l =>
    if ringArea (areaOf l) || (s.flash.block b).state = 0 && !(s.flash.block b).closed then s
    else
      match s.flash.spares with
      | [] => s
      | x :: t =>
        let moved := s.flash.pages.filter (fun e => e.1 / 512 = b)
        let s := s.modFlash (fun f =>
          let f := moved.foldl (fun f e => f.putPage (x * 512 + e.1 % 512) e.2) (f.clearBlock x)
          { f with map := tput f.map l x, spares := t })
        if (s.flash.block b).closed then
          retireEntry l b 2 (s.modFlash (fun f => { f.modBlock b (fun k => { k with state := 2 }) with retired := f.retired + 1 }))
        else s.modFlash (fun f => { f.clearBlock b with spares := f.spares ++ [b] })

/-- FLASH_SCRUB (R529): every programmed unit of the firmware banks, the model and program stores and the control
area is read, and blocks that hold a unit above THRESH are rewritten. -/
def execFlashScrub (s : State) : Res :=
  let areas := [0, 3, 4, 5, 6]
  let pages := (s.flash.pages.map (fun e => e.1)).filter (fun p => match s.flash.logical (p / 512) with
    | some l => areas.contains (areaOf l)
    | none => false)
  let s := pages.foldl (fun s p => (List.range 4).foldl (fun s i => (unitRead (p * 4 + i) s).2.2) s) s
  .next ((List.range 256).foldl (fun s b => scrubBlock b s) s)

end Sys2Proof.Machine
end

