-- ==== Sys2Proof/Machine/Patina.lean ====
section
/-! DEFINITION. The Patina log (15, R502 to R515): the LINK chain, the battery-backed buffer, log blocks in
flash, checkpoints and acknowledgements, recycling and verification. -/

namespace Sys2Proof.Machine

def State.modPat (s : State) (f : Patina → Patina) : State := { s with pat := f s.pat }

/-- ASCII bytes of a string. -/
def ascii (t : String) : Bytes := t.toList.map (fun c => BitVec.ofNat 8 c.toNat)

-- Entries and their chain (R502, R503).

/-- Bytes 0 to 47 of an entry. -/
def Entry.head (e : Entry) : Bytes :=
  leBytes 8 e.seq ++ leBytes 8 e.time ++ leBytes 2 e.source ++ leBytes 2 e.code ++ leBytes 1 e.level ++ leBytes 1 e.eflags ++
  leBytes 2 e.group ++ padTo 24 e.data

/-- The 64 bytes of an entry. -/
def Entry.bytes (e : Entry) : Bytes := e.head ++ padTo 16 e.link

def sha256 (b : Bytes) : Bytes := digest 1 b 0

/-- LINK(0) of a part. -/
def linkZero (s : State) : Bytes := padTo 16 (sha256 (ascii "AX9640 patina" ++ serialBytes s))

/-- LINK of an entry after the LINK before it. -/
def linkAfter (prev : Bytes) (e : Entry) : Bytes := padTo 16 (sha256 (prev ++ e.head))

/-- HEAD_LINK, or LINK(0) before the first entry. -/
def headLink (s : State) : Bytes := if s.pat.headLink.isEmpty then linkZero s else s.pat.headLink

def isCheckpoint (e : Entry) : Bool := e.source = 0 && e.code = 2

/-- Link an entry at the head: a CHECKPOINT names the one before it, and opens a new count. -/
def linkEntry (e : Entry) (s : State) : State :=
  let cp := isCheckpoint e
  let data := if cp then leBytes 8 s.pat.lastCp ++ (if s.pat.lastCp = 0 then linkZero s else s.pat.lastCpLink) else e.data
  let e := { e with seq := s.pat.headSeq + 1, data := data, entered := s.time }
  let e := { e with link := linkAfter (headLink s) e }
  s.modPat (fun p =>
    { p with
      headSeq := e.seq, headLink := e.link, buffer := p.buffer ++ [e]
      lastCp := if cp then e.seq else p.lastCp
      lastCpLink := if cp then e.link else p.lastCpLink
      lastCpTime := if cp then s.time else p.lastCpTime
      sinceCp := if cp then 0 else p.sinceCp + 1
      openCps := if cp then p.openCps ++ [e] else p.openCps })

/-- Write a CHECKPOINT entry, unless one already waits (R509). -/
def checkpoint (s : State) : State := if s.pat.queue.any isCheckpoint then s else logEntry 0 2 [] s

-- The buffer (R506).

/-- Free positions of the buffer. -/
def bufferFree (s : State) : Nat := 64 - s.pat.buffer.length - s.batt.entries.length

/-- No page is left to program (R514). -/
def logFull (s : State) : Bool :=
  decide (64 ≤ s.pat.blocks.length) && s.pat.blocks.all (fun b => b.closed)

/-- Take the first queued entry that passes a test. -/
def takeEntry (f : Entry → Bool) (s : State) : Option (Entry × State) :=
  match s.pat.queue.find? f with
  | some e => some (e, s.modPat (fun p => { p with queue := p.queue.erase e }))
  | none => none

/-- Move one entry: alarm raise and clear entries first. With only the last 8 positions free, an entry of the main
die is counted in place of being written; with none free and the log full, an alarm entry is lost. -/
def moveEntry (s : State) : State :=
  match takeEntry isAlarmEntry s with
  | some (e, s') =>
    if 0 < bufferFree s then linkEntry e s'
    else if logFull s then
      bump 0x9070 1 0 (s'.modPat (fun p => { p with lost := sat32 (p.lost + 1), lostMask := p.lostMask ||| 2 ^ (e.source % 64) }))
    else s
  | none =>
    if 8 < bufferFree s then
      match takeEntry (fun _ => true) s with
      | some (e, s') => linkEntry e s'
      | none => s
    else
      match takeEntry (fun e => !entryWaits e.source) s with
      | some (e, s') => suppress e s'
      | none => s

/-- SUPPRESSED and OVERFLOW entries once positions are free again. -/
def reportLosses (s : State) : State :=
  if bufferFree s ≤ 8 then s
  else
    let s := if s.pat.suppressed.isEmpty then s
      else logEntry 0 6 (((List.range 6).map (fun k => leBytes 4 (tget 0 s.pat.suppressed k))).flatten)
        (s.modPat (fun p => { p with suppressed := [] }))
    if s.pat.lost = 0 then s
    else logEntry 0 5 (leBytes 4 s.pat.lost ++ leBytes 8 s.pat.lostMask) (s.modPat (fun p => { p with lost := 0, lostMask := 0 }))

/-- The entries since the last checkpoint have reached their bound (R509). -/
def checkpointDue (s : State) : State := if s.cfg 0x7110 1 ≤ s.pat.sinceCp then checkpoint s else s

/-- PATINA_BUFFER_WRITE: 1 to 4 entries, counted up to `n`. -/
def execPatinaBufferWrite (n : Nat) (s : State) : Res :=
  .next (checkpointDue (reportLosses ((List.range (Nat.min 4 n)).foldl (fun s _ => moveEntry s) s)))

-- Log blocks in flash (R507, R508).

/-- The header of a block (Table 15-11). -/
def LogBlock.header (s : State) (b : LogBlock) : Bytes :=
  let h := [0x41, 0x58, 0x50, 0x42, 1, 0, 0, 0] ++ leBytes 4 b.openCount ++ leBytes 8 b.firstSeq ++ padTo 16 b.linkBefore ++
    serialBytes s ++ zeros 4
  h ++ (sha256 h).take 16

/-- Flash page of a page of a log block. -/
def logPage (s : State) (b : LogBlock) (page : Nat) : Nat := s.flash.phys (164 + b.pos) * 512 + page

/-- Free blocks of the ring. -/
def freeBlocks (s : State) : Nat := s.flash.areaBlocks 7 - s.pat.blocks.length

/-- The oldest block can be recycled: it is closed and every entry lies below the newest acknowledged checkpoint. -/
def recyclable (s : State) : Bool :=
  match s.pat.blocks with
  | b :: _ :: _ => b.entries.all (fun e => e.seq < s.pat.lastAck)
  | _ => false

/-- Raise 0x22 when 2 blocks are free and the oldest cannot be recycled (R514). -/
def nearlyFull (s : State) : State :=
  if freeBlocks s ≤ 2 && !recyclable s && (s.alarm 0x22).state != .active then raiseAlarm 0x22 [] s else s

/-- The next position of the ring that still has a physical block. -/
def nextPos (s : State) : Nat :=
  (((List.range 64).map (fun i => (s.pat.nextBlock + i) % 64)).find? (fun p =>
    s.flash.phys (164 + p) < 256 && !s.pat.blocks.any (fun b => b.pos = p))).getD s.pat.nextBlock

/-- Open the next block for entries from `first` on, where a block is free. -/
def openBlock (first : Nat) (s : State) : State :=
  if freeBlocks s = 0 then s
  else
    let pos := nextPos s
    let count := tget 0 s.pat.openCounts pos + 1
    let b : LogBlock := { pos := pos, openCount := count, firstSeq := first,
                          linkBefore := if s.pat.progLink.isEmpty then linkZero s else s.pat.progLink }
    let s := s.modPat (fun p => { p with
      blocks := p.blocks ++ [b], openCounts := tput p.openCounts pos count, nextBlock := (pos + 1) % 64 })
    nearlyFull (s.modFlash (fun f => f.putPage (f.phys (164 + pos) * 512) (b.header s ++ List.replicate 192 0xFF)))

/-- Replace the newest block. -/
def setLastBlock (b : LogBlock) (s : State) : State := s.modPat (fun p => { p with blocks := p.blocks.dropLast ++ [b] })

/-- The block open for programming. -/
def openLog (s : State) : Option LogBlock :=
  match s.pat.blocks.getLast? with
  | some b => if b.closed then none else some b
  | none => none

/-- Program the four oldest entries of the buffer as the next page; a page that fails its verify closes its block and
the entries wait for the next one. -/
def programPage (ok : Bool) (s : State) : State :=
  let es := s.pat.buffer.take 4
  match es with
  | [] => s
  | e :: _ =>
    let s := match openLog s with
      | some _ => s
      | none => openBlock e.seq s
    match openLog s with
    | none => s
    | some b =>
      let page := b.pages + 1
      if !ok then
        closeBlock (s.flash.phys (164 + b.pos)) (setLastBlock { b with closed := true } s)
      else
        let s := s.modFlash (fun f => f.putPage (logPage s b page) ((es.map (fun e => e.bytes)).flatten))
        let s := setLastBlock { b with pages := page, entries := b.entries ++ es, closed := decide (511 ≤ page) } s
        reportLosses (s.modPat (fun p => { p with
          buffer := p.buffer.drop 4
          progSeq := (es.getLast?.map (fun e => e.seq)).getD p.progSeq
          progLink := (es.getLast?.map (fun e => e.link)).getD p.progLink }))

/-- The Plinth programs pages: its core runs and no other program or erase holds the array. -/
def canProgram (s : State) : Bool := (s.core 0x51).run != .lockedUp && !s.flash.busy && s.batt.mainPower

def execPatinaPageProgram (ok : Bool) (s : State) : Res :=
  .next (if canProgram s && decide (4 ≤ s.pat.buffer.length) then programPage ok s else s)

/-- A PAD entry joins the buffer. -/
def padEntry (s : State) : State := linkEntry { time := s.time, source := 0, code := 1, data := zeros 24 } s

def execPatinaPadTimeout (ok : Bool) (s : State) : Res :=
  .next (
    match s.pat.buffer with
    | [] => s
    | e :: _ =>
      if canProgram s && decide (s.pat.buffer.length < 4) && decide (e.entered + 50000000 ≤ s.time) then
        programPage ok ((List.range (4 - s.pat.buffer.length)).foldl (fun s _ => padEntry s) s)
      else s)

-- Checkpoints (R509, R510, R512).

def execCheckpointIntervalExpiry (s : State) : Res :=
  .next (if s.pat.lastCpTime + s.cfg 0x7110 2 * 1000000000 ≤ s.time then checkpoint s else s)

/-- Every retained entry, oldest first. -/
def retained (s : State) : List Entry := (s.pat.blocks.map (fun b => b.entries)).flatten ++ s.pat.buffer

/-- Up to 64 entries from a SEQ (R511). -/
def entriesFrom (s : State) (seq : Nat) : List Entry := ((retained s).filter (fun e => seq ≤ e.seq)).take 64

/-- Oldest retained SEQ. -/
def oldestSeq (s : State) : Nat := match retained s with | e :: _ => e.seq | [] => 0

/-- The checkpoint statement (Table 15-12a). -/
def statementOf (s : State) (e : Entry) : Bytes :=
  [0x41, 0x58, 0x50, 0x43, 1, 0, 0, 0] ++ serialBytes s ++ e.bytes ++ zeros 16

/-- The Patina signing keys from the identity seed (R533): the ML-DSA-65 seed, and the material of the ECDSA scalar. -/
def patinaMldsa (s : State) : Bytes := kdf108 0x220 (leBytes 32 s.life.fuses.idSeed.toNat) (ascii "AX9640 patina ml-dsa") [] 32
def orderP384 : Nat :=
  0xFFFFFFFFFFFFFFFFFFFFFFFFFFFFFFFFFFFFFFFFFFFFFFFFC7634D81F4372DDF581A0DB248B0A77AECEC196ACCC52973
def patinaEcdsa (s : State) : Bytes :=
  let c := beNat (kdf108 0x220 (leBytes 32 s.life.fuses.idSeed.toNat) (ascii "AX9640 patina ecdsa") [] 64)
  beBytes 48 (c % (orderP384 - 1) + 1)

/-- Statement and signatures of a checkpoint, 3,501 bytes. -/
def signedStatement (s : State) (e : Entry) : Bytes × State :=
  let m := statementOf s e
  let sigM := padTo 3309 (pkSign 0x21 0 (patinaMldsa s) m (ascii "AX9640 patina") (freeBytes 32 s))
  let s := useFree s
  let sigE := padTo 96 (pkSign 2 2 (patinaEcdsa s) (digest 2 m 0) [] (freeBytes 48 s))
  (m ++ sigM ++ sigE, useFree s)

/-- A checkpoint by its SEQ. -/
def checkpointAt (s : State) (seq : Nat) : Option Entry := (retained s).find? (fun e => e.seq = seq && isCheckpoint e)

/-- A read of OD 0x7111.02 for the checkpoint selected. -/
def checkpointRead (seq : Nat) (s : State) : Except Nat (Bytes × State) :=
  if s.plink.state != .up || serviceCount s = 0 then .error 0x10
  else
    match checkpointAt s seq with
    | none => .error 0x06
    | some e =>
      let r := signedStatement s e
      .ok (r.1, r.2.modPat (fun p => { p with readCps := if p.readCps.contains seq then p.readCps else seq :: p.readCps }))

/-- A write to OD 0x7112.01, or an acknowledgement from the SD slot. -/
def checkpointAck (seq : Nat) (link : Bytes) (slot role transport : Nat) (s : State) : Except Nat State :=
  match s.pat.openCps with
  | [] => .error 0x06
  | e :: t =>
    if e.seq != seq || e.link != link then .error 0x06
    else if !s.pat.readCps.contains seq then .error 0x10
    else
      let s := logEntry 0 3 (leBytes 8 seq ++ leBytes 4 slot ++ leBytes 1 role ++ leBytes 1 transport) s
      .ok (s.modPat (fun p => { p with openCps := t, lastAck := seq }))

-- Recycling and verification (R513 to R515).

/-- BLOCK_RECYCLE: the RECYCLED entry, then the erase of the oldest block. -/
def execBlockRecycle (s : State) : Res :=
  .next (
    match s.pat.blocks with
    | b :: t =>
      if freeBlocks s ≤ 4 && recyclable s then
        let last := (b.entries.getLast?.map (fun e => e.seq)).getD b.firstSeq
        let s := logEntry 0 4 (leBytes 8 b.firstSeq ++ leBytes 8 last ++ leBytes 8 s.pat.lastAck) s
        let phys := s.flash.phys (164 + b.pos)
        let s := (s.modPat (fun p => { p with blocks := t })).modFlash (fun f => f.clearBlock phys)
        let s := if (s.flash.block phys).closed then retireBlock phys 2 s else s
        if 4 ≤ freeBlocks s then deassert 0x22 s else s
      else s
    | [] => s)

/-- The first SEQ whose LINK does not follow from the LINK before it. -/
def chainBadFrom (prev : Bytes) : List Entry → Option Nat
  | [] => none
  | e :: t => if linkAfter prev e = e.link then chainBadFrom e.link t else some e.seq

/-- Verify the retained chain to the head (R515). -/
def chainBad (s : State) : Option Nat :=
  let start := match s.pat.blocks with | b :: _ => b.linkBefore | [] => linkZero s
  match chainBadFrom start (retained s) with
  | some q => some q
  | none =>
    match (retained s).getLast? with
    | some e => if e.link = s.pat.headLink ∧ e.seq = s.pat.headSeq then none else some s.pat.headSeq
    | none => none

/-- CHAIN_VERIFY: the first failing SEQ of the pages as flash now reads, where they do not read as programmed. -/
def execChainVerify (bad : Option Nat) (s : State) : Res :=
  .next (match bad.orElse (fun _ => chainBad s) with
    | some seq => raiseAlarm 0x21 (leBytes 8 seq) s
    | none => s)

end Sys2Proof.Machine
end

