-- ==== Sys2Proof/Machine/Rings.lean ====
section
/-! DEFINITION. The PCIe host rings (02, R69 to R78) and the events of the PCIe endpoint. -/

namespace Sys2Proof.Machine

/-- May a ring pair be opened with this configuration (R72, ERROR 0x0004)? -/
def ringConfigGood (s : State) (f cfg reqBase cplBase : Nat) : Bool :=
  bits cfg 30 25 = 0 && bits cfg 3 0 ≤ 10 && bits cfg 7 4 ≤ 10 && bits cfg 24 16 ≤ 255 && reqBase % 4096 = 0 && cplBase % 4096 = 0 &&
  decide (s.cfg (0x1030 + f) 1 ≤ s.cfg (0x1030 + f) 2)

/-- Does a ring pair take frames? -/
def ringLive (st : RingState) : Bool := st = .openNoKey || st = .handshake || st = .open

def execRingEnable (f r cfg : Nat) (s : State) : Res :=
  let k := s.ring f r
  .next (
    if 8 ≤ f ∨ 256 ≤ r ∨ k.state ≠ .disabled ∨ !bit cfg 31 then s
    else
      let k := { k with cfg := cfg % 2 ^ 32, cfgIn := cfg % 2 ^ 32, reqBaseIn := k.reqBase, cplBaseIn := k.cplBase, error := 0,
                        reqPi := 0, reqCi := 0, cplPi := 0, cplCi := 0, reserved := 0, unsignalled := 0, fetched := [],
                        session := none }
      if ringConfigGood s f cfg k.reqBase k.cplBase then s.setRing f r { k with state := .openNoKey }
      else ringError f r 4 (s.setRing f r k))

/-- Requests of a ring pair in the part. -/
def ringReqs (s : State) (f r : Nat) : List (Nat × Request) :=
  s.reqs.filter (fun e => match e.2.via with
    | .ring f' r' => f' = f && r' = r
    | .internal true f' r' => f' = f && r' = r
    | _ => false)

/-- Withdraw a ring pair (R78): requests that have not started are removed unrun, the responses of the others are
discarded. -/
def withdrawRing (f r : Nat) (s : State) : State :=
  let k := s.ring f r
  if k.state = .disabled ∨ k.state = .withdrawing then s
  else
    let s := s.setRing f r { k with cfg := k.cfg % 2 ^ 31, state := .withdrawing, session := none, fetched := [], unsignalled := 0 }
    (ringReqs s f r).foldl (fun s e =>
      match e.2.stage with
      | .running _ _ | .spilled _ => s.modReq e.1 (fun q => { q with discard := true })
      | _ => releaseReq e.1 s) s

def execRingDisable (f r : Nat) (s : State) : Res := .next (withdrawRing f r s)

def execReqPiDoorbell (f r v : Nat) (s : State) : Res :=
  let k := s.ring f r
  .next (
    if 8 ≤ f ∨ 256 ≤ r then s
    else
      let s := s.setRing f r { k with reqPi := v % 2 ^ 32 }
      if ringLive k.state && decide (ringSize k.cfgIn < (v % 2 ^ 32 + 2 ^ 32 - k.reqCi) % 2 ^ 32) then ringError f r 1 s else s)

def execCplCiWrite (f r v : Nat) (s : State) : Res :=
  let k := s.ring f r
  .next (
    if 8 ≤ f ∨ 256 ≤ r then s
    else
      let s := s.setRing f r { k with cplCi := v % 2 ^ 32 }
      if ringLive k.state && decide (2 ^ 31 ≤ (k.cplPi + 2 ^ 32 - v % 2 ^ 32) % 2 ^ 32) then ringError f r 2 s else s)

/-- May the part fetch a descriptor (R74)? -/
def mayFetch (k : Ring) : Bool :=
  ringLive k.state && k.reqCi != k.reqPi &&
  decide (k.reserved + (k.cplPi + 2 ^ 32 - k.cplCi) % 2 ^ 32 < cplSize k.cfgIn)

/-- A descriptor is read from the host, which answers with its fields, or refuses. A descriptor outside Table 02-10
gets its completion at once (DESIGN CHOICE, log 26). -/
def execDescriptorFetch (f r reqAddr rspAddr reqLen rspCap tag : Nat) (ok : Bool) (s : State) : Res :=
  let k := s.ring f r
  .next (
    if !mayFetch k then s
    else if !ok then ringError f r 3 s
    else
      let k := { k with reqCi := (k.reqCi + 1) % 2 ^ 32, reserved := k.reserved + 1 }
      if reqAddr % 8 ≠ 0 ∨ rspAddr % 8 ≠ 0 ∨ reqLen < 40 ∨ 16496 < reqLen then completion f r tag 0 0x0102 false (s.setRing f r k)
      else emit (.hostRead f reqAddr reqLen) (s.setRing f r { k with fetched := k.fetched ++ [(tag, reqAddr, reqLen, rspAddr, rspCap)] }))

/-- A HELLO on a ring pair. -/
def ringHello (f r tag addr cap : Nat) (body : Bytes) (s : State) : State :=
  match helloRefused s with
  | some c => completion f r tag 0 c false s
  | none =>
    if !helloGood body then completion f r tag 0 0x0102 false s
    else
      match peerKey (leAt body 4 4) s with
      | (.error st, s) =>
        ringFrame f r tag addr cap (frameHeader 0x22 0 0 0 8 ++ leBytes 4 0 ++ leBytes 2 st ++ zeros 2) false s
      | (.ok k, s) =>
        let g := s.ring f r
        internalRequest (.internal true f r) tag addr cap (s.setRing f r { g with session := some (newSession body k s) })

/-- A CONFIRM on a ring pair. -/
def ringConfirm (f r tag addr cap : Nat) (se : Session) (body : Bytes) (s : State) : State :=
  let g := s.ring f r
  if confirmGood se body s then
    ringSend f r 4 tag addr cap [] false
      (s.setRing f r { g with state := .open, session := some { se with state := .open, opened := s.time, hello := [], helloReply := [] } })
  else
    ringFrame f r tag addr cap (frameHeader 0x22 0 0 0 8 ++ leBytes 4 (f * 256 + r) ++ leBytes 2 0x0111 ++ zeros 2) false
      (s.setRing f r { g with state := .openNoKey, session := none })

/-- The effect of a frame on an open ring pair: one whole message, CLOSE or KEEPALIVE. -/
def ringOpenFrame (f r typ tag addr cap : Nat) (se : Session) (body : Bytes) (s : State) : State :=
  if typ = 0x10 then
    match recordsOfBody body with
    | some [rc] =>
      if rc.rtype = 1 ∧ 64 ≤ rc.content.length then
        arrive { hdr := {}, via := .ring f r, tag := tag, rspAddr := addr, rspCap := cap } se rc.content rc.padBad s
      else completion f r tag 0 0x0102 false s
    | _ => completion f r tag 0 0x0102 false s
  else
    let s := completion f r tag 0 0 false s
    if typ = 0x20 then endSession (.ring f r) s else s

/-- A protected frame on a ring pair: SEQ with no gap, then the tag (R58, R59). -/
def ringProtected (f r typ tfl sid seq tag addr cap : Nat) (ct gtag : Bytes) (s : State) : State :=
  let g := s.ring f r
  match g.session with
  | none => completion f r tag 0 0x0110 false s
  | some k =>
    if sid ≠ f * 256 + r ∨ k.state = .ended then completion f r tag 0 0x0110 false s
    else if seq ≠ k.rxHigh + 1 ∨ !tagOk k.keyIn k.ivIn typ tfl sid seq ct gtag then completion f r tag 0 0x0102 false s
    else
      let k := { k with rxHigh := seq, rxFrames := k.rxFrames + 1, lastRx := s.time }
      let body := gcmCrypt k.keyIn (k.ivIn ++ leBytes 8 seq) ct
      let s := s.setRing f r { g with session := some k }
      if typ = 3 then ringConfirm f r tag addr cap k body s else ringOpenFrame f r typ tag addr cap k body s

/-- A request frame has arrived whole (R75). -/
def ringFrameIn (f r tag addr cap : Nat) (b : Bytes) (s : State) : State :=
  let st := (s.ring f r).state
  let typ := leAt b 1 1
  let tfl := leAt b 2 1
  let sid := leAt b 4 4
  let seq := leAt b 8 8
  let len := leAt b 16 4
  let bad := completion f r tag 0 0x0102 false s
  if b.length < 24 ∨ leAt b 0 1 ≠ 1 ∨ leAt b 3 1 ≠ 0 ∨ leAt b 20 4 ≠ 0 ∨ 2 ≤ tfl ∨ len % 8 ≠ 0 then bad
  else if st = .openNoKey then
    if typ = 1 ∧ (s.ring f r).session = none then
      (if b.length ≠ 24 + len ∨ sid ≠ 0 ∨ seq ≠ 0 then bad else ringHello f r tag addr cap (b.drop 24) s)
    else completion f r tag 0 0x0110 false s
  else if (st = .handshake ∧ typ ≠ 3) ∨ (st = .open ∧ typ ≠ 0x10 ∧ typ ≠ 0x20 ∧ typ ≠ 0x21) then completion f r tag 0 0x0110 false s
  else if b.length ≠ 40 + len then bad
  else ringProtected f r typ tfl sid seq tag addr cap (slice b 24 len) (b.drop (24 + len)) s

/-- The last read completion of the oldest request frame, with its bytes; or the read was refused or failed. -/
def execHostReadCompletion (f r : Nat) (ok : Bool) (frame : Bytes) (s : State) : Res :=
  let k := s.ring f r
  .next (match k.fetched with
    | [] => s
    | (tag, _, _, addr, cap) :: rest =>
      if !ringLive k.state then s
      else if !ok then ringError f r 3 s
      else ringFrameIn f r tag addr cap frame (s.setRing f r { k with fetched := rest }))

def execRingWithdrawComplete (f r : Nat) (s : State) : Res :=
  let k := s.ring f r
  .next (if k.state = .withdrawing ∧ (ringReqs s f r).isEmpty then s.setRing f r { k with state := .disabled, error := 0 } else s)

def execCoalesceTimerExpiry (f r : Nat) (s : State) : Res :=
  let k := s.ring f r
  let n := bits k.cfgIn 11 8
  .next (if k.unsignalled ≠ 0 ∧ n ≠ 0 ∧ k.oldest + n * 1000 ≤ s.time then ringSignal f r true s else s)

-- Events of the endpoint.

/-- The mailbox session of a function closes; its transaction rolls back (R437). -/
def closeMailbox (f : Nat) (s : State) : State :=
  let s := dropSessions (fun m _ => m = 8 + f) s
  { s with mgmt := { s.mgmt with mb := tset {} s.mgmt.mb f { tget {} s.mgmt.mb f with state := 0, rspLen := 0 } } }

/-- Withdraw every ring pair of a function. -/
def withdrawFunction (f : Nat) (s : State) : State :=
  (s.rings.filter (fun e => e.1 / 256 = f)).foldl (fun s e => withdrawRing f (e.1 % 256) s) s

/-- Withdraw every ring pair and close every mailbox. -/
def withdrawAllRings (s : State) : State :=
  (List.range 8).foldl (fun s f => closeMailbox f (withdrawFunction f s)) s

def execFunctionLevelReset (f : Nat) (s : State) : Res :=
  .next (if 8 ≤ f then s else devEvent 0x8060 f (closeMailbox f (withdrawFunction f s)))

def execPcieLinkDown (s : State) : Res :=
  .next (devEvent 0x8060 0xFF (withdrawAllRings { s with pcie := { s.pcie with up := false, mgmtUp := false, training := false } }))

def execPcieHotReset (s : State) : Res :=
  .next (devEvent 0x8060 0xFF (withdrawAllRings { s with pcie := { s.pcie with up := false, mgmtUp := false, training := true } }))

/-- PERST_N released: the endpoint trains under its own hardware (R539). -/
def execPerstDeassert (s : State) : Res :=
  .next (if s.pcie.perst then { s with pcie := { s.pcie with perst := false, training := true } } else s)

end Sys2Proof.Machine
end

