-- ==== Sys2Proof/Machine/OdRead.lean ====
section
/-! DEFINITION. The value that a read of an entry of the object dictionary shows (13, R420, R429, R448): entries that
are computed from the state, counters, selectors, and configured values. -/

namespace Sys2Proof.Machine

/-- The value of an entry: a number, or octets (also for STR). -/
inductive OdVal where
  | num (v : Int)
  | oct (b : Bytes)
deriving DecidableEq, Repr

/-- A number that is not negative. -/
def nv (v : Nat) : OdVal := .num v

-- Queues, classes and admission (chapter 05).

/-- QSTATE (Table 05-3). -/
def qstate (k : Queue) : Nat :=
  k.channel % 16 * 2 ^ 28 + b2n k.barrier * 2 ^ 27 + b2n k.excess * 2 ^ 26 + b2n k.fullSeen * 2 ^ 25 + k.list.length

/-- A queue descriptor (Table 05-1). -/
def descriptorBytes (s : State) (qn : Nat) : Bytes :=
  let k := s.queue qn
  leBytes 2 k.tenant ++ leBytes 1 k.qctl ++ leBytes 1 k.weight ++ leBytes 4 k.depthLimit ++ leBytes 4 k.waitLimit ++
  leBytes 4 (qstate k) ++ leBytes 4 (k.list.head?.getD (2 ^ 32 - 1)) ++ leBytes 4 (k.list.getLast?.getD (2 ^ 32 - 1)) ++
  leBytes 4 ((k.deficit % 2 ^ 32).toNat) ++ leBytes 4 k.running

/-- A tenant's admission record, then its level (OD 0x4030.03). -/
def admissionBytes (s : State) (t : Nat) : Bytes :=
  let a := refilled s (admOf s t)
  leBytes 2 t ++ leBytes 1 a.overflow ++ [0] ++ leBytes 4 a.c0Rate ++ leBytes 4 a.c0Depth ++ leBytes 4 a.outLimit ++
  leBytes 8 a.level

/-- Sum of C0_RATE and C0 spill credit rate, and of the depths (R177). -/
def rateSum (s : State) : Nat := (s.qm.adm.map (fun e => e.2.c0Rate)).sum + ((List.range 3).map (fun p => s.cfg (0x6020 + p) 1)).sum
def depthSum (s : State) : Nat := (s.qm.adm.map (fun e => e.2.c0Depth)).sum + ((List.range 3).map (fun p => s.cfg (0x6020 + p) 2)).sum

/-- The largest extension of R192 among the spilled C0 requests that the part accepts, ns. -/
def largestExtension (s : State) : Nat :=
  ((upPorts s).filter (fun p => s.cfg (0x6020 + p) 1 != 0)).foldl (fun m p => Nat.max m (extensionNs (s.frzPort p))) 0

/-- W_MAX of R195, core cycles. -/
def wMax (s : State) : Nat := ceilDiv (1000 * depthSum s + (20000 + largestExtension s) * rateSum s) 56000

/-- A queue range record (R170). -/
def QueueRecord.bytes (r : QueueRecord) : Bytes :=
  leBytes 4 r.first ++ leBytes 4 r.count ++ leBytes 2 r.tenant ++ leBytes 1 r.qctl ++ leBytes 1 r.weight ++ leBytes 4 r.depthLimit ++
  leBytes 4 r.waitLimit ++ zeros 4

-- Key store (chapter 08).

/-- STATE of a slot record (Table 08-5). -/
def SlotState.code : SlotState → Nat
  | .unassigned => 0 | .empty => 1 | .active => 2 | .reserved => 3 | .blocked => 4

/-- The record of a slot with WRAPPED read as zero, then its public key (OD 0x5006.03). The MAC is over the record as
shown, under a key that only the key fetch unit holds (log 15). -/
def slotBytes (s : State) (i : Nat) : Bytes :=
  let k := s.slot i
  let flags := b2n k.mkg * 64 + b2n k.cntOvf * 32 + b2n k.ext * 16 + b2n k.blob * 8 + b2n k.pinned * 4 + b2n k.replicated * 2 +
    b2n k.exportable
  let body := zeros 64 ++ leBytes 2 k.alg ++ leBytes 1 k.state.code ++ leBytes 1 flags ++ leBytes 4 k.usage ++ leBytes 2 k.tenant ++
    leBytes 3 k.kcv ++ leBytes 1 k.ksrc ++ zeros 2 ++ leBytes 4 k.uses ++ leBytes 4 k.useLimit ++ leBytes 8 k.notBefore ++
    leBytes 8 k.notAfter ++ leBytes 4 k.version ++ leBytes 4 k.extIndex
  body ++ padTo 16 (cmac 0x220 (leBytes 32 s.ks.rootI.toNat) (leBytes 4 i ++ body)) ++ k.pub

-- Cells and engines (chapters 06 and 07).

/-- A set of numbers as bits of a string. -/
def bitBytes (n : Nat) (l : List Nat) : Bytes := leBytes n (l.foldl (fun m c => m ||| 2 ^ c) 0)

def GenState.code : GenState → Nat
  | .unseeded => 0 | .running => 1 | .reseedDue => 2 | .short => 3 | .failed => 4

-- Frieze (chapter 14).

/-- Largest route sum from the part to another, and between any two parts, ns (R465). -/
def diameterFrom (es : List (Nat × Nat × Nat × Nat)) (n a : Nat) : Nat :=
  (relaxTimes (es.map (fun e => if e.1 = a then (e.1, e.2.1, e.2.2.1, 0) else (e.1, e.2.1, e.2.2.1, 3))) a n []).foldl
    (fun m e => Nat.max m e.2.sum) 0

def topoAddrs (s : State) : List Nat := partAddr s :: (routes s).map (fun e => e.1)

def diameterPs (s : State) : Nat :=
  (topoAddrs s).foldl (fun m a => Nat.max m (diameterFrom (edges s) (topoAddrs s).length a)) 0

/-- The time state (Table 14-10). -/
def TimeState.code : TimeState → Nat
  | .free => 0 | .locking => 1 | .locked => 2 | .holdover => 3 | .master => 4

-- Alarms (chapter 15).

def AlarmState.code : AlarmState → Nat
  | .clear => 0 | .active => 1 | .held => 2

/-- Alarms in a state, as bits of 8 bytes. -/
def alarmBits (s : State) (f : Alarm → Bool) : Bytes := bitBytes 8 ((s.alarms.filter (fun e => f e.2)).map (fun e => e.1))

/-- Header of the log block that holds a SEQ. -/
def blockHeaderOf (s : State) (seq : Nat) : Bytes :=
  match s.pat.blocks.find? (fun b => b.entries.any (fun e => e.seq = seq)) with
  | some b => b.header s
  | none => zeros 64

/-- Entries that the free pages of the ring still take (OD 0x7100.03). -/
def freeEntries (s : State) : Nat :=
  freeBlocks s * 2044 + (match openLog s with | some b => (511 - b.pages) * 4 | none => 0)

-- Flash, boot and firmware (chapter 16).

/-- The block of OD 0x8000.06. -/
def blockBytes (s : State) (l : Nat) : Bytes :=
  let p := s.flash.phys l
  let k := s.flash.block p
  leBytes 1 p ++ leBytes 1 (areaOf l) ++ leBytes 1 k.state ++ leBytes 1 k.worst ++ leBytes 4 k.erases ++ leBytes 2 k.longProgram ++
  leBytes 2 k.longErase ++ zeros 4

def BankState.code : BankState → Nat
  | .empty => 0 | .loaded => 1 | .trial => 2 | .confirmed => 3 | .invalid => 4

def bankBytes (b : Bank) : Bytes := leBytes 1 b.state.code ++ zeros 3 ++ leBytes 4 b.release ++ leBytes 4 b.secver ++ zeros 4

/-- Bytes of a configuration store copy, by the values that it holds; the spec gives its content and not its form. -/
def copySize (s : State) : Nat := 64 + 16 * s.od.length + (s.odb.map (fun e => 16 + e.2.length)).sum

/-- Commits left until the configuration ring reaches its rated endurance (R531). -/
def commitsLeft (s : State) : Nat :=
  let size := ceilDiv (copySize s) 256 * 256
  let worn := ((List.range 24).map (fun i => (s.flash.block (s.flash.phys (40 + i))).erases)).foldl Nat.max 0
  (20000 - worn) * (3 * 2 ^ 20) / size

-- Cards (chapter 17).

def SdState.code : SdState → Nat
  | .empty => 0 | .powering => 1 | .identifying => 2 | .ready => 3 | .asleep => 4 | .busy => 5 | .refused => 6 | .failed => 7

def OfficerState.code : OfficerState → Nat
  | .empty => 0 | .activating => 1 | .ready => 2 | .inCeremony => 3 | .refused => 4

def CerState.code : CerState → Nat
  | .idle => 0 | .collecting => 1 | .applying => 2 | .writingCards => 3 | .done => 4 | .ended => 5

/-- First block after the last set. -/
def nextBlockOf (c : SdCard) : Nat := c.sets.foldl (fun m x => Nat.max m (x.first + x.blocks + 2)) 64

def volumeBytes (s : State) : Bytes :=
  match s.cards.sd.card with
  | some c =>
    (match c.volume with
     | some v =>
       padTo 16 v ++ leBytes 4 (c.sets.filter (fun x => x.committed)).length ++ leBytes 4 (nextBlockOf c) ++
       leBytes 4 (c.capacity - nextBlockOf c) ++ zeros 4
     | none => zeros 32)
  | none => zeros 32

def officerSlot (s : State) (k : Nat) : OfficerSlot := if k = 0 then s.cards.slot0 else s.cards.slot1

def rosterBytes (s : State) : Bytes :=
  leBytes 1 s.cards.rosterM ++ leBytes 1 s.cards.roster.length ++ zeros 6 ++
  (s.cards.roster.map (fun o => leBytes 4 o.1 ++ padTo 48 o.2)).flatten

-- Health (chapter 18).

/-- A health record (R587). -/
def HealthRec.bytes (r : HealthRec) : Bytes :=
  leBytes 2 r.source ++ leBytes 2 r.unit ++ leBytes 2 r.count ++ leBytes 1 (b2n r.lasting) ++ [0] ++ leBytes 8 r.time

/-- Events in the window now (OD 0x9010.03). -/
def eventsInWindow (s : State) (source unit : Nat) : Nat :=
  let w := (faultParams s source).2
  ((s.faultUnit source unit).times.filter (fun t => decide (s.time < t + w * 1000000000))).length

/-- Days left of the backup cell (R600). -/
def daysLeft (s : State) : Nat :=
  let cap := s.cfg 0x2010 6
  let ms := Nat.max 1 (s.cfg 0x7003 2)
  if cap = 0 then 0xFFFFFFFF
  else sat32 ((cap * 10000000 - s.health.charge) * ms / ((900 * ms + 6400) * 240))

/-- µs since two states disagree, saturating (Table 13-14). -/
def sinceUs (s : State) (t : Option Nat) : Nat := match t with | some t => sat32 ((s.time - t) / 1000) | none => 0

/-- Highest of some measured points. -/
def hottest (s : State) (first n : Nat) : Int :=
  match (List.range n).map (fun i => tget 0 s.health.temps (first + i)) with
  | [] => 0
  | a :: t => t.foldl (fun m v => if m < v then v else m) a

/-- Two's complement bytes of an integer. -/
def intBytes (n : Nat) (v : Int) : Bytes := leBytes n ((v % (2 ^ (8 * n) : Nat)).toNat)

/-- Result bytes of OD 0x3n02.01. -/
def TestRecord.bytes (t : TestRecord) : Bytes :=
  leBytes 1 t.result ++ leBytes 1 t.phase ++ leBytes 2 t.retired ++ leBytes 2 t.withdrawn ++ zeros 2 ++ leBytes 8 t.tStart ++
  leBytes 8 t.tEnd ++ zeros 8

/-- A commit log entry (OD 0x1103.01). -/
def CommitRec.bytes (c : CommitRec) : Bytes :=
  leBytes 8 c.cgen ++ leBytes 8 c.tCommit ++ leBytes 8 c.txn ++ leBytes 4 c.slot ++ leBytes 2 c.entries ++ leBytes 1 c.outcome ++ [0]

-- The dictionary as a whole.

/-- Keys of every entry. -/
def odKeys : List Nat := (odRows.map (fun e => (List.range e.count).map (fun i => odKey (e.index + e.stride * i) e.sub))).flatten

/-- Selectors (R421). -/
def selectors : List Nat :=
  [0x200001, 0x212101, 0x401002, 0x403002, 0x500602, 0x710101, 0x711101, 0x800005, 0x900401, 0x901001, 0x901002, 0x905201]
def isSelector (index sub : Nat) : Bool := selectors.contains (odKey index sub)

/-- Entries whose writes append records or segments (R421). -/
def appends : List Nat :=
  [0x104001, 0x401001, 0x403001, 0x412401, 0x412501, 0x412502, 0x500401, 0x500601, 0x500701, 0x602801, 0x802001]
def isAppend (index sub : Nat) : Bool := appends.contains (odKey index sub)

/-- Value of a selector in a session. -/
def selValue (k : MgSess) (index sub : Nat) : Nat := tget (odDefault (odKey index sub)).toNat k.sel (odKey index sub)

/-- Unit that a counter read shows: the tenant selected for the per-tenant sets. -/
def selUnit (k : MgSess) (index : Nat) : Nat := if index = 0x9050 || index = 0x9052 then selValue k 0x9052 1 else 0

/-- A paired state group's states and the time of their divergence. -/
def pairVal (s : State) (data mgmt sub : Nat) (since : Option Nat) : Option OdVal :=
  match sub with
  | 1 => some (nv data)
  | 2 => some (nv mgmt)
  | 3 => some (nv (sinceUs s since))
  | _ => none

/-- The lowest CGEN that a request running on a channel uses, or the CGEN installed (R443). -/
def lowestGen (s : State) (n : Nat) : Nat :=
  ((s.reqs.filter (fun e => match e.2.stage with | .running m (some _) => m = n | _ => false)).map (fun e => e.2.cgen)).foldl
    Nat.min (s.chan n).cgenInstalled

/-- Entries of a channel at 0x3n00. -/
def chanVal (s : State) (n low sub : Nat) : Option OdVal :=
  let c := s.chan n
  let e := s.engOf n
  match low, sub with
  | 0x01, 4 => some (nv c.cgenInstalled)
  | 0x01, 5 => some (nv (lowestGen s n))
  | 0x01, _ => pairVal s c.data.code c.mgmt.code sub c.divergeSince
  | 0x02, 1 => some (.oct c.lastTest.bytes)
  | 0x02, 4 => some (nv c.spareRows)
  | 0x02, 5 => some (nv (c.returns.filter (fun t => decide (s.time < t + 86400000000000))).length)
  | 0x10, 1 => some (nv (512 - e.retired.length - (busyCells e).length))
  | 0x10, 2 => some (nv e.retired.length)
  | 0x10, 4 => some (nv (freeNat 256 s))
  | 0x10, 8 => some (.oct (bitBytes 64 e.retired))
  | 0x11, 1 => some (nv e.gen.state.code)
  | 0x12, 7 => some (nv (leNat (bitBytes 2 (e.digestOut ++ e.pkOut.map (fun k => k + 8)))))
  | _, _ => none

/-- Entries that show a part of the state, by their keys; none for the others. -/
def shownVal (s : State) (k : MgSess) (index sub : Nat) : Option OdVal :=
  let sel (i u : Nat) : Nat := selValue k i u
  let h := s.health
  let p := index % 16
  match index, sub with
  | 0x1000, 1 => some (.oct (ascii "Moaruton Devices"))
  | 0x1000, 2 => some (.oct (ascii "AX9640"))
  | 0x1000, 3 => some (.oct (ascii "B0"))
  | 0x1000, 6 => some (.oct (serialBytes s))
  | 0x1000, 7 => some (.oct (Config.fixedOctets 0x1000 7))
  | 0x1000, 9 => some (nv odKeys.length)
  | 0x1040, 2 => some (nv s.mgmt.principals.length)
  | 0x1101, 1 => some (nv (s.mgmt.sess.filter (fun e => e.2.txn.isSome)).length)
  | 0x1101, 2 => some (nv s.mgmt.cgen)
  | 0x1101, 3 => some (nv s.mgmt.tCommit)
  | 0x1101, 6 => some (nv s.mgmt.lost)
  | 0x1103, 1 => some (.oct ((s.mgmt.log.take 32).map CommitRec.bytes).flatten)
  | 0x2000, 2 => some (nv (tget 0 h.railNow (sel 0x2000 1)))
  | 0x2000, 3 => some (nv (tget 0 h.railMin (sel 0x2000 1)))
  | 0x2000, 4 => some (nv (tget 0 h.railMax (sel 0x2000 1)))
  | 0x2010, 1 => some (nv h.battMv)
  | 0x2010, 2 => some (nv h.battRes)
  | 0x2010, 3 => some (nv h.battTest)
  | 0x2010, 5 => some (nv (sat32 (h.charge / 10000)))
  | 0x2010, 7 => some (nv (daysLeft s))
  | 0x2020, 1 => some (.num (hottest s 0 16))
  | 0x2020, 2 => some (.num (hottest s 16 4))
  | 0x2020, 3 => some (.oct ((List.range 20).map (fun i => intBytes 2 (tget 0 h.temps i))).flatten)
  | 0x2030, 1 => some (nv (b2n s.noiseJitterBad))
  | 0x2030, 2 => some (nv (b2n s.noiseLatchBad))
  | 0x2104, u => some (nv (Config.latencies u))
  | 0x2118, u => pairVal s (b2n s.pcie.up) (b2n s.pcie.mgmtUp) u s.pcie.divergeSince
  | 0x2119, 1 => some (nv s.pcie.speed)
  | 0x2119, 2 => some (nv s.pcie.width)
  | 0x2120, 1 => some (nv s.ddr.cap)
  | 0x2120, 2 => some (nv (ddrUsable s))
  | 0x2122, 1 => some (.oct (tget [] h.ddrDevices (sel 0x2121 1)))
  | 0x4002, 1 => some (nv (rateSum s))
  | 0x4002, 2 => some (nv (depthSum s))
  | 0x4002, 5 => some (nv (wMax s))
  | 0x4010, 1 => some (.oct (s.qm.records.map QueueRecord.bytes).flatten)
  | 0x4010, 3 => some (.oct (descriptorBytes s (sel 0x4010 2)))
  | 0x4030, 3 => some (.oct (admissionBytes s (sel 0x4030 2)))
  | 0x4120, 4 => some (nv s.svc.tryEntries)
  | 0x4122, 1 => some (nv s.svc.images.length)
  | 0x4123, 1 => some (nv s.svc.models.length)
  | 0x4123, 2 => some (nv ((s.svc.models.filter (fun e => e.2.c0Claim)).map (fun e => e.2.bodyBytes)).sum)
  | 0x5000, 1 => some (nv (ksState s))
  | 0x5001, 1 => some (nv (s.ks.slots.filter (fun e => e.2.state != .unassigned)).length)
  | 0x5001, 2 => some (nv (s.ks.slots.filter (fun e => e.2.state = .active || e.2.state = .blocked)).length)
  | 0x5001, 3 => some (nv (s.ks.tenants.filter (fun e => e.2.state = .active || e.2.state = .suspended)).length)
  | 0x5002, 2 => some (nv (s.ks.slots.filter (fun e => e.2.pinned)).length)
  | 0x5002, 3 => some (nv (s.ks.slots.filter (fun e => e.2.pinned && resident s e.1)).length)
  | 0x5006, 3 => some (.oct (slotBytes s (sel 0x5006 2)))
  | 0x5008, 1 => some (nv (match s.ks.anchor with | some a => a.gen | none => 0))
  | 0x500A, 1 => some (.oct (padTo 8 s.ks.mkid))
  | 0x500A, 2 => some (nv s.ks.mkgen)
  | 0x6002, 3 => some (nv (ceilDiv (diameterPs s) 1000))
  | 0x6002, 4 => some (nv (topoParts s))
  | 0x6004, 2 => some (nv s.frz.timeMaster)
  | 0x6004, 3 => some (.num s.frz.timeOffset)
  | 0x6004, 4 => some (nv s.frz.timeState.code)
  | 0x6005, 4 => some (nv (s.mgmt.domain.filter (fun e => e.2.state = 1)).length)
  | 0x7000, 1 => some (nv (levelHeld s))
  | 0x7000, 2 => some (.oct (alarmBits s (fun a => a.state = .active)))
  | 0x7000, 3 => some (.oct (alarmBits s (fun a => a.state = .held)))
  | 0x700A, u => some (nv (tget 0 s.arm.trained (u - 1)))
  | 0x7011, 1 => some (.oct ((List.range 32).map (fun g => leBytes 4 (tget 0 s.arm.lastR g))).flatten)
  | 0x7011, 2 => some (.oct ((List.range 32).map (fun g => leBytes 4 (tget 0 s.arm.lastC g))).flatten)
  | 0x7100, 1 => some (nv s.pat.headSeq)
  | 0x7100, 2 => some (nv (oldestSeq s))
  | 0x7100, 3 => some (nv (freeEntries s))
  | 0x7100, 4 => some (nv (freeBlocks s))
  | 0x7101, 2 => some (.oct ((entriesFrom s (sel 0x7101 1)).map Entry.bytes).flatten)
  | 0x7101, 3 => some (.oct (blockHeaderOf s (sel 0x7101 1)))
  | 0x7112, 2 => some (nv s.pat.lastAck)
  | 0x7113, 1 => some (.oct (pkPublic 0x21 (patinaMldsa s)))
  | 0x7113, 2 => some (.oct (pkPublic 2 (patinaEcdsa s)))
  | 0x7113, 3 => some (.oct (Config.fixedOctets 0x7113 3))
  | 0x7114, 3 => some (nv s.cards.sd.ackRefused)
  | 0x8000, 2 => some (nv s.flash.retired)
  | 0x8000, 3 => some (nv s.flash.spares.length)
  | 0x8000, 4 => some (nv (s.flash.blocks.foldl (fun m e => Nat.max m e.2.erases) 0))
  | 0x8000, 6 => some (.oct (blockBytes s (sel 0x8000 5)))
  | 0x8000, 7 => some (nv (commitsLeft s))
  | 0x8001, 1 => some (nv s.life.state.code)
  | 0x8001, 2 => some (nv (s.life.fuses.reinit.filter (fun t => decide (t < 2))).length)
  | 0x8001, 3 => some (nv (b2n s.life.unlocked))
  | 0x8001, 4 => some (.oct (alarmBits s (fun a => a.aside)))
  | 0x8002, 1 => some (.oct (padTo 64 s.life.bootRecord))
  | 0x8002, 2 => some (nv s.life.result)
  | 0x8020, 2 => some (.oct (bankBytes s.life.bankA ++ bankBytes s.life.bankB))
  | 0x8020, 5 => some (nv s.life.act)
  | 0x8021, 1 => some (nv s.life.fuses.rollback)
  | 0x8100, 1 => some (nv s.cards.sd.state.code)
  | 0x8100, 2 => some (.oct (padTo 16 s.cards.sd.cid))
  | 0x8100, 3 => some (.oct (padTo 16 s.cards.sd.csd))
  | 0x8100, 4 => some (.oct (padTo 8 s.cards.sd.scr))
  | 0x8100, 5 => some (nv s.cards.sd.ocr)
  | 0x8100, 6 => some (nv s.cards.sd.mode)
  | 0x8100, 7 => some (nv s.cards.sd.width)
  | 0x8100, 8 => some (nv (match s.cards.sd.card with | some c => b2n c.perm + 2 * b2n c.tmp | none => 0))
  | 0x8102, 5 => some (.oct (padTo 16 s.cards.sd.outcome))
  | 0x8103, 1 => some (.oct (volumeBytes s))
  | 0x8111, 1 => some (.oct s.cards.param)
  | 0x8112, 1 => some (.oct (rosterBytes s))
  | 0x9000, 1 => some (nv (partState s % 256))
  | 0x9000, 2 => some (nv (b2n (decide (serviceCount s < 8))))
  | 0x9000, 3 => some (nv (serviceCount s))
  | 0x9000, 4 => some (nv (healthyCount s))
  | 0x9001, 2 => some (nv k.lastCleared)
  | 0x9001, 3 => some (.oct (h.saturated.map (fun e => leBytes 2 (e / 256) ++ leBytes 1 (e % 256) ++ [0])).flatten)
  | 0x9002, 3 => some (nv (if s.rest.channel < 9 then s.rest.channel else 0xFF))
  | 0x9002, 4 => some (nv (s.rest.start + s.rest.period * 1000000000))
  | 0x9002, 8 => some (nv h.sharedPassEnd)
  | 0x9004, 2 => some (.oct (match h.ring[sel 0x9004 1]? with | some r => r.bytes | none => zeros 16))
  | 0x9005, 1 => some (nv h.unavailable)
  | 0x9005, 2 => some (nv h.unavailableSinceClear)
  | 0x9005, 3 => some (.oct ((List.range 6).map (fun i => leBytes 8 (tget 0 h.stateMs (i + 1)))).flatten)
  | 0x9010, 3 => some (nv (eventsInWindow s (sel 0x9010 1) (sel 0x9010 2)))
  | 0x9010, 4 => some (nv (s.faultUnit (sel 0x9010 1) (sel 0x9010 2)).transients)
  | 0x9010, 5 => some (nv (s.faultUnit (sel 0x9010 1) (sel 0x9010 2)).lasting)
  | 0x9010, 6 => some (nv (s.faultUnit (sel 0x9010 1) (sel 0x9010 2)).lastTime)
  | 0x9063, 8 => some (.oct (padTo 32 s.lockup))
  | 0x9064, 2 => some (nv (s.count 0x9064 2 0))
  | 0x9053, 3 => some (nv (s.count 0x9053 3 0))
  | 0x9053, 4 => some (nv (s.count 0x9053 4 0))
  | 0x9065, 0xC => some (nv (s.ddr.spareUsed.map (fun e => e.2)).sum)
  | 0x9065, 0xD => some (nv s.mpe.poison.length)
  | 0x9066, 3 => some (.oct (leBytes 16 (s.acl.log.headD 0).toNat))
  | 0x9073, 1 => some (nv s.cards.cer.state.code)
  | 0x9073, 2 => some (nv s.cards.cer.result)
  | 0x9073, 3 => some (nv s.cards.cer.approvals.length)
  | 0x9073, 4 => some (.oct (leBytes 8 s.cards.cer.cnum ++ padTo 48 s.cards.cer.cd))
  | 0x9073, 5 => some (.oct (leBytes 3 s.cards.cer.kcv ++ zeros 5))
  | _, _ =>
    if 0x3000 ≤ index && index < 0x3900 then chanVal s (index / 256 - 0x30) (index % 256) sub
    else if 0x2100 ≤ index && index < 0x2104 then
      (match sub with
       | 1 => some (nv (s.port p).mode)
       | 2 => some (.oct (padTo 8 (s.port p).abilities))
       | 3 => some (nv (s.port p).fecCorrected)
       | 4 => some (nv (s.port p).fecUncorrected)
       | _ => none)
    else if 0x2110 ≤ index && index < 0x2114 then pairVal s (b2n (s.port p).up) (b2n (s.port p).mgmtUp) sub (s.port p).divergeSince
    else if 0x2140 ≤ index && index < 0x2143 then
      (match sub with
       | 1 => some (nv (s.frzPort p).delay)
       | 2 => some (nv ((s.frzPort p).delay * s.cfg index 3 * 299792458 / (10 ^ 13)))
       | 4 => some (.oct (padTo 4 (s.frzPort p).loss))
       | 5 => some (.oct (padTo 64 (s.frzPort p).cap))
       | 6 => some (.num (s.frzPort p).offset)
       | _ => none)
    else if 0x6010 ≤ index && index < 0x6013 then
      (match sub with
       | 6 => some (nv (s.frzPort p).join)
       | 7 => some (nv (partnerAddr (s.frzPort p)))
       | 8 => some (nv (partnerPort (s.frzPort p)))
       | 9 => none
       | _ => pairVal s (s.frzPort p).state.code (s.frzPort p).mgmt.code sub (s.frzPort p).divergeSince)
    else if 0x7040 ≤ index && index < 0x7065 then
      (let a := index - 0x7040
       match sub with
       | 1 => some (nv (alarmLevel s a))
       | 2 => some (nv (alarmFlags s a))
       | 3 => some (nv (s.alarm a).state.code)
       | _ => none)
    else if 0x8108 ≤ index && index < 0x810A then
      (let o := officerSlot s (index - 0x8108)
       match sub with
       | 1 => some (nv o.state.code)
       | 2 => some (.oct o.atr)
       | 3 => some (nv (b2n o.t1 + 4 * b2n o.classA))
       | _ => some (nv o.officer))
    else none

/-- The value of an entry for a session. -/
def odVal (s : State) (k : MgSess) (e : OdEntry) (index sub : Nat) : OdVal :=
  match shownVal s k index sub with
  | some v => v
  | none =>
    if e.counter then nv (s.count index sub (selUnit k index))
    else if isSelector index sub then nv (selValue k index sub)
    else if e.typ = .octets || e.typ = .str then .oct (s.octets index sub)
    else .num (s.odInt index sub)

/-- Width of a type in bytes; none for STR and OCTETS (Table 13-2). -/
def OdType.width : OdType → Option Nat
  | .bool | .u8 | .enum => some 1
  | .u16 | .i16 => some 2
  | .u32 | .i32 => some 4
  | .u64 | .time64 => some 8
  | .octets | .str => none

/-- Code of a type (Table 13-2). -/
def OdType.code : OdType → Nat
  | .bool => 1 | .u8 => 2 | .u16 => 3 | .u32 => 4 | .u64 => 5 | .i16 => 7 | .i32 => 8 | .time64 => 0xB | .enum => 0xC | .str => 0xD
  | .octets => 0xE

/-- Bytes of a value (R421). -/
def OdVal.bytes (e : OdEntry) : OdVal → Bytes
  | .num v => intBytes (e.typ.width.getD 8) v
  | .oct b => b

/-- A 48-byte description (R430). The roles bits are the caller's. -/
def describe (e : OdEntry) (index sub roles scope : Nat) : Bytes :=
  let acc := match e.access with | .ro => 0 | .rw => 1 | .wo => 2 | .rwt => 3 | .const => 4
  let paired := (0x3000 ≤ index && index % 256 = 1) || (0x2110 ≤ index && index ≤ 0x2118) || (0x6010 ≤ index && index ≤ 0x6012 && sub ≤ 3)
  let kf := b2n e.persist + 2 * b2n (isSelector index sub) + 4 * b2n (isAppend index sub) + 8 * b2n (index = 0x6006) + 16 * b2n paired +
    32 * b2n e.counter
  let maxLen := match e.typ with
    | .str => 255
    | .octets => if e.access = .ro || e.access = .const then 65535 else 4096
    | t => t.width.getD 0
  let dflt := match shownVal {} {} index sub with
    | some (.oct b) => padTo 8 b
    | _ => intBytes 8 e.dflt
  leBytes 2 index ++ leBytes 1 sub ++ leBytes 1 e.typ.code ++ leBytes 1 acc ++ leBytes 1 kf ++ leBytes 1 scope ++ leBytes 1 roles ++
  leBytes 4 maxLen ++ intBytes 8 e.lo ++ intBytes 8 e.hi ++ dflt ++ zeros 12

end Sys2Proof.Machine
end

