-- ==== Sys2Proof/Machine/Frieze.lean ====
section
/-! DEFINITION. Frieze ports and the topology (chapter 14): bring-up (R456, R457), handshake and link keys (R458, R459),
cable measurement (R461, R462), the topology database, joining (R464, R465), device time (R467, R468), adverts of
spill credit (R470), and link blocks (R451 to R455). -/

namespace Sys2Proof.Machine

-- Port states.

/-- What a link holds is gone when it goes down. -/
def FrzPort.cleared (k : FrzPort) : FrzPort :=
  { k with txSeq := 0, rxSeq := 0, txEpoch := 0, rxEpoch := 0, txKey := [], txIv := [], rxKey := [], rxIv := [], oldRxKey := [],
           oldRxLeft := 0, nextTxKey := [], nextRxKey := [], nak := false, sent := [], waiting := [], credits := [], freed := [],
           partials := [], inbox := [], exchanges := 0, tokens := 3 }

/-- The part's own TOPO message as an entry of the database. -/
def ownTopo (s : State) : Topo :=
  { serial := serialBytes s, addr := partAddr s, mkid := s.ks.mkid, seq := s.frz.topoSeq, timePri := s.cfg 0x6004 1,
    coordPri := s.cfg 0x6005 1, diamBudget := s.cfg 0x6002 1,
    links := (upPorts s).map (fun p => (partnerAddr (s.frzPort p), dC (s.frzPort p))) }

/-- A TOPO message's bytes; the spec lists its content and not its layout. -/
def Topo.bytes (t : Topo) : Bytes :=
  padTo 8 t.serial ++ leBytes 2 t.addr ++ padTo 8 t.mkid ++ leBytes 8 t.seq ++ leBytes 2 t.timePri ++ leBytes 2 t.coordPri ++
  leBytes 4 t.diamBudget ++ (t.links.map (fun l => leBytes 2 l.1 ++ leBytes 4 l.2)).flatten

/-- Flood the part's TOPO message, also on HELD ports (Table 14-4). -/
def sendTopo (s : State) : State :=
  let s := s.modFrz (fun f => { f with topoSeq := f.topoSeq + 1, lastTopo := s.time })
  (List.range 3).foldl (fun s p =>
    if (s.frzPort p).state = .up || (s.frzPort p).state = .held then frzSend p 2 0x23 0xFFF (ownTopo s).bytes s else s) s

/-- Entries of parts that UP links no longer reach leave the database's topology; their spill credit is void. -/
def pruneAdverts (s : State) : State :=
  s.modFrz (fun f => { f with adverts := f.adverts.filter (fun a => (routePort s a.addr).isSome) })

/-- The time master (R467): lowest TIME_PRI, then lowest address, among the parts of the topology. -/
def masterOf (s : State) : Nat :=
  let self := (s.cfg 0x6004 1, partAddr s)
  let all := self :: (routes s).map (fun e => (match tfind s.frz.topo e.1 with | some t => t.timePri | none => 32768, e.1))
  (all.foldl (fun b c => if c.1 < b.1 || (c.1 = b.1 && c.2 < b.2) then c else b) self).2

/-- Port towards the time master. -/
def upstream (s : State) : Option Nat := routePort s s.frz.timeMaster

/-- Time state after a change of the topology or an exchange (Table 14-10). -/
def timeUpdate (s : State) : State :=
  let m := masterOf s
  let old := s.frz.timeState
  let s := s.modFrz (fun f => { f with timeMaster := m })
  let st : TimeState :=
    if m = partAddr s then (if upPorts s = [] then (if old = .locked || old = .holdover then .holdover else .free) else .master)
    else
      match routePort s m with
      | none => if old = .locked || old = .holdover then .holdover else .free
      | some p =>
        let o := (s.frzPort p).offsets
        if 16 ≤ o.length && o.all (fun v => decide (-5 ≤ v) && decide (v ≤ 5)) then .locked else .locking
  s.modFrz (fun f => { f with timeState := st, timeOffset := match routePort s m with | some p => (s.frzPort p).offset | none => 0 })

/-- Does a path use a link between two parts? -/
def pathUses (a b : Nat) : List Nat → Bool
  | x :: y :: t => (x = a && y = b) || (x = b && y = a) || pathUses a b (y :: t)
  | _ => false

/-- Links of one list that another lacks. -/
def lostLinks (before after : List (Nat × Nat × Nat × Nat)) : List (Nat × Nat) :=
  (before.filter (fun e => !after.any (fun x => x.1 = e.1 && x.2.1 = e.2.1))).map (fun e => (e.1, e.2.1))

/-- Links failed (R474): 0x0507 for every spilled request whose route crossed one; the response of a spilled-in request
whose route back crossed one will be discarded. -/
def linksLost (before : State) (s : State) : State :=
  let lost := lostLinks (edges before) (edges s)
  if lost = [] then s
  else
    let crossed (path : List Nat) : Bool := lost.any (fun l => pathUses l.1 l.2 path)
    let out := (s.reqs.filter (fun e => match e.2.stage with | .spilled _ => crossed e.2.path | _ => false)).map (fun e => e.1)
    let s := out.foldl (fun s r => endRequest r 0x0507 s) s
    { s with reqs := s.reqs.map (fun e => match e.2.via with
        | .frieze _ =>
          let path := partAddr s :: ((tfind (routes before) e.2.originAddr).map (fun t => t.path)).getD []
          (e.1, { e.2 with discard := e.2.discard || crossed path })
        | _ => e) }

/-- After a change to the part's own links: routes, adverts, requests over a lost link, time, a TOPO message. -/
def linksChanged (before : State) (s : State) : State := sendTopo (timeUpdate (pruneAdverts (linksLost before s)))

/-- A port leaves UP or HELD for another state; its link is gone. -/
def portDown (p : Nat) (st : PortState) (s : State) : State :=
  let was := (s.frzPort p).state
  let s' := setFrz p st (s.modFrzPort p FrzPort.cleared)
  if was = .up then linksChanged s s' else s'

/-- A failed attempt (R457): DETECT, or FAILED after eight in a row. -/
def attemptFailed (p : Nat) (s : State) : State :=
  let n := (s.frzPort p).attempts + 1
  let s := s.modFrzPort p (fun k => { k with attempts := n })
  portDown p (if 8 ≤ n then .failed else .detect) s

/-- Loss of the link in service: a retrain, at most three in 10 s, else FAILED (R457). -/
def portRetrain (p : Nat) (s : State) : State :=
  let k := s.frzPort p
  let recent := k.retrains.filter (fun t => decide (s.time < t + 10000000000))
  if 3 ≤ recent.length then portDown p .failed s
  else portDown p .retrain (s.modFrzPort p (fun k => { k with retrains := s.time :: recent }))

/-- A port enabled or disabled (OD 0x601p.09). -/
def portEnable (p : Nat) (en : Bool) (s : State) : State :=
  let k := s.frzPort p
  if !en then (if k.state = .disabled then s else portDown p .disabled s)
  else if k.state = .disabled then setFrz p .detect (s.modFrzPort p (fun k => { k with attempts := 0, retrains := [] }))
  else s

-- Handshake (R458, R460).

/-- Is the part able to pass HANDSHAKE: a key store with a usable anchor slot? -/
def anchorUsable (s : State) : Bool :=
  let k := s.slot (s.cfg 0x6001 1)
  ksState s = 1 && k.state = .active && k.tenant = 0 && bit k.usage 19

/-- Link keys (R458): both directions' keys and IVs, as (transmit, receive). -/
def linkKeys (s : State) (own : FrzPort) (nonce pub cap : Bytes) : (Bytes × Bytes) × (Bytes × Bytes) :=
  let mine := serialBytes s
  let theirs := cap.take 8
  let low := decide (leNat mine < leNat theirs)
  let secret := pkAgree 4 own.myEph pub
  let k := if low then hkdf secret (own.myNonce ++ nonce) (ascii "AX9640 frieze" ++ mine ++ theirs) 72
    else hkdf secret (nonce ++ own.myNonce) (ascii "AX9640 frieze" ++ theirs ++ mine) 72
  let a := (slice k 0 32, slice k 64 4)
  let b := (slice k 32 32, slice k 68 4)
  if low then (a, b) else (b, a)

/-- PORT_SIGNAL_DETECT: DETECT begins training. -/
def execPortSignalDetect (p : Nat) (s : State) : Res :=
  .next (if p < 3 && (s.frzPort p).state = .detect then setFrz p .train s else s)

/-- TRAINING_COMPLETE: `ber`: the estimated bit error ratio is good on each lane; `loss`: channel loss of the lanes,
0.1 dB. A lane above 30 dB fails the attempt. -/
def execTrainingComplete (p : Nat) (ber : Bool) (loss : List Nat) (s : State) : Res :=
  .next (
    let k := s.frzPort p
    if 3 ≤ p || !(k.state = .train || k.state = .retrain) then s
    else
      let s := s.modFrzPort p (fun k => { k with loss := loss.map (fun v => BitVec.ofNat 8 (Nat.min 255 v)) })
      if !ber || loss.any (fun v => decide (300 < v)) then attemptFailed p s else setFrz p .align s)

/-- ALIGN_LOCK: HANDSHAKE begins with the part's LHELLO. -/
def execAlignLock (p : Nat) (s : State) : Res :=
  .next (if p < 3 && (s.frzPort p).state = .align then sendLhello p (setFrz p .handshake s) else s)

/-- A message of a type has been consumed: the first one in the port's buffers leaves them and its credits return. -/
def consume (p mtype : Nat) (s : State) : State :=
  s.modFrzPort p (fun k => match k.inbox.find? (fun m => m.mtype = mtype) with
    | some m => { k with inbox := k.inbox.erase m, freed := tset 0 k.freed m.vc (tget 0 k.freed m.vc + m.flits) }
    | none => k)

/-- LHELLO: nonce, ephemeral key, capability record, chain, the leaf key of the chain, whether the chain verifies up to
a key, and the signature. On a port in service its keys take effect at the next epoch (R459). -/
def lhelloIn (p : Nat) (nonce pub cap chain leaf anchor sig : Bytes) (chainOk : Bool) (s : State) : State :=
  let s := consume p 0x24 s
  let k := s.frzPort p
  let good := anchorUsable s && chainOk && (s.slot (s.cfg 0x6001 1)).pub = anchor &&
    pkVerify 2 2 false leaf (sha384 (lhelloBody nonce pub cap chain)) [] sig
  if k.state = .handshake then
    if !good then portDown p .detect s
    else
      let ((tk, ti), (rk, ri)) := linkKeys s k nonce pub cap
      setFrz p .measure (s.modFrzPort p (fun k =>
        { k.cleared with txKey := tk, txIv := ti, rxKey := rk, rxIv := ri, cap := padTo 64 cap, delays := [], offsets := [] }))
  else if k.state = .up || k.state = .held then
    if good then
      let ((tk, _), (rk, _)) := linkKeys s k nonce pub cap
      s.modFrzPort p (fun k => { k with nextTxKey := tk, nextRxKey := rk })
    else s
  else s

def execLhello (p : Nat) (nonce pub cap chain leaf anchor sig : Bytes) (chainOk : Bool) (s : State) : Res :=
  .next (if p < 3 then lhelloIn p nonce pub cap chain leaf anchor sig chainOk s else s)

-- Joining (R465).

/-- The first failing condition of Table 14-8; 0 when the port may join. -/
def joinResult (s : State) (p : Nat) : Nat :=
  let k := s.frzPort p
  let cost := 2 * (600000 + dC k)
  let theirs := partnerAddr k
  let others := (routes s).filter (fun e => match tfind s.frz.topo e.1 with
    | some t => t.serial != k.cap.take 8
    | none => true)
  let joined := s.modFrzPort p (fun k => { k with state := .up })
  let joined := if (tfind joined.frz.topo theirs).isSome then joined
    else
      let t : Topo := { serial := k.cap.take 8, addr := theirs, links := [(partAddr s, dC k)], diamBudget := leAt k.cap 32 4 }
      joined.modFrz (fun f => { f with topo := tput f.topo theirs t })
  let budget := ((routes joined).map (fun e => match tfind joined.frz.topo e.1 with | some t => t.diamBudget | none => leAt k.cap 32 4)).foldl
    Nat.min (Nat.min (s.cfg 0x6002 1) (leAt k.cap 32 4))
  let b := selectedBank s
  let inRange (r : Nat) : Bool := b.compatMin ≤ r && r ≤ b.compatMax
  if s.cfg 0x6002 2 * 1000 < cost || leAt k.cap 28 4 * 1000 < cost then 1
  else if budget * 1000000 < diameterPs joined then 2
  else if theirs = partAddr s || others.any (fun e => e.1 = theirs) then 3
  else if leAt k.cap 12 4 != s.cfg 0x6000 2 then 4
  else if 4096 < topoParts joined then 6
  else if !inRange (leAt k.cap 36 4) || !inRange b.release then 7
  else 0

/-- At its first join of a boot, before service, the part steps its counter to the upstream time (R468). -/
def stepTime (p : Nat) (s : State) : State :=
  if s.frz.stepped || 8 < s.life.step || s.frz.timeMaster = partAddr s || upstream s != some p then s
  else
    let o := (s.frzPort p).offset
    let s := s.modLife (fun l => { l with bootAt := l.bootAt + o.toNat, waitSince := l.waitSince + o.toNat })
    { s.modFrz (fun f => { f with stepped := true }) with time := s.time + o.toNat }

/-- Addresses of the replication domain (OD 0x6006.01). -/
def domainList (s : State) : List Nat := (records 2 (s.octets 0x6006 1).length (s.octets 0x6006 1)).map (fun b => leAt b 0 2)

/-- SYNC of a tenant: its record and the version of the DOMAIN entry; the spec gives no layout. -/
def syncBytes (s : State) (t : Nat) : Bytes :=
  leBytes 2 t ++ leBytes 4 (s.tenant t).version ++ leBytes 4 s.mgmt.domVer ++ s.octets 0x6006 1 ++
  ((s.ks.slots.filter (fun e => e.2.tenant = t && e.2.replicated)).map (fun e => leBytes 4 e.1 ++ leBytes 4 e.2.version)).flatten

/-- A member that joins or rejoins a topology holds its replicated tenants until they are compared with a neighbour's
(R294, R479). -/
def startSync (p : Nat) (s : State) : State :=
  if !(domainList s).contains (partAddr s) then s
  else
    let ts := (s.ks.tenants.filter (fun e => e.2.replicated)).map (fun e => e.1)
    let s := ts.foldl (fun s t => s.setTenant t { s.tenant t with resync := true }) s
    ts.foldl (fun s t => frzSend p 2 0x18 (partnerAddr (s.frzPort p)) (syncBytes s t) s) s

/-- The join decision of a port in MEASURE or HELD: UP, or HELD with its reason. -/
def joinPort (p : Nat) (s : State) : State :=
  let r := joinResult s p
  let s' := s.modFrzPort p (fun k => { k with join := r, attempts := 0 })
  if r = 0 then partnerJoined (startSync p (stepTime p (linksChanged s (setFrz p .up s')))) else if (s.frzPort p).state = .held then s' else setFrz p .held s'

/-- Recheck HELD ports, and conditions 1 and 2 of UP ports, after a change of the database or the settings. -/
def recheckPorts (s : State) : State :=
  (List.range 3).foldl (fun s p =>
    match (s.frzPort p).state with
    | .held => joinPort p s
    | .up =>
      let r := joinResult s p
      if r = 1 || r = 2 then linksChanged s (setFrz p .held (s.modFrzPort p (fun k => { k with join := r }))) else s
    | _ => s) s

/-- MEASURE_COMPLETE: the 16 exchanges have ended; a link above 5,000 ns fails. -/
def execMeasureComplete (p : Nat) (s : State) : Res :=
  .next (
    let k := s.frzPort p
    if 3 ≤ p || k.state != .measure || k.exchanges < 16 then s
    else if 5000000 < dC k then portDown p .failed s
    else joinPort p s)

/-- Limit of a bring-up step, ns (Table 14-5). -/
def stepLimit : PortState → Option Nat
  | .train => some 300000000
  | .retrain => some 310000000
  | .align => some 10000000
  | .handshake => some 10000000
  | .measure => some 20000000
  | _ => none

def execBringupStepTimeout (p : Nat) (s : State) : Res :=
  .next (
    match stepLimit (s.frzPort p).state with
    | some t => if p < 3 && decide ((s.frzPort p).enteredAt + t ≤ s.time) then attemptFailed p s else s
    | none => s)

def execLaneLossOfLock (p : Nat) (s : State) : Res :=
  .next (if p < 3 && ((s.frzPort p).state = .up || (s.frzPort p).state = .held) then portRetrain p s else s)

-- Link keys in service (R459).

/-- The next key of a direction. -/
def nextKey (key fresh : Bytes) (epoch : Nat) : Bytes :=
  if fresh.isEmpty then hkdf key [] (ascii "AX9640 frieze rekey" ++ leBytes 1 epoch) 32 else fresh

/-- LINK_REKEY: the sender's next epoch, after 2^31 link blocks. -/
def execLinkRekey (p : Nat) (s : State) : Res :=
  .next (
    let k := s.frzPort p
    if 3 ≤ p || k.txKey.isEmpty || k.txSeq < 2 ^ 31 then s
    else s.modFrzPort p (fun k =>
      { k with txEpoch := k.txEpoch + 1, txKey := nextKey k.txKey k.nextTxKey ((k.txEpoch + 1) % 256), nextTxKey := [], txSeq := 0, sent := [] }))

/-- LHELLO_REFRESH: the exchange of every 24 h, on VC2. -/
def execLhelloRefresh (p : Nat) (s : State) : Res :=
  .next (if p < 3 && ((s.frzPort p).state = .up || (s.frzPort p).state = .held) then sendLhello p s else s)

-- Device time (R461, R467).

/-- The mean of the last 16 values of a measurement. -/
def meanNat (l : List Nat) : Nat := if l.isEmpty then 0 else l.sum / l.length
def meanInt (l : List Int) : Int := if l.isEmpty then 0 else l.sum / l.length

/-- One time exchange with the partner: t1 sent here, t2 received there, t3 sent there, t4 received here. -/
def timeIn (p : Nat) (t1 t2 t3 t4 : Nat) (s : State) : State :=
  let s := consume p 0x21 s
  let k := s.frzPort p
  match k.state with
  | .measure | .up | .held =>
    let a : Int := (t2 : Int) - t1
    let b : Int := (t4 : Int) - t3
    let delays := (((a + b) * 500).toNat :: k.delays).take 16
    let offsets := ((a - b) / 2 :: k.offsets).take 16
    let s := s.modFrzPort p (fun k =>
      { k with delays := delays, offsets := offsets, delay := meanNat delays, offset := meanInt offsets, exchanges := k.exchanges + 1 })
    let s := timeUpdate s
    if k.state != .measure && decide (5000000 < dC (s.frzPort p)) then portDown p .failed s else s
  | _ => s

def execTime (p t1 t2 t3 t4 : Nat) (s : State) : Res := .next (if p < 3 then timeIn p t1 t2 t3 t4 s else s)

/-- TIME_EXCHANGE_TIMER: an exchange every 1 ms, every 100 µs while the link is measured. -/
def execTimeExchangeTimer (p : Nat) (s : State) : Res :=
  .next (
    let k := s.frzPort p
    let due (n : Nat) : Bool := decide (k.lastExchange + n ≤ s.time)
    if p < 3 && (((k.state = .up || k.state = .held) && due 1000000) || (k.state = .measure && due 100000)) then
      frzSend p 0 0x21 (partnerAddr k) (leBytes 8 s.time ++ zeros 24) (s.modFrzPort p (fun k => { k with lastExchange := s.time }))
    else s)

-- Topology (R464).

/-- A TOPO message: newer than the one held, it updates the database, floods on, and conditions are rechecked. -/
def topoIn (p : Nat) (t : Topo) (s : State) : State :=
  let s := consume p 0x23 s
  let known := match tfind s.frz.topo t.addr with | some o => t.seq ≤ o.seq | none => false
  if t.addr = partAddr s || known then s
  else
    let s' := s.modFrz (fun f => { f with topo := tput f.topo t.addr t })
    let s' := (List.range 3).foldl (fun s q =>
      if q != p && ((s.frzPort q).state = .up || (s.frzPort q).state = .held) then frzSend q 2 0x23 0xFFF t.bytes s else s) s'
    recheckPorts (timeUpdate (pruneAdverts (linksLost s s')))

def execTopo (p : Nat) (t : Topo) (s : State) : Res := .next (topoIn p t s)

def execTopoTimer (s : State) : Res := .next (if s.frz.lastTopo + 10000000000 ≤ s.time then sendTopo s else s)

-- Adverts (R470).

/-- Tenants that C0 credit through a port serves (OD 0x6028.01): a later record of a tenant replaces an earlier one. -/
def creditTenants (s : State) (p : Nat) : List Nat :=
  let rs := (records 8 (s.octets 0x6028 1).length (s.octets 0x6028 1)).map (fun r => (leAt r 0 2, leAt r 2 1))
  let last := rs.foldl (fun (t : Tab Nat) r => tput t r.1 r.2) []
  (last.filter (fun e => bit e.2 p)).map (fun e => e.1)

/-- Spilled requests of C1 to C3 that the part holds from a port. -/
def heldFrom (s : State) (p : Nat) : Nat :=
  (s.reqs.filter (fun e => (match e.2.via with | .frieze q => q = p | _ => false) && !e.2.within)).length

/-- The part's ADVERT for a port. -/
def ownAdvert (s : State) (p : Nat) : Advert :=
  let n := s.cfg (0x6020 + p) 3 - heldFrom s p
  let c0 := timeGood s p
  { addr := partAddr s, links := 1, port := p, c1 := n, c2 := n, c3 := n, c0Rate := if c0 then s.cfg (0x6020 + p) 1 else 0,
    c0Depth := if c0 then s.cfg (0x6020 + p) 2 else 0, tenants := if c0 then creditTenants s p else [] }

/-- An ADVERT's bytes; the spec lists its content and not its layout. -/
def Advert.bytes (a : Advert) : Bytes :=
  leBytes 2 a.addr ++ leBytes 1 a.links ++ leBytes 4 a.c1 ++ leBytes 4 a.c2 ++ leBytes 4 a.c3 ++ leBytes 4 a.c0Rate ++
  leBytes 4 a.c0Depth ++ (a.tenants.map (leBytes 2)).flatten

/-- An ADVERT arrives: the credit known for that part, and its relay for C1 to C3 within the hop limit. -/
def advertIn (p : Nat) (a : Advert) (s : State) : State :=
  let s := consume p 0x22 s
  if (s.frzPort p).state != .up || a.addr = partAddr s then s
  else
    let a := { a with port := p, c0Rate := if a.links = 1 then a.c0Rate else 0, c0Depth := if a.links = 1 then a.c0Depth else 0 }
    let old := s.frz.adverts.find? (fun x => x.addr = a.addr)
    if (match old with | some o => decide (o.links < a.links) && o.port != p | none => false) then s
    else
      let grew := match old with | some o => o.c0Depth != a.c0Depth | none => true
      let s := s.modFrz (fun f => { f with adverts := f.adverts.filter (fun x => x.addr != a.addr) ++ [a] })
      let s := if a.links = 1 && grew then s.modFrzPort p (fun k => { k with outLevel := a.c0Depth * 65536, outLast := s.time }) else s
      if a.links < s.cfg 0x4003 5 then
        flood 2 0x22 { a with links := a.links + 1, c0Rate := 0, c0Depth := 0, tenants := [] }.bytes (some p) s
      else s

def execAdvert (p : Nat) (a : Advert) (s : State) : Res := .next (advertIn p a s)

def execAdvertTimer (s : State) : Res :=
  .next ((upPorts s).foldl (fun s p => frzSend p 2 0x22 (partnerAddr (s.frzPort p)) (ownAdvert s p).bytes s) s)

-- Link blocks (R452 to R455).

/-- Return buffer credits of a block's CREDIT field; a port holds at most 512 for a channel. -/
def takeCredits (c : Nat) (k : FrzPort) : FrzPort :=
  { k with credits := (List.range 4).foldl (fun t v => tset 512 t v (Nat.min 512 (tget 512 t v + bits c (16 * v + 15) (16 * v)))) k.credits }

/-- LACK: blocks received in order leave the replay buffer. -/
def takeAck (lack : Nat) (k : FrzPort) : FrzPort := { k with sent := k.sent.filter (fun e => decide (lack < e.lseq)) }

/-- Set REPLAYED in the envelope of a VC1 message (R473). -/
def markReplayed (m : FrzMsg) : FrzMsg :=
  if m.vc = 1 && m.mtype ≤ 3 then
    { m with data := m.data.take 2 ++ [BitVec.ofNat 8 (leAt m.data 2 1 ||| 4)] ++ m.data.drop 3 }
  else m

/-- NAK: the sender sends again what is not acknowledged. -/
def replayPort (p : Nat) (s : State) : State :=
  let s := bump 0x9068 3 0 (s.modFrzPort p (fun k => { k with sent := k.sent.map (fun e => { e with msg := markReplayed e.msg }) }))
  (s.frzPort p).sent.foldl (fun s e => emit (.frieze p e.msg.vc e.msg.mtype e.msg.data) s) s

/-- Send on a message of another part (R454, R464). -/
def relayMsg (m : FrzMsg) (src ttl : Nat) (s : State) : State :=
  match routePort s m.dst with
  | none => s
  | some q =>
    let k := s.frzPort q
    pumpPort q (k.waiting.length + 2) (s.setFrzPort q { k with waiting := k.waiting ++ [{ m with relay := some (src, ttl - 1) }] })

/-- A whole message has arrived: for this part or flooded, it waits in the port's buffers; for another part it goes on,
where its type is relayed and its TTL allows. -/
def messageArrived (p dst ttl : Nat) (r : Rcvd) (s : State) : State :=
  if dst = partAddr s || dst = 0xFFF || r.mtype = 0x24 || r.mtype = 0x21 || r.mtype = 0x08 then
    s.modFrzPort p (fun k => { k with inbox := k.inbox ++ [r] })
  else
    let s := s.modFrzPort p (fun k => { k with freed := tset 0 k.freed r.vc (tget 0 k.freed r.vc + r.flits) })
    if ttl = 0 || r.vc < 2 then s
    else relayMsg { vc := r.vc, mtype := r.mtype, dst := dst, data := r.data } r.src ttl s

/-- One flit (Table 14-2). -/
def flitIn (p : Nat) (onlyHello : Bool) (f : Bytes) (s : State) : State :=
  let h := leAt f 0 8
  let vc := bits h 63 62
  let mtype := bits h 61 56
  let body := slice f 8 (bits h 53 48)
  if onlyHello && mtype != 0x24 then s
  else
    let k := s.frzPort p
    let cur := k.partials.find? (fun r => r.vc = vc)
    let r : Rcvd := match bit h 55, cur with
      | false, some r => { r with flits := r.flits + 1, data := r.data ++ body }
      | _, _ => { vc := vc, mtype := mtype, src := bits h 35 24, flits := 1, data := body, since := s.time }
    let rest := k.partials.filter (fun x => x.vc != vc)
    if bit h 54 then messageArrived p (bits h 47 36) (bits h 7 0) r (s.setFrzPort p { k with partials := rest })
    else s.setFrzPort p { k with partials := rest ++ [r] }

/-- The content of a block that passed its checks. -/
def blockContent (p : Nat) (onlyHello : Bool) (head slots : Bytes) (s : State) : State :=
  let k := s.frzPort p
  let s := s.setFrzPort p { takeCredits (leAt head 16 8) (takeAck (leAt head 8 8) k) with rxSeq := leAt head 0 8, nak := false }
  let s := if bit (leAt head 26 1) 0 then replayPort p s else s
  let map := leAt head 24 2
  let s := ((List.range 9).filter (fun i => bit map i)).foldl (fun s i => flitIn p onlyHello (slice slots (64 * i) 64) s) s
  pumpPort p ((s.frzPort p).waiting.length + 1) s

/-- The receive key for a block's KEPOCH: the current one, the next (which then becomes current), or the one before,
while it is kept (R459). -/
def epochKey (k : FrzPort) (kepoch : Nat) : Option (Bytes × FrzPort) :=
  if kepoch = k.rxEpoch % 256 then some (k.rxKey, if k.oldRxLeft = 0 then k else { k with oldRxLeft := k.oldRxLeft - 1 })
  else if kepoch = (k.rxEpoch + 1) % 256 then
    let key := nextKey k.rxKey k.nextRxKey kepoch
    some (key, { k with rxEpoch := k.rxEpoch + 1, rxKey := key, nextRxKey := [], oldRxKey := k.rxKey, oldRxLeft := 1024, rxSeq := 0 })
  else if kepoch + 1 = k.rxEpoch % 256 && k.oldRxLeft != 0 then some (k.oldRxKey, k)
  else none

/-- LINK_BLOCK: a codeword of port `p`; `fec`: 0 correct, 1 corrected, 2 not correctable. -/
def linkBlock (p fec : Nat) (block : Bytes) (s : State) : State :=
  let k := s.frzPort p
  let hs := k.state = .handshake
  if !(hs || k.state = .measure || k.state = .up || k.state = .held) then s
  else if 2 ≤ fec then
    let s := bump 0x9068 2 0 (s.modFrzPort p (fun k => { k with nak := true }))
    let (s, lasting) := countFault 0x0B p 0 s
    if lasting then portRetrain p s else s
  else
    let s := if fec = 1 then bump 0x9068 1 0 s else s
    let head := block.take 48
    let tag := slice block 624 16
    let lseq := leAt head 0 8
    if hs then
      if allZero tag && lseq = k.rxSeq + 1 then blockContent p true head (slice block 48 576) s else s
    else
      match epochKey k (leAt head 27 1) with
      | none => s.modFrzPort p (fun k => { k with nak := true })
      | some (key, k') =>
        let iv := k.rxIv ++ leBytes 8 lseq
        let ct := slice block 48 576
        if gcmTag key iv head ct != tag then
          portRetrain p (raiseAlarm 0x18 (leBytes 1 p) (bump 0x9068 4 0 s))
        else if lseq != k'.rxSeq + 1 then s
        else blockContent p false head (gcmCrypt key iv ct) (s.setFrzPort p k')

def execLinkBlock (p fec : Nat) (block : Bytes) (s : State) : Res := .next (if p < 3 then linkBlock p fec block s else s)

end Sys2Proof.Machine
end

