-- ==== Sys2Proof/Machine/Risk.lean ====
section
/-! DEFINITION. Risk scoring (chapter 04): the reading and validation of a model body (R150 to R153, R160 to
R164), the input record (R148), the arithmetic (R154 to R156), features (R159), stages (R161 to R163) and
the score (R165). -/

namespace Sys2Proof.Machine

-- Arithmetic.

/-- Two's complement value of a little-endian field of `n` bytes. -/
def leInt (b : Bytes) (off n : Nat) : Int :=
  let v := leAt b off n
  if v < 2 ^ (8 * n - 1) then (v : Int) else (v : Int) - 2 ^ (8 * n)

/-- round(a, k) of R155, k at least 1. -/
def roundShift (rounding : Nat) (a : Int) (k : Nat) : Int :=
  let q := a / 2 ^ k
  let r := a - q * 2 ^ k
  let h : Int := 2 ^ (k - 1)
  if rounding = 0 then if h < r || (r = h && q % 2 = 1) then q + 1 else q
  else if rounding = 1 then if h < r || (r = h && decide (0 ≤ a)) then q + 1 else q
  else q

/-- Limit a value to `n` bits two's complement (R156): the value, and whether it changed. -/
def satTo (n : Nat) (a : Int) : Int × Bool :=
  let hi : Int := 2 ^ (n - 1) - 1
  let lo : Int := -2 ^ (n - 1)
  if hi < a then (hi, true) else if a < lo then (lo, true) else (a, false)

-- Features (R149, R158, R159).

/-- The BCD nibbles that a feature reads. -/
def bcdNibbles (width off : Nat) (rec : Bytes) : List Nat := (nibbles (slice rec off ((width + 1) / 2))).take width

def Feature.bytes (f : Feature) : Nat := if f.kind = 3 then (f.width + 1) / 2 else if f.kind = 4 then 1 else f.width

/-- Is a feature present in a record of RISK_LEN bytes of fields? -/
def Feature.present (f : Feature) (rec : Bytes) (riskLen : Nat) : Bool :=
  f.offset + f.bytes ≤ 64 + riskLen && (f.kind != 3 || (bcdNibbles f.width f.offset rec).all (· ≤ 9))

/-- SHIFT as a signed number (I8). -/
def Feature.shiftInt (f : Feature) : Int := if f.shift < 128 then f.shift else (f.shift : Int) - 256

/-- The raw value. -/
def Feature.raw (f : Feature) (rec : Bytes) : Int :=
  match f.kind with
  | 1 => leAt rec f.offset f.width
  | 2 => leInt rec f.offset f.width
  | 3 => (bcdNibbles f.width f.offset rec).foldl (fun (v : Int) (d : Nat) => v * 10 + (d : Int)) 0
  | _ => b2n (bit (leAt rec f.offset 1) f.width)

/-- A feature's value, and whether a saturation changed one. -/
def Feature.value (f : Feature) (rounding : Nat) (rec : Bytes) (riskLen : Nat) : Int × Bool :=
  if !f.present rec riskLen then (f.dflt, false)
  else
    let (v, c1) := satTo 64 (f.raw rec)
    let (d, c2) := satTo 64 (v - f.bias)
    let sh := f.shiftInt
    let (x, c3) := satTo 32 (if 0 ≤ sh then d * 2 ^ sh.toNat else roundShift rounding d (-sh).toNat)
    (x, c1 || c2 || c3)

-- Stages.

/-- An output after ACT. -/
def relu (act : Nat) (y : Int) : Int := if act = 1 && decide (y < 0) then 0 else y

/-- One output of a LINEAR stage (R161). -/
def linearOut (rounding wfmt act : Nat) (v : List Int) (inputs : List Nat) (bias : Int) (ws : List Int) : Int × Bool :=
  let terms := List.zip inputs ws
  let st := terms.foldl (fun (a : Int × Bool) (e : Nat × Int) =>
    let p := e.2 * v.getD e.1 0 * (if wfmt = 0 then 2 ^ 17 else 2)
    let (acc, c) := satTo 72 (a.1 + p)
    (acc, a.2 || c)) (bias * 2 ^ 32, false)
  let (y, c) := satTo 32 (roundShift rounding st.1 32)
  (relu act y, st.2 || c)

/-- One element of a PWL stage (R162). -/
def pwlOut (rounding n : Nat) (table : List Int) (x : Int) : Int × Bool :=
  let u : Nat := (x + 2 ^ 31).toNat
  let idx : Nat := u / 2 ^ (32 - n)
  let frac : Nat := u - idx * 2 ^ (32 - n)
  let t0 : Int := table.getD idx 0
  let t1 : Int := table.getD (idx + 1) 0
  satTo 32 (t0 + roundShift rounding ((t1 - t0) * ((frac : Nat) : Int)) (32 - n))

/-- Walk a tree for `depth` steps from a node; a leaf holds its place (R163). -/
def treeWalk (v : List Int) (nodes : List TreeNode) : Nat → Nat → Nat
  | 0, i => i
  | d + 1, i =>
    match nodes[i]? with
    | none => i
    | some k =>
      if k.src = 0xFFFF then treeWalk v nodes d i
      else treeWalk v nodes d (if v.getD k.src 0 < k.value then k.left else k.right)

/-- The output of a TREES stage (R163). -/
def treesOut (rounding act : Nat) (base : Int) (trees : List (Nat × List TreeNode)) (v : List Int) : Int × Bool :=
  let st := trees.foldl (fun (a : Int × Bool) (t : Nat × List TreeNode) =>
    let leaf := (t.2.getD (treeWalk v t.2 t.1 0) { src := 0xFFFF, left := 0, right := 0, value := 0 }).value
    let (acc, c) := satTo 72 (a.1 + leaf * 2 ^ 32)
    (acc, a.2 || c)) (base * 2 ^ 32, false)
  let (y, c) := satTo 32 (roundShift rounding st.1 32)
  (relu act y, st.2 || c)

/-- The outputs of a stage on the values so far. -/
def RiskStage.run (st : RiskStage) (rounding : Nat) (v : List Int) : List (Int × Bool) :=
  match st with
  | .linear wfmt act inputs bias weights => (List.zip bias weights).map (fun e => linearOut rounding wfmt act v inputs e.1 e.2)
  | .pwl n inputs table => inputs.map (fun i => pwlOut rounding n table (v.getD i 0))
  | .trees act base ts => [treesOut rounding act base ts v]

/-- Values of the store in index order, and the saturation flag (R158, R160). -/
def Model.values (m : Model) (rec : Bytes) (riskLen : Nat) : List Int × Bool :=
  let fs := m.features.map (fun f => f.value m.rounding rec riskLen)
  let start : List Int × Bool := (fs.map (fun e => e.1), fs.any (fun e => e.2))
  m.stages.foldl (fun a st =>
    let out := st.run m.rounding a.1
    (a.1 ++ out.map (fun e => e.1), a.2 || out.any (fun e => e.2))) start

/-- The score (R165) and the evaluation's saturation flag. -/
def Model.score (m : Model) (rec : Bytes) (riskLen : Nat) : Int × Bool :=
  let (v, c) := m.values rec riskLen
  let (y, c') := satTo 16 (roundShift m.rounding (v.getD m.outputIndex 0) 16)
  (y, c || c')

-- The input record (Table 04-1).

/-- The 576-byte record of a bundle. -/
def inputRecord (pan : List Nat) (psn atc arqc pin mac alg tenant : Nat) (fields : Bytes) : Bytes :=
  leBytes 1 pan.length ++ leBytes 1 psn ++ leBytes 2 atc ++ leBytes 1 arqc ++ leBytes 1 pin ++ leBytes 1 mac ++ leBytes 1 alg ++
  leBytes 2 tenant ++ leBytes 2 fields.length ++ zeros 4 ++
  ((pan.map (fun d => BitVec.ofNat 8 d)) ++ List.replicate 19 (0xFF : Byte)).take 19 ++ zeros 29 ++ padTo 512 fields

-- Reading a model body (R150, R153, R158, R160).

/-- Smallest multiple of 8 not below `n`. -/
def pad8 (n : Nat) : Nat := (n + 7) / 8 * 8

/-- A list of `n` little-endian U16 values at an offset. -/
def u16List (b : Bytes) (off n : Nat) : List Nat := (List.range n).map (fun i => leAt b (off + 2 * i) 2)
/-- A list of `n` two's complement values of `w` bytes at an offset. -/
def intList (b : Bytes) (off w n : Nat) : List Int := (List.range n).map (fun i => leInt b (off + w * i) w)

/-- A feature descriptor and its structural check (Table 04-4). -/
def readFeature (b : Bytes) : Option Feature :=
  let f : Feature := { kind := leAt b 0 1, width := leAt b 1 1, offset := leAt b 2 2, shift := leAt b 4 1, bias := leInt b 8 8,
                       dflt := leInt b 16 4 }
  let widthOk := match f.kind with
    | 1 | 2 => f.width = 1 || f.width = 2 || f.width = 4 || f.width = 8
    | 3 => 1 ≤ f.width && f.width ≤ 18
    | 4 => f.width ≤ 7
    | _ => false
  if widthOk && allZero (slice b 5 3) && leAt b 20 4 = 0 && decide (-63 ≤ f.shiftInt) && decide (f.shiftInt ≤ 31) &&
      f.offset + f.bytes ≤ 576 then some f
  else none

/-- Is every path from a node within `d` internal nodes (R163)? -/
def depthOk (nodes : List TreeNode) : Nat → Nat → Bool
  | 0, i => match nodes[i]? with | some k => k.src = 0xFFFF | none => false
  | d + 1, i =>
    match nodes[i]? with
    | none => false
    | some k => k.src = 0xFFFF || (depthOk nodes d k.left && depthOk nodes d k.right)

def readNode (b : Bytes) : TreeNode :=
  { src := leAt b 0 2, left := leAt b 2 2, right := leAt b 4 2, value := leInt b 8 4 }

/-- Trees at an offset of the parameter area; none where one fails its checks. -/
def readTrees (p : Bytes) (firstOut : Nat) : Nat → Nat → Option (List (Nat × List TreeNode))
  | 0, _ => some []
  | t + 1, off =>
    let n := leAt p off 2
    let d := leAt p (off + 2) 2
    let recs := (List.range n).map (fun i => slice p (off + 8 + 12 * i) 12)
    let nodes := recs.map readNode
    let nodeOk (i : Nat) (k : TreeNode) : Bool :=
      if k.src = 0xFFFF then k.left = 0 && k.right = 0
      else k.src < firstOut && i < k.left && k.left < n && i < k.right && k.right < n
    if n = 0 || 511 < n || d = 0 || 16 < d || leAt p (off + 4) 4 != 0 || !recs.all (fun r => leAt r 6 2 = 0) ||
        !(List.zip (List.range n) nodes).all (fun e => nodeOk e.1 e.2) || !depthOk nodes d 0 ||
        !allZero (slice p (off + 8 + 12 * n) (pad8 (12 * n) - 12 * n)) then none
    else
      match readTrees p firstOut t (off + 8 + pad8 (12 * n)) with
      | some r => some ((d, nodes) :: r)
      | none => none

/-- Bytes of the trees' parameters, from BASE on. -/
def treesBytes (ts : List (Nat × List TreeNode)) : Nat := 8 + (ts.map (fun t => 8 + pad8 (12 * t.2.length))).sum

/-- A stage descriptor with its parameters; the answer is the stage, its outputs and its cost term (R160 to
R164). -/
def readStage (d p : Bytes) (firstOut : Nat) : Option (RiskStage × Nat × Nat) :=
  let wfmt := leAt d 1 1
  let act := leAt d 2 1
  let n := leAt d 3 1
  let nIn := leAt d 4 2
  let nOut := leAt d 6 2
  let off := leAt d 8 4
  let inputs := u16List p off nIn
  let inOk := inputs.all (· < firstOut) && allZero (slice p (off + 2 * nIn) (pad8 (2 * nIn) - 2 * nIn))
  if leAt d 12 4 != 0 || 1 < act || off % 8 != 0 then none
  else
    match leAt d 0 1 with
    | 1 =>
      let w := if wfmt = 0 then 2 else 4
      let o1 := off + pad8 (2 * nIn)
      let o2 := o1 + pad8 (4 * nOut)
      let size := w * nIn * nOut
      if 1 < wfmt || n != 0 || nIn = 0 || 256 < nIn || nOut = 0 || 64 < nOut || !inOk || p.length < o2 + pad8 size ||
          !allZero (slice p (o1 + 4 * nOut) (pad8 (4 * nOut) - 4 * nOut)) || !allZero (slice p (o2 + size) (pad8 size - size)) then none
      else some (.linear wfmt act inputs (intList p o1 4 nOut) ((List.range nOut).map (fun j => intList p (o2 + w * nIn * j) w nIn)),
                 nOut, 20 + nOut * (8 + nIn))
    | 2 =>
      let o1 := off + pad8 (2 * nIn)
      let size := 4 * (2 ^ n + 1)
      if wfmt != 0 || act != 0 || n = 0 || 8 < n || nIn = 0 || 256 < nIn || nOut != nIn || !inOk || p.length < o1 + pad8 size ||
          !allZero (slice p (o1 + size) (pad8 size - size)) then none
      else some (.pwl n inputs (intList p o1 4 (2 ^ n + 1)), nIn, 10 + 14 * nIn)
    | 3 =>
      if wfmt != 0 || n != 0 || nIn = 0 || 256 < nIn || nOut != 1 || leAt p (off + 4) 4 != 0 then none
      else
        match readTrees p firstOut nIn (off + 8) with
        | none => none
        | some ts =>
          if p.length < off + treesBytes ts then none
          else some (.trees act (leInt p off 4) ts, 1, 10 + (ts.map (fun t => 6 + 5 * t.1)).sum)
    | _ => none

/-- The stage table: stages, values after it and the sum of the cost terms. -/
def readStages (p : Bytes) : List Bytes → Nat → Option (List RiskStage × Nat × Nat)
  | [], nv => some ([], nv, 0)
  | d :: t, nv =>
    match readStage d p nv with
    | none => none
    | some (st, k, c) =>
      match readStages p t (nv + k) with
      | none => none
      | some (r, nv', c') => some (st :: r, nv', c + c')

/-- Every element's image, or none where one has none. -/
def allSome {α β : Type} (f : α → Option β) : List α → Option (List β)
  | [] => some []
  | x :: t => match f x, allSome f t with | some y, some r => some (y :: r) | _, _ => none

/-- Validate a model body (R153): MODEL_ID and the model. `imageBytes`: bytes of the whole image. -/
def readModel (b : Bytes) (imageBytes : Nat) : Option (Nat × Model) :=
  let nf := leAt b 10 2
  let ns := leAt b 12 2
  let nv := leAt b 14 2
  let flags := leAt b 6 1
  let oS := 64 + 24 * nf
  let oP := oS + 16 * ns
  let pb := leAt b 24 4
  if slice b 0 4 != [0x41, 0x58, 0x52, 0x4D] || leAt b 4 1 != 1 || 2 < leAt b 5 1 || 4 ≤ flags || leAt b 7 1 != 0 ||
      leAt b 8 2 = 0 || nf = 0 || 256 < nf || ns = 0 || 64 < ns || 1024 < nv || 512 < leAt b 16 2 || nv ≤ leAt b 18 2 ||
      !allZero (slice b 48 16) || b.length != oP + pb || 262144 < b.length then none
  else
    match allSome (fun i => readFeature (slice b (64 + 24 * i) 24)) (List.range nf) with
    | none => none
    | some fs =>
      match readStages (b.drop oP) ((List.range ns).map (fun i => slice b (oS + 16 * i) 16)) nf with
      | none => none
      | some (sts, nv', c) =>
        let cost := 400 + 6 * nf + c
        let budget := leAt b 20 4
        let c0 := bit flags 0
        if nv' != nv || budget < cost || (if c0 then 24000 else 400000) < budget then none
        else some (leAt b 8 2,
          { version := leAt b 28 4, rounding := leAt b 5 1, satFault := bit flags 1, c0Claim := c0, nv := nv,
            requiredLen := leAt b 16 2, outputIndex := leAt b 18 2, budget := budget, cost := cost, bodyBytes := b.length,
            imageBytes := imageBytes, features := fs, stages := sts })

end Sys2Proof.Machine
end

