-- ==== Sys2Proof/Machine/Images.lean ====
section
/-! DEFINITION. Images (16, R543 to R547): the envelope header, signatures, firmware pairs and model images. -/

namespace Sys2Proof.Machine

/-- An image cut into its parts (R543). -/
structure Envelope where
  head : Bytes
  body : Bytes
  sig : Bytes
deriving DecidableEq, Repr

def Envelope.itype (e : Envelope) : Nat := leAt e.head 5 1
def Envelope.sigs (e : Envelope) : Nat := leAt e.head 7 1
def Envelope.secver (e : Envelope) : Nat := leAt e.head 8 4
def Envelope.release (e : Envelope) : Nat := leAt e.head 12 4
def Envelope.signer (e : Envelope) : Nat := leAt e.head 32 4

/-- Bytes of the image that starts a string, once its header is there. -/
def imageLength (b : Bytes) : Option Nat := if b.length < 128 then none else some (128 + leAt b 24 4 + leAt b 28 4)

/-- The image that starts a string, and the rest. -/
def takeImage (b : Bytes) : Option (Envelope × Bytes) :=
  match imageLength b with
  | none => none
  | some n =>
    if b.length < n then none
    else some ({ head := b.take 128, body := slice b 128 (leAt b 24 4), sig := slice b (128 + leAt b 24 4) (leAt b 28 4) }, b.drop n)

/-- Header content that every image must have: magic, version, zero reserved bytes, ISA level, digest. -/
def Envelope.formatOk (e : Envelope) : Bool :=
  let h := e.head
  let fw := e.itype = 1 || e.itype = 2
  h.take 4 = [0x41, 0x58, 0x49, 0x4D] && leAt h 4 1 = 1 && (fw || e.itype = 0x10 || e.itype = 0x20) && leAt h 6 1 ≤ 1 &&
  (e.sigs = 1 || e.sigs = 3) && e.secver ≤ 32 && (fw || allZero (slice h 8 16)) && (if fw then e.signer = 0 else e.signer < 2 ^ 21) &&
  (e.itype = 0x20 || leAt h 36 2 = 0) && leAt h 38 2 = 0 && allZero (slice h 96 32) && slice h 48 48 = digest 2 e.body 0

/-- The ML-DSA and ECDSA signatures of a header. -/
def Envelope.sigOk (e : Envelope) (pkalg n : Nat) (mldsa ecdsa : Bytes) : Bool :=
  pkVerify pkalg 0 false mldsa e.head (ascii "AX9640 image") (e.sig.take n) &&
  (e.sigs = 1 || pkVerify 2 2 false ecdsa (digest 2 e.head 0) [] (slice e.sig n 96))

/-- Firmware signatures (Table 16-13b): the keys in the block match the fuses. -/
def Envelope.firmwareOk (s : State) (e : Envelope) : Bool :=
  let n := 4627
  let m := slice e.sig (n + 96) 2592
  let c := slice e.sig (n + 96 + 2592) 97
  e.formatOk && e.sigs = 3 && e.sig.length = n + 96 + 2592 + 97 &&
  digest 1 (m ++ c) 0 = leBytes 32 s.life.fuses.vendorKeyHash.toNat && e.sigOk 0x22 n m c

/-- Signatures of a model image: slots of tenant 0 with CODE_VERIFY. -/
def Envelope.modelSigOk (s : State) (e : Envelope) : Bool :=
  let key (i alg : Nat) : Option Bytes :=
    let k := s.slot i
    if k.tenant = 0 && k.state = .active && bit k.usage 20 && k.alg = alg then some k.pub else none
  match key e.signer 0x1121 with
  | none => false
  | some m =>
    e.itype = 0x10 && e.sig.length = 3309 + (if e.sigs = 3 then 96 else 0) &&
    (if e.sigs = 3 then (match key (e.signer + 1) 0x1102 with | some c => e.sigOk 0x21 3309 m c | none => false)
     else e.sigOk 0x21 3309 m [])

/-- A model image checked whole (R151, R153): MODEL_ID and the model. -/
def modelImage (s : State) (e : Envelope) : Option (Nat × Model) :=
  if e.formatOk && e.modelSigOk s then readModel e.body (128 + e.body.length + e.sig.length) else none

/-- A firmware pair (R546): the bank it makes. -/
def firmwarePair (s : State) (b : Bytes) : Option Bank :=
  match takeImage b with
  | none => none
  | some (p, rest) =>
    match takeImage rest with
    | none => none
    | some (m, left) =>
      if left = [] && p.itype = 1 && m.itype = 2 && p.release = m.release && p.secver = m.secver && p.firmwareOk s && m.firmwareOk s &&
          s.life.fuses.rollback ≤ p.secver && b.length ≤ 2883584 then
        some { state := .loaded, release := p.release, secver := p.secver,
               compatMin := Nat.max (leAt p.head 16 4) (leAt m.head 16 4), compatMax := Nat.min (leAt p.head 20 4) (leAt m.head 20 4),
               len := b.length }
      else none


end Sys2Proof.Machine
end

