-- ==== Sys2Proof/Machine/MgmtSend.lean ====
section
/-! DEFINITION. Management frames that the part sends (13, R423, R432 to R438): sealing, the three transports, replies
with their cache, CLOSE and RESET. Sessions 0 to 7 are those of the CAN channel numbers, 8 to 15 those of the
mailboxes of functions 0 to 7, 16 to 31 those that arrive over the Frieze. -/

namespace Sys2Proof.Machine

def State.mgSess (s : State) (m : Nat) : Option MgSess := tfind s.mgmt.sess m
def State.setMg (s : State) (m : Nat) (k : MgSess) : State := { s with mgmt := { s.mgmt with sess := tput s.mgmt.sess m k } }
def State.modMg (s : State) (m : Nat) (f : MgSess → MgSess) : State :=
  match s.mgSess m with
  | some k => s.setMg m (f k)
  | none => s
def State.modMgmt (s : State) (f : Mgmt → Mgmt) : State := { s with mgmt := f s.mgmt }
def State.mailbox (s : State) (f : Nat) : Mailbox := tget {} s.mgmt.mb f
def State.modMailbox (s : State) (f : Nat) (g : Mailbox → Mailbox) : State :=
  s.modMgmt (fun m => { m with mb := tset {} m.mb f (g (tget {} m.mb f)) })

-- CAN (R436).

/-- Data lengths of a CAN FD frame that follow 8 bytes. -/
def canLength (n : Nat) : Nat :=
  if n ≤ 8 then n else if n ≤ 12 then 12 else if n ≤ 16 then 16 else if n ≤ 20 then 20 else if n ≤ 24 then 24
  else if n ≤ 32 then 32 else if n ≤ 48 then 48 else 64

/-- Cut a management frame into CAN segments of at most `cap` bytes. -/
def canSegments (cap : Nat) : Nat → Nat → Bytes → List Bytes
  | 0, _, _ => []
  | fuel + 1, i, b =>
    let last := b.length ≤ cap
    let ctl := b2n (i = 0) * 128 + b2n last * 64 + i % 64
    let seg := BitVec.ofNat 8 ctl :: b.take cap
    padTo (canLength seg.length) seg :: (if last then [] else canSegments cap fuel (i + 1) (b.drop cap))

/-- Identifier of a frame from the part (R436). -/
def canId (s : State) (c : Nat) : Nat := 0b11 * 2 ^ 27 + c * 2 ^ 24 + s.cfg 0x1010 1

/-- Send a management frame on CAN channel number `c`: FD frames, or classic frames while the data bit rate is 0. A
controller in bus-off sends nothing. -/
def canSend (c : Nat) (b : Bytes) (s : State) : State :=
  if s.mgmt.busOff then s
  else (canSegments (if s.cfg 0x1010 3 = 0 then 7 else 63) (b.length + 1) 0 b).foldl (fun s x => emit (.can (canId s c) x) s) s

-- Mailboxes (R437).

/-- Write a reply frame to MB_RSP, move STATE to READY and raise the vector. -/
def mailboxSend (f : Nat) (b : Bytes) (s : State) : State :=
  let k := s.mailbox f
  emit (.msix f (bits k.ctrl 24 16)) (s.modMailbox f (fun k => { k with rsp := b, rspLen := b.length, state := 2 }))

-- The Frieze (R438, R463, R480).

def routeForm (r : Nat) : Nat := bits r 63 60
def routeHops (r : Nat) : Nat := bits r 59 52
def routePortAt (r i : Nat) : Nat := bits (bits r 47 32) (2 * i + 1) (2 * i)

/-- Is a route word that is not zero well formed (Table 14-7)? -/
def routeGood (r : Nat) : Bool :=
  bits r 51 48 = 0 && bits r 31 12 = 0 &&
  (if routeForm r = 1 then routeHops r = 0 && bits r 47 32 = 0
   else routeForm r = 2 && 1 ≤ routeHops r && routeHops r ≤ 8 && bits r 11 0 = 0 &&
     (List.range 8).all (fun i => if i < routeHops r then routePortAt r i != 3 else routePortAt r i = 0))

/-- Send a MGMT message on by port `q`; `src`, `ttl` when it is relayed for another part. -/
def sendMgmtMsg (q dst : Nat) (data : Bytes) (relay : Option (Nat × Nat)) (s : State) : State :=
  let k := s.frzPort q
  if !portCarries k.state 0x08 then s
  else
    let m : FrzMsg := { vc := 2, mtype := 0x08, dst := dst, data := data, relay := relay }
    pumpPort q (k.waiting.length + 2) (s.setFrzPort q { k with waiting := k.waiting ++ [m] })

-- Frames.

/-- Bytes of a route word. -/
def routeBytes (r : Nat) : Bytes := leBytes 8 r

/-- Send a frame, route word first, by the transport of session `m`. -/
def mgTransport (m route peerAddr peerPort : Nat) (frame : Bytes) (s : State) : State :=
  let b := routeBytes route ++ frame
  if m < 8 then canSend m b s
  else if m < 16 then mailboxSend (m - 8) b s
  else
    let q := if routeForm route = 2 then some peerPort else routePort s peerAddr
    match q with
    | some q => sendMgmtMsg q peerAddr b (if routeForm route = 2 then some (partAddr s, routeHops route - 1) else none) s
    | none => s

/-- A management frame of a session under its SEQ: sealed in an authenticated session, in clear in an observer
session (R423, R431). The route word takes part in the additional authenticated data. -/
def mgFrame (k : MgSess) (typ tfl seq : Nat) (body : Bytes) : Bytes :=
  let h := frameHeader typ tfl k.sid seq body.length
  if !k.auth then h ++ body
  else
    let iv := k.ivOut ++ leBytes 8 seq
    let ct := gcmCrypt k.keyOut iv body
    h ++ ct ++ gcmTag k.keyOut iv (routeBytes k.route ++ h) ct

/-- Does a session's lifetime end within 60 s (R63)? -/
def mgRekeyDue (k : MgSess) (s : State) : Bool := decide (k.openedAt + s.cfg 0x1028 1 * 1000000000 ≤ s.time + 60000000000)

/-- Send a frame of a session. -/
def mgSend (m typ : Nat) (body : Bytes) (s : State) : State :=
  match s.mgSess m with
  | none => s
  | some k =>
    let seq := k.txSeq + 1
    mgTransport m k.route k.peerAddr k.peerPort (mgFrame k typ (b2n (mgRekeyDue k s)) seq body) (s.setMg m { k with txSeq := seq })

/-- A RESET frame: SESSION_ID named and reason (Table 02-6). -/
def mgReset (m route peerAddr peerPort sid reason : Nat) (s : State) : State :=
  mgTransport m route peerAddr peerPort (frameHeader 0x22 0 0 0 8 ++ leBytes 4 sid ++ leBytes 2 reason ++ zeros 2) s

/-- Header of a management message (Table 13-4). -/
def mgHeader (mop result nitems failItem txn : Nat) : Bytes :=
  leBytes 1 mop ++ [0] ++ leBytes 2 result ++ leBytes 2 nitems ++ leBytes 2 failItem ++ leBytes 8 txn

/-- Answer the request in hand of a session: the reply is cached for a repeated SEQ and sent (R423). A reply over 4,352
bytes is answered 0x12. -/
def mgReply (m mop result nitems failItem txn : Nat) (body : Bytes) (s : State) : State :=
  let msg := mgHeader mop result nitems failItem txn ++ body
  let msg := if 4352 < msg.length then mgHeader mop 0x12 0 0xFFFF txn else msg
  mgSend m 0x10 msg (s.modMg m (fun k => { k with cached := msg, inFlight := false }))

/-- A reply with no items. -/
def mgDone (m mop result txn : Nat) (body : Bytes) (s : State) : State := mgReply m mop result 0 0xFFFF txn body s

/-- Close sessions with CLOSE 0x0110, then drop them. -/
def mgClose (gone : Nat → MgSess → Bool) (s : State) : State :=
  let s := s.mgmt.sess.foldl (fun s e => if gone e.1 e.2 then mgSend e.1 0x20 (leBytes 2 0x0110 ++ zeros 6) s else s) s
  dropSessions gone s

end Sys2Proof.Machine
end

