-- ==== Sys2Proof/Machine/Spill.lean ====
section
/-! DEFINITION. Spilled requests at the executing and the originating part (14, R471 to R474; 05, R191), and remote
alarms (R475). -/

namespace Sys2Proof.Machine

/-- Reserved content of a spill envelope (Table 14-11). -/
def envelopeBad (e : Bytes) : Bool :=
  4096 ≤ leAt e 0 2 || 8 ≤ leAt e 2 1 || leAt e 3 1 != 0 || !allZero (slice e 24 8) || e.length != 32

/-- A spilled request returns unrun with a status; the spec gives no layout of SPILL_RETURN. -/
def returnSpilled (p vc : Nat) (env : Bytes) (status : Nat) (s : State) : State :=
  bump 0x9068 6 0 (frzSend p vc 0x03 (leAt env 0 2) (env ++ leBytes 2 status) s)

/-- The link's own C0 bucket at the executing part, refilled to now (R471). -/
def inLevelNow (s : State) (p : Nat) : Nat :=
  let k := s.frzPort p
  let n := Nat.min 8 (serviceCount s)
  Nat.min (s.cfg (0x6020 + p) 2 * 65536 * n / 8) (k.inLevel + s.cfg (0x6020 + p) 1 * 65536 * (s.time - k.inLast) * n / 8000)

/-- The spill-in queue of a request, configured at its first use (R472). -/
def spillQueue (q : Request) (s : State) : State :=
  if queueValid (s.queue q.qn) then s
  else assignHomes (s.setQueue q.qn { s.queue q.qn with qctl := 0x80 + Nat.max 1 q.hdr.class, depthLimit := 2 ^ 20 })

/-- A spilled request arrives: envelope, checks 9 to 13, and for C0 its own conditions (R472). -/
def spillIn (p : Nat) (env msg : Bytes) (s : State) : State :=
  let s := consume p 0x01 s
  let h := Header.ofBytes msg
  let c0 := bit (leAt env 2 1) 0
  let vc := if c0 then 1 else 3
  let s := bump 0x9068 5 0 s
  let ret (st : Nat) (s : State) : State := returnSpilled p vc env st s
  let q : Request := { hdr := h, payload := msg.drop 64, via := .frieze p, tIn := leAt env 8 8, wasSpilled := true,
                       originAddr := leAt env 0 2, originRid := leAt env 4 4, envelope := env, extraNs := leAt env 16 4,
                       pcie := bit (leAt env 2 1) 1, replayed := bit (leAt env 2 1) 2 }
  let q := { q with budget := declaredBudget s h q.payload }
  if envelopeBad env then ret 0x0103 s
  else
    match serviceChecks s q with
    | some st => ret st s
    | none =>
      if outLimit s h.tenant ≤ outstanding s h.tenant then ret 0x0305 s
      else if 262144 ≤ tableUsed s then ret 0x0501 s
      else if chansIn s = [] then ret 0x0505 s
      else
        let r := firstFree s.reqs 0
        if c0 then
          let q := { q with within := true }
          let l := inLevelNow s p
          if timeGood s p && charge q * 65536 ≤ l && boundConditions s q then
            let s := s.modFrzPort p (fun k => { k with inLevel := l - charge q * 65536, inLast := s.time })
            let s := enqueue r { q with stage := .ready } s
            syncQueues { s with qm := { s.qm with readyList := s.qm.readyList ++ [r] } }
          else ret 0x0504 s
        else if s.cfg (0x6020 + p) 3 ≤ heldFrom s p then ret 0x0502 s
        else
          let q := { q with bestEffort := h.class = 0 }
          syncQueues (enqueue r { q with stage := .queued } (spillQueue q s))

def execSpillReq (p : Nat) (env msg : Bytes) (s : State) : Res := .next (if p < 3 then spillIn p env msg s else s)

/-- A request that this part spilled to a neighbour and that is not yet answered. -/
def spilledReq (s : State) (r : Nat) : Option Request :=
  match s.req? r with
  | some q => (match q.stage with | .spilled _ => some q | _ => none)
  | none => none

/-- A spilled response returns (R472, R473): the originating part's egress assembler completes and sends it. One whose
request has been answered is discarded (R84). -/
def spillResponse (p : Nat) (env msg : Bytes) (s : State) : State :=
  let s := consume p 0x02 s
  let r := leAt env 4 4
  match spilledReq s r with
  | none => s
  | some q =>
    let repl := bit (leAt env 2 1) 2 && q.c0Spill
    let q := { q with
      bestEffort := q.bestEffort || repl || bit (leAt msg 1 1) 0, servedBy := leAt msg 14 2 / 4096, cycles := leAt msg 40 4 }
    let s := if repl then bump 0x9068 7 0 s else s
    answer r (leAt msg 2 2) (leAt msg 44 2) (msg.drop 64) (s.setReq r q)

def execSpillRsp (p : Nat) (env msg : Bytes) (s : State) : Res := .next (spillResponse p env msg s)

/-- A spilled request returns unrun (R191): the head of its queue's position, or of the excess queue as a best-effort
C0 request. -/
def spillReturned (p : Nat) (env : Bytes) (s : State) : State :=
  let s := consume p 0x03 s
  let r := leAt env 4 4
  match spilledReq s r with
  | none => s
  | some q =>
    let k := s.queue q.qn
    let s := s.setQueue q.qn { k with running := k.running - 1, list := r :: k.list }
    let s := match q.stage with
      | .spilled port => if q.c0Spill then s.modFrzPort port (fun f => { f with tokens := f.tokens + 1 }) else s
      | _ => s
    let q := { q with c0Spill := false, within := false, extraNs := 0 }
    if q.hdr.class = 0 then
      let n := if k.excess then k.excessChan else (argMax (chansIn s) (freeSlots s)).getD 0
      let s := s.setReq r { q with bestEffort := true, stage := .excess }
      let s := s.setQueue q.qn { s.queue q.qn with excess := true, excessChan := n }
      syncQueues (s.modChan n (fun c => { c with excess := r :: c.excess }))
    else syncQueues (s.setReq r { q with stage := .queued })

def execSpillReturn (p : Nat) (env : Bytes) (s : State) : Res := .next (spillReturned p env s)

/-- An ALARM message: newer than the last of its origin, it is logged, flooded on and answered with alarm 0x24; a
zeroizing one removes its origin from the replication domain. -/
def remoteAlarm (p origin : Nat) (serial : Bytes) (seq code lvl time : Nat) (s : State) : State :=
  let s := consume p 0x20 s
  let known := match tfind s.frz.alarmSeq origin with | some n => seq ≤ n | none => false
  if known || origin = partAddr s then s
  else
    let take := s.cfg 0x6030 2
    let msg := leBytes 2 origin ++ padTo 8 serial ++ leBytes 4 seq ++ leBytes 2 code ++ leBytes 1 lvl ++ leBytes 8 time
    let s := s.modFrz (fun f => { f with
      alarmSeq := tput f.alarmSeq origin seq
      removed := if lvl = 4 && !f.removed.contains origin then f.removed ++ [origin] else f.removed })
    let s := flood 0 0x20 msg (some p) s
    let data := leBytes 2 origin ++ padTo 8 serial ++ leBytes 4 seq ++ leBytes 1 lvl ++ leBytes 1 take
    let s := logPush { time := time, source := 0x0400, code := code, data := padTo 24 data } s
    alarmReport 0x24 take data true s

def execAlarm (p origin : Nat) (serial : Bytes) (seq code lvl time : Nat) (s : State) : Res :=
  .next (if p < 3 && (s.frzPort p).state = .up then remoteAlarm p origin serial seq code lvl time s else s)

end Sys2Proof.Machine
end

