-- ==== Sys2Proof/Machine/Commit.lean ====
section
/-! DEFINITION. Configuration commits (13, R442 to R447): validating and applying what a transaction staged, the
configuration store, the commit point, and the installs on the channels. -/

namespace Sys2Proof.Machine

/-- A refused commit (R442): INDEX, SUB, REASON and RECORD. -/
structure Refused where
  index : Nat
  sub : Nat
  reason : Nat
  record : Nat := 0
deriving DecidableEq, Repr

/-- The result of applying staged writes. -/
abbrev Applied := Except Refused State

/-- Records in order; the error carries the record's number. -/
def applyRecs {α : Type} (f : α → State → Except Nat State) : Nat → List α → State → Except (Nat × Nat) State
  | _, [], s => .ok s
  | i, r :: t, s =>
    match f r s with
    | .ok s => applyRecs f (i + 1) t s
    | .error e => .error (e, i)

/-- An APPEND write of records of one length. -/
def applyFixed (n : Nat) (f : Bytes → State → Except Nat State) (b : Bytes) (s : State) : Except (Nat × Nat) State :=
  if b.length % n ≠ 0 then .error (6, b.length / n) else applyRecs f 0 (records n b.length b) s

/-- The staged writes of one entry, in the order written. -/
def onEntry (index sub : Nat) (f : Bytes → State → Except (Nat × Nat) State) : List Staged → State → Applied
  | [], s => .ok s
  | x :: t, s =>
    if x.index = index ∧ x.sub = sub then
      match f x.data s with
      | .ok s => onEntry index sub f t s
      | .error (r, n) => .error { index := index, sub := sub, reason := r, record := n }
    else onEntry index sub f t s

-- Principals (R433).

def applyPrincipal (b : Bytes) (s : State) : Except Nat State :=
  let slot := leAt b 0 4
  let role := leAt b 4 1
  let k := s.slot slot
  if !allZero (slice b 5 11) ∨ 2 ^ 21 ≤ slot then .error 6
  else if 3 < role then .error 1
  else if role = 0 then .ok (s.modMgmt (fun m => { m with principals := tdel m.principals slot }))
  else if k.state ≠ .active ∨ !bit k.usage 19 ∨ (role ≠ 3 ∧ k.tenant ≠ 0) then .error 3
  else if (tfind s.mgmt.principals slot).isNone ∧ 1024 ≤ s.mgmt.principals.length then .error 4
  else .ok (s.modMgmt (fun m => { m with principals := tput m.principals slot role }))

-- Queues (R170, R171).

def QueueRecord.ofBytes (b : Bytes) : QueueRecord :=
  { first := leAt b 0 4, count := leAt b 4 4, tenant := leAt b 8 2, qctl := leAt b 10 1, weight := leAt b 11 1,
    depthLimit := leAt b 12 4, waitLimit := leAt b 16 4 }

def QueueRecord.queues (r : QueueRecord) : List Nat := (List.range r.count).map (fun i => r.first + i)

/-- Does the range of one record lie wholly inside another's? -/
def QueueRecord.inside (a b : QueueRecord) : Bool := b.first ≤ a.first && a.first + a.count ≤ b.first + b.count

/-- Fields of a record with VALID set are in range. -/
def QueueRecord.fieldsOk (r : QueueRecord) : Bool :=
  bits r.qctl 3 2 = 0 && 1 ≤ r.depthLimit && r.depthLimit ≤ 65536 &&
  (if r.qctl % 4 = 0 then r.weight = 0 && r.waitLimit = 0 else 1 ≤ r.weight && r.waitLimit ≤ 4000000)

/-- Set the configured fields of a queue. -/
def configureQueue (r : QueueRecord) (qn : Nat) (s : State) : State :=
  let k := s.queue qn
  let same := queueValid k && k.qctl % 4 = r.qctl % 4
  s.setQueue qn { k with
    tenant := r.tenant, qctl := r.qctl, weight := r.weight, depthLimit := r.depthLimit, waitLimit := r.waitLimit, fullSeen := false,
    channel := if same && r.qctl % 4 != 0 then k.channel else 0xF, deficit := if same then k.deficit else 0,
    fresh := if same then k.fresh else true }

/-- Unconfigure a queue: what it holds queued is answered 0x0107, unrun. -/
def unconfigureQueue (qn : Nat) (s : State) : State :=
  let s := ((s.queue qn).list).foldl (fun s r => endRequest r 0x0107 s) s
  s.setQueue qn { s.queue qn with
    tenant := 0, qctl := 0, weight := 0, depthLimit := 0, waitLimit := 0, fullSeen := false, channel := 0xF, deficit := 0, fresh := true }

/-- A queue range record. -/
def applyRange (b : Bytes) (s : State) : Except Nat State :=
  let r := QueueRecord.ofBytes b
  let keep (s : State) : State :=
    { s with qm := { s.qm with records := s.qm.records.filter (fun o => !o.inside r) ++ [r] } }
  if !allZero (slice b 20 4) then .error 6
  else if r.count = 0 ∨ 2 ^ 20 < r.first + r.count then .error 1
  else if !bit r.qctl 7 then .ok (keep (r.queues.foldl (fun s qn => unconfigureQueue qn s) s))
  else if !r.fieldsOk then .error 1
  else if r.queues.any (fun qn =>
      let k := s.queue qn
      (!k.list.isEmpty || k.running != 0) && (k.tenant != r.tenant || k.qctl % 4 != r.qctl % 4)) then .error 3
  else .ok (keep (r.queues.foldl (fun s qn => configureQueue r qn s) s))

/-- Ceilings of R170 after the records of a commit. -/
def queuesOk (s : State) : Bool :=
  (s.qm.queues.filter (fun e => e.1 < 2 ^ 20 && queueValid e.2 && queueClass e.2 = 0)).length ≤ 16384 &&
  (s.qm.queues.filter (fun e => e.1 < 2 ^ 20 && descLocked e.2)).length ≤ 24576 && s.qm.records.length ≤ 8192

-- Admission (R176 to R178).

def applyAdmission (b : Bytes) (s : State) : Except Nat State :=
  let t := leAt b 0 2
  let a : AdmRecord := { admOf s t with overflow := leAt b 2 1, c0Rate := leAt b 4 4, c0Depth := leAt b 8 4, outLimit := leAt b 12 4 }
  if leAt b 3 1 ≠ 0 then .error 6
  else if 1 < a.overflow ∨ 40960 < a.c0Rate ∨ 358400 < a.c0Depth ∨ 262144 < a.outLimit then .error 1
  else if a.c0Rate ≠ 0 ∧ a.c0Depth < 2400 then .error 1
  else
    let old := admOf s t
    let a := if old.c0Depth = a.c0Depth then { refilled s old with overflow := a.overflow, c0Rate := a.c0Rate, outLimit := a.outLimit }
      else { a with level := bucketDepth s a, last := s.time }
    .ok (setAdm t a s)

def sumsOk (s : State) : Bool := rateSum s ≤ 40960 && depthSum s ≤ 358400

-- Models (R151 to R153).

/-- Whole images at the front of a string, each handled; what is left. -/
def takeImages (f : Envelope → State → Except Nat State) : Nat → Bytes → State → Except Nat (Bytes × State)
  | 0, buf, s => .ok (buf, s)
  | n + 1, buf, s =>
    match takeImage buf with
    | none => .ok (buf, s)
    | some (e, rest) =>
      match f e s with
      | .ok s => takeImages f n rest s
      | .error r => .error r

/-- Segments of images in the order written: each image is handled where its last byte comes; the error carries the
segment's number. -/
def applyImages (f : Envelope → State → Except Nat State) : Nat → Bytes → List Bytes → State → Except (Nat × Nat) State
  | i, buf, [], s => if buf.isEmpty then .ok s else .error (6, i - 1)
  | i, buf, x :: t, s =>
    match takeImages f (buf.length + x.length) (buf ++ x) s with
    | .ok (rest, s) => applyImages f (i + 1) rest t s
    | .error r => .error (r, i)

/-- Load a model (R152). -/
def loadModel (e : Envelope) (s : State) : Except Nat State :=
  match modelImage s e with
  | none => .error 5
  | some (id, m) =>
    let newer := match tfind s.svc.models id with | some o => decide (o.version < m.version) | none => true
    if !newer then .error 3
    else
      let models := tput s.svc.models id m
      if 256 < models.length ∨ 4194304 < (models.map (fun e => e.2.imageBytes)).sum ∨
          1048576 < ((models.filter (fun e => e.2.c0Claim)).map (fun e => e.2.bodyBytes)).sum then .error 4
      else .ok { s with svc := { s.svc with models := models } }

/-- Unload a model with its approvals. `inForce`: the state when the commit is validated. -/
def unloadModel (inForce : State) (b : Bytes) (s : State) : Except (Nat × Nat) State :=
  let id := leAt b 0 2
  if id = 0 then .ok s
  else if (tfind inForce.svc.models id).isNone then .error (3, 0)
  else .ok { s with svc := { s.svc with models := tdel s.svc.models id, approvals := s.svc.approvals.filter (fun a => a.2 != id) } }

/-- Approval (R151): TENANT and MODEL_ID, as the approvals are held. -/
def approveModel (b : Bytes) (s : State) : Except Nat State :=
  let t := leAt b 0 2
  let id := leAt b 2 2
  if (tfind s.svc.models id).isNone then .error 3
  else if s.svc.approvals.contains (t, id) then .ok s
  else if 16 ≤ (s.svc.approvals.filter (fun a => a.1 = t)).length then .error 4
  else .ok { s with svc := { s.svc with approvals := s.svc.approvals ++ [(t, id)] } }

def revokeModel (b : Bytes) (s : State) : Except Nat State :=
  .ok { s with svc := { s.svc with approvals := s.svc.approvals.filter (fun a => !(a.1 = leAt b 0 2 && a.2 = leAt b 2 2)) } }

/-- Approvals and revocations in the order written. -/
def applyApprovals : List Staged → State → Applied
  | [], s => .ok s
  | x :: t, s =>
    let go (f : Bytes → State → Except Nat State) : Applied :=
      match applyFixed 4 f x.data s with
      | .ok s => applyApprovals t s
      | .error (r, n) => .error { index := x.index, sub := x.sub, reason := r, record := n }
    if x.index = 0x4125 ∧ x.sub = 1 then go approveModel
    else if x.index = 0x4125 ∧ x.sub = 2 then go revokeModel
    else applyApprovals t s

/-- Segments staged to an entry. -/
def segments (index sub : Nat) (st : List Staged) : List Bytes :=
  (st.filter (fun x => x.index = index && x.sub = sub)).map (fun x => x.data)

/-- What the result of a part of the application is, for an entry. -/
def forEntry (index sub : Nat) (r : Except (Nat × Nat) State) : Applied :=
  match r with
  | .ok s => .ok s
  | .error (e, n) => .error { index := index, sub := sub, reason := e, record := n }

-- Firmware (R547, R548).

/-- A firmware pair loaded into the inactive bank. -/
def loadFirmware (st : List Staged) (s : State) : Applied :=
  match segments 0x8020 1 st with
  | [] => .ok s
  | segs =>
    let bad (r : Nat) : Applied := .error { index := 0x8020, sub := 1, reason := r, record := segs.length - 1 }
    match firmwarePair s segs.flatten with
    | none => bad 5
    | some b =>
      if s.life.act ≠ 0 ∨ !(b.compatMin ≤ (selectedBank s).release && (selectedBank s).release ≤ b.compatMax) then bad 3
      else .ok (setOther b s)

-- Scalar entries.

/-- The number that bytes spell in an entry's type. -/
def intOf (t : OdType) (b : Bytes) : Int :=
  let v : Int := leNat b
  let signed := t = .i16 || t = .i32
  let half : Int := (2 ^ (8 * b.length - 1) : Nat)
  if signed && decide (half ≤ v) then v - 2 * half else v

/-- Entries whose range is a list of values (Tables 13-16 and 17-9). -/
def listedOk (index sub : Nat) (v : Int) : Bool :=
  match odKey index sub with
  | 0x101002 => v = 125000 || v = 250000 || v = 500000 || v = 1000000
  | 0x101003 => v = 0 || v = 1000000 || v = 2000000 || v = 4000000 || v = 5000000
  | 0x810102 => v = 1 || v = 4
  | _ => true

/-- Is a value in its entry's range (R426)? -/
def valueOk (e : OdEntry) (index sub : Nat) (v : Int) : Bool := e.lo ≤ v && v ≤ e.hi && listedOk index sub v

/-- Scope LINK (Table 13-16). -/
def isLink (index : Nat) : Bool := index = 0x1010

/-- Least level of an alarm's entry OD 0x7040+n.01 (R497). -/
def levelTooLow (index sub : Nat) (v : Int) : Bool :=
  0x7040 ≤ index && index < 0x7065 && sub = 1 && decide (v < (alarmDefault (index - 0x7040)).2.1)

/-- A staged scalar or replaced OCTETS entry takes its value. -/
def applyScalar (x : Staged) (s : State) : Applied :=
  let bad (r : Nat) : Applied := .error { index := x.index, sub := x.sub, reason := r }
  match odFind x.index x.sub with
  | none => bad 1
  | some e =>
    if isAppend x.index x.sub then .ok s
    else if e.typ = .octets ∨ e.typ = .str then .ok (s.setOctets x.index x.sub x.data)
    else
      let v := intOf e.typ x.data
      if !valueOk e x.index x.sub v ∨ levelTooLow x.index x.sub v then bad 1
      else if isLink x.index ∨ (x.index = 0x4124 ∧ x.sub = 2) ∨ (x.index = 0x8020 ∧ x.sub = 3) then .ok s
      else
        let s' := s.setOd x.index x.sub v
        if 0x7040 ≤ x.index ∧ x.index < 0x7065 then
          let a := x.index - 0x7040
          .ok (s.setAlarm a (if x.sub = 1 then { s.alarm a with level := some v.toNat } else { s.alarm a with flags := some v.toNat }))
        else if x.index = 0x7008 then
          let n := x.sub - 1
          let r := tget 0 s.arm.tampR n
          if v ≠ 3 then .ok s'
          else if r < 1000 ∨ 100000 < r then bad 3
          else .ok { s' with arm := { s'.arm with trained := tset 0 s'.arm.trained n r } }
        else if x.index = 0x8000 ∧ x.sub = 1 then
          .ok { s' with flash := { s'.flash with cfg := s'.flash.cfg % 2 ^ 16 + v.toNat % 32 * 65536 } }
        else if 0x6010 ≤ x.index ∧ x.index < 0x6013 then .ok (portEnable (x.index - 0x6010) (v != 0) s')
        else if x.index = 0x5008 ∧ x.sub = 4 ∧ v = 0 then .ok (s'.updKs (fun k => { k with anchor := none }))
        else .ok s'

def applyScalars : List Staged → State → Applied
  | [], s => .ok s
  | x :: t, s => match applyScalar x s with | .ok s => applyScalars t s | .error e => .error e

/-- Entries with LINK scope take their values after the reply (step 7). -/
def applyLink (st : List Staged) (s : State) : State :=
  (st.filter (fun x => isLink x.index)).foldl (fun s x =>
    match odFind x.index x.sub with
    | some e => s.setOd x.index x.sub (intOf e.typ x.data)
    | none => s) s

/-- Records of the tenants served by C0 credit. -/
def applyCreditTenants (b : Bytes) (s : State) : Except Nat State :=
  if !allZero (slice b 3 5) ∨ 8 ≤ leAt b 2 1 then .error 6 else .ok (s.setOctets 0x6028 1 (s.octets 0x6028 1 ++ b))

-- The whole of step 1, and of step 5.

/-- Activation of the inactive bank. -/
def applyActivate (st : List Staged) (s : State) : Applied :=
  match (segments 0x8020 3 st).getLast? with
  | none => .ok s
  | some b =>
    if leNat b = 0 then .ok s
    else if s.life.act ≠ 0 ∨ (otherBank s).state ≠ .loaded then .error { index := 0x8020, sub := 3, reason := 3 }
    else .ok { s with life := { s.life with act := 1 } }

/-- Was any entry of an index and subindex staged? -/
def stages (st : List Staged) (index sub : Nat) : Bool := st.any (fun x => x.index = index && x.sub = sub)

/-- Rules over the state that a commit would leave. -/
def finalRules (st : List Staged) (s : State) : Applied :=
  let bad (index sub r : Nat) : Applied := .error { index := index, sub := sub, reason := r }
  let rateEntry := if stages st 0x4030 1 then 0x4030 else ((st.find? (fun x => 0x6020 ≤ x.index && x.index < 0x6023)).map (fun x => x.index)).getD 0x4030
  if !sumsOk s then bad rateEntry 1 4
  else if (List.range 3).any (fun p => s.cfg (0x6020 + p) 1 != 0 && decide (s.cfg (0x6020 + p) 2 < 2400)) then bad rateEntry 2 2
  else if !queuesOk s then bad 0x4010 1 4
  else if !pinsOk s then bad (if stages st 0x5006 1 then 0x5006 else 0x5002) 1 4
  else if stages st 0x6006 1 && (s.octets 0x6006 1).length % 2 != 0 then bad 0x6006 1 6
  else if stages st 0x6006 1 && (domainList s).any (fun a => decide (4096 ≤ a)) then bad 0x6006 1 1
  else if stages st 0x6006 1 && (domainList s).any (fun a => a != partAddr s &&
      (match tfind s.frz.topo a with | some t => t.mkid != s.ks.mkid | none => false)) then bad 0x6006 1 3
  else if stages st 0x1040 1 && !s.mgmt.principals.any (fun e => e.2 = 1) then bad 0x1040 1 3
  else if 1572864 < copySize s then bad ((st.head?.map (fun x => x.index)).getD 0) ((st.head?.map (fun x => x.sub)).getD 0) 4
  else .ok s

/-- Records and entries of a transaction applied: tenants before assignments before slots (R286), loads before
approvals (R151), and the rest by entry; within an entry in the order written. -/
def applyEntries (st : List Staged) (s0 : State) : Applied := do
  let s ← applyScalars st s0
  let s ← onEntry 0x5007 1 (applyFixed 16 applyTenant) st s
  let s ← onEntry 0x5004 1 (applyFixed 16 applyAssign) st s
  let s ← onEntry 0x5006 1 (fun b s => applyRecs (applySlotWrite false) 0 (slotRecords b.length b) s) st s
  let s ← onEntry 0x1040 1 (applyFixed 16 applyPrincipal) st s
  let s ← onEntry 0x4010 1 (applyFixed 24 applyRange) st s
  let s ← onEntry 0x4030 1 (applyFixed 16 applyAdmission) st s
  let s ← onEntry 0x6028 1 (applyFixed 8 applyCreditTenants) st s
  let s ← forEntry 0x4124 1 (applyImages loadModel 0 [] (segments 0x4124 1 st) s)
  let s ← onEntry 0x4124 2 (unloadModel s0) st s
  let s ← applyApprovals st s
  let s ← loadFirmware st s
  let s ← applyActivate st s
  finalRules st s

/-- Copies in the battery domain (R497). -/
def copyBattery (s : State) : State :=
  let overridden (f : Alarm → Option Nat) : Tab Nat := s.alarms.filterMap (fun e => (f e.2).map (fun v => (e.1, v)))
  { s with batt := { s.batt with levels := overridden (fun a => a.level), flags := overridden (fun a => a.flags), interval := s.cfg 0x7003 2 } }

/-- Configuration entries of alarms whose level or flags changed (Table 15-9). -/
def logAlarmChanges (before s : State) : State :=
  (List.range 37).foldl (fun s a =>
    let l0 := alarmLevel before a
    let f0 := alarmFlags before a
    if a = 0x23 ∨ (l0 = alarmLevel s a ∧ f0 = alarmFlags s a) then s
    else logEntry (0x0100 + a) 5 ([BitVec.ofNat 8 l0, BitVec.ofNat 8 (alarmLevel s a), BitVec.ofNat 8 f0, BitVec.ofNat 8 (alarmFlags s a)] ++
      leBytes 8 s.mgmt.cgen) s) s

/-- Histories are cut to N − 1 times (R584). -/
def cutHistories (s : State) : State :=
  { s with health := { s.health with faults := s.health.faults.map (fun e =>
      (e.1, { e.2 with times := e.2.times.take ((faultParams s (e.1 / 2 ^ 32)).1 - 1) })) } }

/-- Shared fields of a replicated slot set from another part's record (R293). -/
def sharedInto (own given : Slot) : Slot :=
  { given with uses := own.uses, cntOvf := own.cntOvf, pinned := own.pinned, extIndex := own.extIndex, mkg := own.mkg,
               usesImaged := own.usesImaged, claim := own.claim, macBad := false }

def applySlots (l : List (Nat × Slot)) (s : State) : State :=
  l.foldl (fun s e => ksChanged (s.setSlot e.1 (sharedInto (s.slot e.1) e.2))) s

/-- Principals whose slot no longer holds a key are closed with those removed (R433). -/
def closePrincipals (before s : State) : State :=
  mgClose (fun _ k => k.auth && !k.handshake &&
    ((tfind s.mgmt.principals k.slot).isNone ||
     ((before.slot k.slot).state = .active && (s.slot k.slot).state != .active && (s.slot k.slot).state != .blocked))) s

/-- What follows in the blocks of the part from new values in force. -/
def settle (before s : State) : State :=
  let s := if s.supRestarting then s else assignHomes s
  let s := recheckPorts (syncQueues (cutHistories (copyBattery (logAlarmChanges before s))))
  updatePins s

-- The configuration store (R447).

def storeCopy (s : State) : StoreCopy :=
  { cgen := s.mgmt.cgen, good := true, values := s.od, octets := s.odb, principals := s.mgmt.principals, records := s.qm.records,
    adm := s.qm.adm.map (fun e => (e.1, { e.2 with level := 0, last := 0 })), approvals := s.svc.approvals, models := s.svc.models,
    alarms := (s.alarms.filter (fun e => e.2.level.isSome || e.2.flags.isSome)).map (fun e => (e.1, e.2.level, e.2.flags)),
    domVer := s.mgmt.domVer }

/-- Copies are written alternately: over the older, or the one that is not good. -/
def writeStore (s : State) : State :=
  s.modMgmt (fun m =>
    if !m.storeA.good || (m.storeB.good && m.storeA.cgen < m.storeB.cgen) then { m with storeA := storeCopy s }
    else { m with storeB := storeCopy s })

/-- Is an entry persisted or written to an area at step 3? -/
def isPersisted (x : Staged) : Bool :=
  (x.index = 0x8020 && x.sub = 1) || (match odFind x.index x.sub with | some e => e.persist | none => false)

-- The course of a commit (Table 13-12).

/-- The 32-byte commit reply. -/
def commitReply (cgen tCommit : Nat) (r : Option Refused) : Bytes :=
  leBytes 8 cgen ++ leBytes 8 tCommit ++
  (match r with
   | some r => leBytes 2 r.index ++ leBytes 1 r.sub ++ leBytes 1 r.reason ++ leBytes 4 r.record
   | none => zeros 8) ++ zeros 8

/-- The commit of a session ends without effect: its transaction stays open, the answer is `result`. -/
def commitFails (sess : Option Nat) (txn result : Nat) (r : Option Refused) (s : State) : State :=
  let s := bump 0x1102 2 0 (s.modMgmt (fun m => { m with job := none }))
  match sess with
  | some m =>
    mgDone m 0x11 result txn (commitReply 0 0 r) (s.modMg m (fun k => { k with txn := k.txn.map (fun t => { t with state := .opened }) }))
  | none => s

/-- Channels that must install a commit before its reply, and channels that hold it (R443). -/
def installers (s : State) : List Nat :=
  (List.range 9).filter (fun n => (s.chan n).data = .inService || (s.chan n).data = .draining)

/-- ACK of a decision to the coordinator (Table 14-12); at the coordinator itself it is internal. -/
def ackDomain (x : DomainTxn) (s : State) : State :=
  if x.coord = partAddr s then
    s.modMgmt (fun m => { m with coord := m.coord.map (fun e =>
      if e.1 = x.id then (e.1, { e.2 with awaits := e.2.awaits.filter (fun a => a != partAddr s) }) else e) })
  else
    match routePort s x.coord with
    | some p => frzSend p 2 0x14 x.coord (leBytes 8 x.id) s
    | none => s

/-- Steps 6 and 7 are done: reply, LINK entries, and the log. -/
def commitEnds (j : CommitJob) (s : State) : State :=
  let s := s.modMgmt (fun m => { m with job := none })
  let s := match j.sess with
    | some m =>
      mgDone m 0x11 0 j.txn (commitReply j.cgen j.tCommit none) (s.modMg m (fun k => { k with txn := none }))
    | none => s
  let s := match j.dtxn with
    | some d =>
      (match tfind s.mgmt.domain d with
       | some x => ackDomain x (s.modMgmt (fun m => { m with domain := tdel m.domain d }))
       | none => s)
    | none => s
  applyLink j.staged s

/-- What a job applies: its entries, and the slot records of a domain transaction. A decided domain transaction is
applied whatever a part of it would now meet (R478). -/
def applyJob (j : CommitJob) (s : State) : Applied :=
  match applyEntries j.staged s with
  | .ok s => .ok (applySlots j.slots s)
  | .error r => if j.dtxn.isSome && j.stage != 2 then .ok (applySlots j.slots s) else .error r

/-- The commit point: the commit record, then the DEVICE entries in every block at once (steps 4 and 5). Rules that the
data path has broken since step 1 refuse the commit here (DESIGN CHOICE, log 40). -/
def commitPoint (j : CommitJob) (s : State) : State :=
  match applyJob j { s with free := j.free0 } with
  | .error r => commitFails j.sess j.txn 0x0C (some r) s
  | .ok t =>
    let before := s
    let cgen := s.mgmt.cgen + 1
    let s := { t with free := Nat.max t.free s.free }
    let s := s.modMgmt (fun m => { m with
      cgen := cgen, tCommit := s.time,
      log := ({ cgen := cgen, tCommit := s.time, txn := j.txn, slot := j.slot, entries := j.staged.length, outcome := 0 } :: m.log).take 32,
      owner := match j.sess with | some k => tput m.owner cgen k | none => m.owner
      domVer := if stages j.staged 0x6006 1 then m.domVer + 1 else m.domVer })
    let s := if stages j.staged 0x6006 1 then s.modFrz (fun f => { f with removed := [] }) else s
    let s := bump 0x1102 1 0 s
    let s := settle before s
    let s := if stages j.staged 0x8020 1 then bankEntry 1 true s else s
    let s := if before.life.act = 0 && s.life.act = 1 then beginActivation s else s
    let s := if j.staged.any isPersisted then writeStore s else s
    let s := if s.mgmt.lost = 2 && (tfind s.mgmt.principals j.slot) = some 1 then
        endRecovery (s.modMgmt (fun m => { m with lost := 0 })) else s
    let s := closePrincipals before s
    let w := installers s
    let s := ((List.range 9).filter (fun n => !w.contains n)).foldl (fun s n =>
      s.modChan n (fun c => { c with pending := c.pending ++ [cgen] })) s
    let j := { j with stage := 6, waits := w, cgen := cgen, tCommit := s.time, sess := (s.mgmt.job.bind (fun x => x.sess)) }
    if w.isEmpty then commitEnds j s else s.modMgmt (fun m => { m with job := some j })

/-- Step 3: nothing to write leads to the commit point at once; a restrictive commit waits for its image too. -/
def commitStore (j : CommitJob) (s : State) : State :=
  match applyJob j { s with free := j.free0 } with
  | .error r => commitFails j.sess j.txn 0x0C (some r) s
  | .ok t =>
    let restr := restrictive s.ks t.ks
    let j := { j with stage := 3, restrictive := restr, imageWait := restr && imageBuffers s }
    let s := { s with free := Nat.max t.free s.free }
    if restr && !imageBuffers s && j.dtxn.isNone then commitFails j.sess j.txn 0x13 none s
    else if !j.imageWait && !j.staged.any isPersisted then commitPoint j (s.modMgmt (fun m => { m with job := some j }))
    else
      let s := s.modMgmt (fun m => { m with job := some j })
      if j.imageWait && s.ks.image.isNone then
        let u := startImage true { s with ks := t.ks }
        { s with free := u.free, ks := { s.ks with image := u.ks.image, changed := false, dirty := [], lastImage := u.ks.lastImage } }
      else s

/-- The image of a restrictive commit, once an image in progress has ended. -/
def commitImage (s : State) : State :=
  match s.mgmt.job with
  | some j => if j.stage = 3 && j.imageWait && s.ks.image.isNone then commitStore j s else s
  | none => s

/-- The image of a restrictive commit is anchored, or has failed (R298). -/
def commitAnchored (ok : Bool) (s : State) : State :=
  match s.mgmt.job with
  | some j =>
    if j.stage != 3 || !j.imageWait then s
    else if ok || j.dtxn.isSome then s.modMgmt (fun m => { m with job := some { j with imageWait := false } })
    else commitFails j.sess j.txn 0x13 none s
  | none => s

/-- CONFIG_STORE_WRITTEN: the writes of step 3 have ended; one that fails after a domain decision is made again. -/
def configStoreWritten (ok : Bool) (s : State) : State :=
  match s.mgmt.job with
  | some j =>
    if j.stage != 3 || j.imageWait then s
    else if ok then commitPoint j s
    else if j.dtxn.isSome then s
    else commitFails j.sess j.txn 0x13 none s
  | none => s

/-- A channel's warden installs the commit. -/
def channelInstall (n : Nat) (s : State) : State :=
  match s.mgmt.job with
  | some j =>
    if j.stage = 6 && j.waits.contains n then
      let s := s.modChan n (fun c => { c with cgenInstalled := Nat.max c.cgenInstalled j.cgen })
      let j := { j with waits := j.waits.filter (fun x => x != n) }
      if j.waits.isEmpty then commitEnds j s else s.modMgmt (fun m => { m with job := some j })
    else s
  | none => s

end Sys2Proof.Machine
end

