-- ==== Sys2Proof/Machine/Domain.lean ====
section
/-! DEFINITION. Commits across the parts of a replication domain (13, R445; 14, R476 to R479), and the order in which
commits follow each other (R442). The spec lists what the domain messages carry and not their layout; the rows of the
table give the content of those that arrive. -/

namespace Sys2Proof.Machine

-- Which commits are domain commits (R445, R292).

def tenantReplicated (s : State) (t : Nat) : Bool := (s.tenant t).replicated

/-- Does a staged write belong to a domain transaction? -/
def isDomainWrite (s : State) (x : Staged) : Bool :=
  match odKey x.index x.sub with
  | 0x600601 => true
  | 0x500701 => (records 16 x.data.length x.data).any (fun b => tenantReplicated s (leAt b 0 2))
  | 0x500401 => (records 16 x.data.length x.data).any (fun b =>
      tenantReplicated s (leAt b 8 2) ||
      s.ks.slots.any (fun e => leAt b 0 4 ≤ e.1 && e.1 < leAt b 0 4 + leAt b 4 4 && tenantReplicated s e.2.tenant))
  | 0x500601 => (slotRecords x.data.length x.data).any (fun w => (s.slot w.slot).replicated || (w.wop != 5 && bit w.policy.pflags 1))
  | _ => false

/-- What a domain transaction carries to the other members: its domain entries, and the slot records that they leave
(R293). -/
def domainPart (s : State) (st : List Staged) : List Staged := st.filter (fun x => isDomainWrite s x && x.index != 0x5006)

def domainSlots (s t : State) : List (Nat × Slot) :=
  (t.ks.slots.filter (fun e => (e.2.replicated || (s.slot e.1).replicated) && s.slot e.1 != e.2)) ++
  ((s.ks.slots.filter (fun e => e.2.replicated && (tfind t.ks.slots e.1).isNone)).map (fun e => (e.1, ({} : Slot))))

-- Members and coordinator (R476).

/-- Members reachable from the part, itself included. -/
def reachable (s : State) (l : List Nat) : List Nat :=
  l.filter (fun a => (a = partAddr s || (routePort s a).isSome) && !s.frz.removed.contains a)

def coordPri (s : State) (a : Nat) : Nat := if a = partAddr s then s.cfg 0x6005 1 else (tget {} s.frz.topo a).coordPri

/-- The coordinator: lowest COORD_PRI, then lowest address, among the reachable members. -/
def coordOf (s : State) (l : List Nat) : Nat :=
  ((reachable s l).foldl (fun b a =>
    match b with
    | none => some a
    | some c => if coordPri s a < coordPri s c ∨ (coordPri s a = coordPri s c ∧ a < c) then some a else some c) none).getD (partAddr s)

/-- The membership list that a transaction stages. -/
def newList (st : List Staged) : Option (List Nat) :=
  ((segments 0x6006 1 st).getLast?).map (fun b => (records 2 b.length b).map (fun x => leAt x 0 2))

/-- Members that a transaction's PREPARE goes to. -/
def askedOf (s : State) (st : List Staged) : List Nat :=
  match newList st with
  | some l => (domainList s ++ l).eraseDups
  | none => domainList s

/-- Send a domain message on VC2. -/
def domSend (a mtype : Nat) (data : Bytes) (s : State) : State :=
  match routePort s a with
  | some p => frzSend p 2 mtype a data s
  | none => s

/-- Bytes of staged entries and slot records in a message. -/
def stagedBytes (st : List Staged) (l : List (Nat × Slot)) : Bytes :=
  (st.map (fun x => leBytes 2 x.index ++ leBytes 1 x.sub ++ leBytes 2 x.data.length ++ x.data)).flatten ++
  (l.map (fun e => leBytes 4 e.1 ++ leBytes 4 e.2.version ++ e.2.material ++ e.2.pub ++ e.2.keyBlock)).flatten

def updDomain (d : Nat) (f : DomainTxn → DomainTxn) (s : State) : State :=
  s.modMgmt (fun m => { m with domain := m.domain.map (fun e => if e.1 = d then (e.1, f e.2) else e) })
def updCoord (d : Nat) (f : DomainTxn → DomainTxn) (s : State) : State :=
  s.modMgmt (fun m => { m with coord := m.coord.map (fun e => if e.1 = d then (e.1, f e.2) else e) })

/-- Decisions of the last 1,024 domain transactions (R477). -/
def noteDecision (d : Nat) (commit : Bool) (s : State) : State :=
  s.modMgmt (fun m => { m with decided := ((d, b2n commit) :: m.decided.filter (fun e => e.1 != d)).take 1024 })

def decisionOf (s : State) (d : Nat) : Option Bool := (s.mgmt.decided.find? (fun e => e.1 = d)).map (fun e => e.2 = 1)

-- Members: steps 3 and 5.

/-- Does an open or prepared transaction hold a lock or a slot that this one needs (R440)? -/
def domainConflict (s : State) (origin txn : Nat) (st : List Staged) (l : List (Nat × Slot)) : Bool :=
  let locks := (st.filter (fun x => !isAppend x.index x.sub)).map (fun x => odKey x.index x.sub)
  s.mgmt.sess.any (fun e => match e.2.txn with
    | some t => !(origin = partAddr s && t.id = txn) &&
        t.staged.any (fun x => !isAppend x.index x.sub && locks.contains (odKey x.index x.sub))
    | none => false) ||
  s.mgmt.domain.any (fun e =>
    e.2.staged.any (fun x => !isAppend x.index x.sub && locks.contains (odKey x.index x.sub)) ||
    e.2.slots.any (fun y => l.any (fun z => z.1 = y.1)))

/-- R294: the incoming VERSION is the own one plus 1, or both are zero for a slot that becomes occupied. A destroyed
slot carries VERSION zero (log 43). -/
def versionsOk (s : State) (l : List (Nat × Slot)) : Bool :=
  l.all (fun e =>
    e.2.version = (s.slot e.1).version + 1 || (e.2.version = 0 && (s.slot e.1).version = 0) ||
    e.2.state = .empty || e.2.state = .unassigned)

/-- A member's vote: none for yes, or its REASON. -/
def domainVote (origin txn : Nat) (st : List Staged) (l : List (Nat × Slot)) (s : State) : Option Nat :=
  if s.life.state != .operational ∨ levelHeld s = 4 then some 3
  else if domainConflict s origin txn st l then some 3
  else if origin = partAddr s then
    (match s.mgmt.job with
     | some j => if j.domain && j.txn = txn then none else some 3
     | none => some 3)
  else if !versionsOk s l then some 3
  else
    match applyEntries st s with
    | .error r => some r.reason
    | .ok _ => none

/-- The coordinator's decision once the votes suffice (step 4): every member asked said yes; for a change of the list,
every member of the new one and more than half of the old one. -/
def votesEnough (s : State) (x : DomainTxn) : Bool :=
  match newList x.staged with
  | some l =>
    let old := domainList s
    l.all (fun a => x.yes.contains a) && (old.isEmpty || old.length < 2 * (old.filter (fun a => x.yes.contains a)).length)
  | none => x.members.all (fun a => x.yes.contains a)

/-- A member learns the decision (step 5). On commit it takes steps 3 to 6 when its turn comes; on abort it discards.
`blame`, `reason`: the member that decided an abort. -/
def decideIn (d : Nat) (commit : Bool) (blame reason : Nat) (s : State) : State :=
  let s := noteDecision d commit s
  match tfind s.mgmt.domain d with
  | none => s
  | some x =>
    if x.state = 3 then s
    else if commit then
      s.modMgmt (fun m => { m with
        domain := tput m.domain d { x with state := 3, commit := true }, toApply := m.toApply ++ [d],
        job := match m.job with | some j => if j.domain && j.dtxn = some d then none else some j | none => none })
    else
      let s := ackDomain x (s.modMgmt (fun m => { m with domain := tdel m.domain d }))
      let waiting := match s.mgmt.job with | some j => j.domain && j.dtxn = some d | none => false
      let abortLog (s : State) : State := s.modMgmt (fun m => { m with log :=
        ({ cgen := m.cgen, tCommit := s.time, txn := x.txn, slot := x.slot, entries := 0, outcome := 1 } :: m.log).take 32 })
      if waiting then
        commitFails (s.mgmt.job.bind (fun j => j.sess)) x.txn 0x0D (some { index := 0, sub := 0, reason := reason, record := blame }) (abortLog s)
      else if x.origin = partAddr s then
        match x.sess with
        | some m =>
          noticeTo m 3 x.txn (abortLog (bump 0x1102 2 0 (s.modMg m (fun k => { k with txn := k.txn.map (fun t => { t with state := .opened }) }))))
        | none => abortLog (bump 0x1102 2 0 s)
      else s

/-- The coordinator decides and tells every member (step 4). -/
def decide_ (d : Nat) (commit : Bool) (blame reason : Nat) (s : State) : State :=
  match tfind s.mgmt.coord d with
  | none => s
  | some x =>
    if x.state != 0 then s
    else
      let s := updCoord d (fun x => { x with state := 2, commit := commit, blame := blame, reason := reason, awaits := x.members, lastQuery := s.time }) s
      let s := noteDecision d commit s
      let msg := leBytes 8 d ++ [BitVec.ofNat 8 (b2n commit)] ++ leBytes 2 blame ++ leBytes 1 reason
      let s := (x.members.filter (fun a => a != partAddr s)).foldl (fun s a => domSend a 0x13 msg s) s
      if x.members.contains (partAddr s) then decideIn d commit blame reason s else s

/-- The coordinator records a vote. -/
def voteIn (from_ d : Nat) (yes : Bool) (reason : Nat) (s : State) : State :=
  match tfind s.mgmt.coord d with
  | none => s
  | some x =>
    if x.state != 0 || !x.members.contains from_ then s
    else if !yes then decide_ d false from_ reason s
    else
      let x := { x with yes := if x.yes.contains from_ then x.yes else x.yes ++ [from_] }
      let s := updCoord d (fun _ => x) s
      if votesEnough s x then decide_ d true 0 0 s else s

/-- A member gets PREPARE (step 3): it votes, and holds the transaction when it says yes. -/
def prepareIn (coord origin txn d : Nat) (st : List Staged) (l : List (Nat × Slot)) (s : State) : State :=
  if (tfind s.mgmt.domain d).isSome || (decisionOf s d).isSome then s
  else
    let v := domainVote origin txn st l s
    let s := match v with
      | some _ => s
      | none =>
        let j := if origin = partAddr s then s.mgmt.job else none
        let x : DomainTxn := {
          id := d, origin := origin, coord := coord, staged := st, slots := l, state := 1, since := s.time,
          txn := txn, sess := j.bind (fun j => j.sess), slot := (j.map (fun j => j.slot)).getD 0,
          own := (j.map (fun j => j.staged)).getD [], free0 := (j.map (fun j => j.free0)).getD 0, members := askedOf s st }
        s.modMgmt (fun m => { m with
          domain := tput m.domain d x,
          job := if origin = partAddr s then m.job.map (fun j => { j with dtxn := some d, since := s.time }) else m.job })
    if coord = partAddr s then voteIn (partAddr s) d v.isNone (v.getD 0) s
    else domSend coord 0x12 (leBytes 8 d ++ [BitVec.ofNat 8 (b2n v.isNone)] ++ leBytes 1 (v.getD 0)) s

/-- The coordinator takes a transaction from its origin (steps 1 and 2). -/
def stageIn (origin txn : Nat) (st : List Staged) (l : List (Nat × Slot)) (s : State) : State :=
  let d := partAddr s * 2 ^ 52 + s.mgmt.nextDomain % 2 ^ 52
  let members := askedOf s st
  let x : DomainTxn := { id := d, origin := origin, coord := partAddr s, staged := st, slots := l, state := 0, since := s.time,
                         txn := txn, members := members }
  let s := s.modMgmt (fun m => { m with nextDomain := m.nextDomain + 1, coord := tput m.coord d x })
  let msg := leBytes 2 origin ++ leBytes 8 txn ++ leBytes 8 d ++ stagedBytes st l
  let s := (members.filter (fun a => a != partAddr s)).foldl (fun s a => domSend a 0x11 msg s) s
  if members.contains (partAddr s) then prepareIn (partAddr s) origin txn d st l s else s

-- The order of commits.

/-- COMMIT of a session past its checks: step 1, then step 2 for a domain transaction, or step 3. -/
def commitStart (m : Nat) (s : State) : State :=
  match s.mgSess m with
  | none => s
  | some k =>
    match k.txn with
    | none => s
    | some t =>
      let j : CommitJob := { sess := some m, txn := t.id, slot := k.slot, staged := t.staged, stage := 3, free0 := s.free }
      match applyEntries t.staged s with
      | .error r => commitFails (some m) t.id 0x0C (some r) s
      | .ok u =>
        if t.staged.any (isDomainWrite s) then
          let coord := coordOf s (askedOf s t.staged)
          let l := domainSlots s u
          let st := domainPart s t.staged
          let s := { s with free := Nat.max u.free s.free }
          let s := s.modMgmt (fun m => { m with job := some { j with stage := 2, domain := true, since := s.time } })
          if coord = partAddr s then stageIn (partAddr s) t.id st l s
          else domSend coord 0x10 (leBytes 2 (partAddr s) ++ leBytes 8 t.id ++ stagedBytes st l) s
        else commitStore j s

/-- A decided domain transaction is applied: at its origin with everything that its session staged. -/
def applyDecided (d : Nat) (s : State) : State :=
  match tfind s.mgmt.domain d with
  | none => s
  | some x =>
    let mine : Bool := x.origin = partAddr s
    let waiting : Bool := match x.sess with
      | some m => (match s.mgSess m with | some k => k.inFlight && (k.txn.map (fun t => t.id)) = some x.txn | none => false)
      | none => false
    let s := match x.sess with
      | some m =>
        if waiting then s
        else noticeTo m 2 x.txn (s.modMg m (fun k => { k with txn := if (k.txn.map (fun t => t.id)) = some x.txn then none else k.txn }))
      | none => s
    commitStore { sess := if waiting then x.sess else none, txn := if mine then x.txn else d, slot := x.slot,
                  staged := if mine then x.own else x.staged, slots := if mine then [] else x.slots, stage := 3, domain := false,
                  dtxn := some d, free0 := if mine then x.free0 else s.free } s

/-- Begin the next commits, while none is past step 1 (R442): decided domain transactions first. -/
def pumpCommits : Nat → State → State
  | 0, s => s
  | n + 1, s =>
    if s.mgmt.job.isSome then s
    else
      match s.mgmt.toApply with
      | d :: t => pumpCommits n (applyDecided d (s.modMgmt (fun m => { m with toApply := t })))
      | [] =>
        match s.mgmt.commits with
        | c :: t => pumpCommits n (commitStart c (s.modMgmt (fun m => { m with commits := t })))
        | [] => s

/-- Let waiting commits follow. -/
def nextCommits (s : State) : State := pumpCommits (s.mgmt.toApply.length + s.mgmt.commits.length + 1) s

-- The commands.

def execConfigStoreWritten (ok : Bool) (s : State) : Res := .next (nextCommits (configStoreWritten ok s))

def execChannelInstallCommit (n : Nat) (s : State) : Res := .next (nextCommits (channelInstall n s))

def execStage (p origin txn : Nat) (st : List Staged) (l : List (Nat × Slot)) (s : State) : Res :=
  .next (nextCommits (stageIn origin txn st l (consume p 0x10 s)))

def execPrepare (p coord origin txn d : Nat) (st : List Staged) (l : List (Nat × Slot)) (s : State) : Res :=
  .next (nextCommits (prepareIn coord origin txn d st l (consume p 0x11 s)))

def execVote (p src d : Nat) (yes : Bool) (reason : Nat) (s : State) : Res :=
  .next (nextCommits (voteIn src d yes reason (consume p 0x12 s)))

/-- DECIDE: a member that has nothing left of the transaction acknowledges again. -/
def execDecide (p coord d : Nat) (commit : Bool) (blame reason : Nat) (s : State) : Res :=
  let s := consume p 0x13 s
  .next (nextCommits (
    if (tfind s.mgmt.domain d).isSome then decideIn d commit blame reason s
    else domSend coord 0x14 (leBytes 8 d) (noteDecision d commit s)))

def execDomainAck (p src d : Nat) (s : State) : Res :=
  .next (updCoord d (fun x => { x with awaits := x.awaits.filter (fun a => a != src) }) (consume p 0x14 s))

/-- QUERY: a member that holds the decision answers. -/
def execQuery (p src d : Nat) (s : State) : Res :=
  let s := consume p 0x15 s
  .next (match decisionOf s d with
    | some c => domSend src 0x16 (leBytes 8 d ++ [BitVec.ofNat 8 (b2n c)]) s
    | none => s)

def execOutcome (p d : Nat) (commit : Bool) (s : State) : Res :=
  .next (nextCommits (decideIn d commit 0 3 (consume p 0x16 s)))

/-- SYNC of a tenant: its record and replicated slots are copied where they differ, the DOMAIN entry where its version is
higher; the last one of a tenant ends its hold (R294, R479). -/
def execSync (p t : Nat) (rec_ : Tenant) (l : List (Nat × Slot)) (domVer : Nat) (members : Bytes) (last : Bool) (s : State) : Res :=
  let s := consume p 0x18 s
  let s := if s.mgmt.domVer < domVer then
      (s.setOctets 0x6006 1 members).modMgmt (fun m => { m with domVer := domVer }) else s
  .next (
    if !(domainList s).contains (partAddr s) || !rec_.replicated then s
    else
      let own := s.tenant t
      let s := s.setTenant t { rec_ with mkg := own.mkg, mkgen := s.ks.mkgen, resync := own.resync && !last }
      applySlots (l.filter (fun e => decide (s.slot e.1 ≠ sharedInto (s.slot e.1) e.2))) (ksChanged s))

/-- PREPARE_TIMEOUT: a vote is missing, or a member has left the domain before voting. -/
def execPrepareTimeout (d : Nat) (s : State) : Res :=
  .next (nextCommits (
    match tfind s.mgmt.coord d with
    | none => s
    | some x =>
      let miss := x.members.filter (fun a => !x.yes.contains a)
      let left := miss.find? (fun a => s.frz.removed.contains a)
      if x.state = 0 && (x.since + s.cfg 0x6005 2 * 1000000 ≤ s.time || left.isSome) then
        decide_ d false (left.getD (miss.headD 0)) 3 s
      else s))

/-- DECIDE_RESEND: every 100 ms, to the members that have not acknowledged and are still in the domain. -/
def execDecideResend (d : Nat) (s : State) : Res :=
  .next (
    match tfind s.mgmt.coord d with
    | none => s
    | some x =>
      if x.state != 2 || s.time < x.lastQuery + 100000000 then s
      else
        let left := x.awaits.filter (fun a => !s.frz.removed.contains a)
        let s := updCoord d (fun x => { x with awaits := left, lastQuery := s.time }) s
        let msg := leBytes 8 d ++ [BitVec.ofNat 8 (b2n x.commit)] ++ leBytes 2 x.blame ++ leBytes 1 x.reason
        (left.filter (fun a => a != partAddr s)).foldl (fun s a => domSend a 0x13 msg s) s)

/-- QUERY_TIMER: every 1 s a member in doubt asks every reachable member; a new coordinator decides abort when the old one
is zeroized, every other member is reachable and a round of queries has brought no decision (Table 14-13). -/
def execQueryTimer (d : Nat) (s : State) : Res :=
  .next (nextCommits (
    match tfind s.mgmt.domain d with
    | none => s
    | some x =>
      if x.state != 1 || s.time < Nat.max x.since x.lastQuery + 1000000000 then s
      else
        let others := x.members.filter (fun a => a != x.coord)
        if s.frz.removed.contains x.coord && coordOf s others = partAddr s && (reachable s others).length = others.length &&
            x.lastQuery != 0 then
          let s := noteDecision d false s
          let msg := leBytes 8 d ++ [0] ++ leBytes 2 x.coord ++ leBytes 1 3
          let s := (others.filter (fun a => a != partAddr s)).foldl (fun s a => domSend a 0x13 msg s) s
          decideIn d false x.coord 3 s
        else
          let s := updDomain d (fun x => { x with lastQuery := s.time }) s
          ((reachable s x.members).filter (fun a => a != partAddr s)).foldl (fun s a => domSend a 0x15 (leBytes 8 d) s) s))

/-- DECISION_WAIT_TIMEOUT: the origin has voted and has no DECIDE within the prepare timeout plus 1 s: the reply is 0x0E,
and the transaction waits for its outcome. -/
def execDecisionWaitTimeout (s : State) : Res :=
  .next (nextCommits (
    match s.mgmt.job with
    | none => s
    | some j =>
      if !j.domain || s.time < j.since + s.cfg 0x6005 2 * 1000000 + 1000000000 then s
      else if j.dtxn.isNone then
        -- no PREPARE has come, so the origin has not voted: its coordinator's part is missing
        commitFails j.sess j.txn 0x0D (some { index := 0, sub := 0, reason := 3, record := coordOf s (askedOf s j.staged) }) s
      else
        let s := s.modMgmt (fun m => { m with job := none })
        match j.sess with
        | some m =>
          mgDone m 0x11 0x0E j.txn (commitReply 0 0 none)
            (s.modMg m (fun k => { k with txn := k.txn.map (fun t => { t with state := .domainPending }) }))
        | none => s))

/-- A write of a DTXN to OD 0x6005.03 (R479). -/
def abandonDtxn (d : Nat) (s : State) : State :=
  match tfind s.mgmt.domain d with
  | none => s
  | some x =>
    if x.state != 1 then s
    else
      let ts := (x.slots.map (fun e => (s.slot e.1).tenant)) ++ (x.slots.map (fun e => e.2.tenant)) ++
        (((x.staged.filter (fun y => y.index = 0x5007)).map (fun y => (records 16 y.data.length y.data).map (fun b => leAt b 0 2))).flatten) ++
        (((x.staged.filter (fun y => y.index = 0x5004)).map (fun y => (records 16 y.data.length y.data).map (fun b => leAt b 8 2))).flatten)
      let stale := ts.eraseDups.filter (fun t => (s.tenant t).replicated)
      let s := stale.foldl (fun s t => s.setTenant t { s.tenant t with resync := true }) s
      decideIn d false (partAddr s) 3 s

end Sys2Proof.Machine
end

