-- ==== Sys2Proof/Machine/Health.lean ====
section
/-! DEFINITION. Health (chapter 18): the clear of counters (R590), requests for self-tests and the release of a
quarantined channel (R594, R595), slices on shared blocks (R596), divergence (R597) and measurements (R598 to R602). -/

namespace Sys2Proof.Machine

-- Counters (R589, R590).

/-- Entries of a largest or lowest value, which the clear serves too. -/
def isExtreme (key : Nat) : Bool := [0x905303, 0x905304, 0x906402, 0x200003, 0x200004].contains key

/-- May the clear name this entry? -/
def clearable (index sub : Nat) : Bool :=
  (match odFind index sub with | some e => e.counter | none => false) || isExtreme (odKey index sub)

/-- Value of an entry that the clear serves, as the session sees it. -/
def counterValue (s : State) (k : MgSess) (index sub : Nat) : Nat :=
  match odFind index sub with
  | some e => (match odVal s k e index sub with | .num v => v.toNat | .oct _ => 0)
  | none => 0

/-- Zero an entry, with its overflow flag and its place in the list of saturated entries. -/
def zeroCounter (k : MgSess) (s : State) (key : Nat) : State :=
  let index := key / 256
  let sub := key % 256
  let c := ctrKey index sub (selUnit k index)
  let s := { s with ctr := tset 0 s.ctr c 0, ovf := s.ovf.filter (fun x => x != c) }
  let s := { s with health := { s.health with saturated := s.health.saturated.filter (fun x => x != key) } }
  let rail := selValue k 0x2000 1
  match key with
  | 0x200003 => { s with health := { s.health with railMin := tdel s.health.railMin rail } }
  | 0x200004 => { s with health := { s.health with railMax := tdel s.health.railMax rail } }
  | 0x900501 => { s with health := { s.health with unavailable := 0 } }
  | 0x900502 => { s with health := { s.health with unavailableSinceClear := 0 } }
  | _ =>
    if 0x2100 ≤ index ∧ index < 0x2104 ∧ sub = 3 then s.setPort (index % 16) { s.port (index % 16) with fecCorrected := 0 }
    else if 0x2100 ≤ index ∧ index < 0x2104 ∧ sub = 4 then s.setPort (index % 16) { s.port (index % 16) with fecUncorrected := 0 }
    else s

/-- Keys that a clear of INDEX and SUB names. -/
def clearKeys (index sub : Nat) : List Nat :=
  if index = 0xFFFF then (if sub = 0xFF then odKeys.filter (fun x => clearable (x / 256) (x % 256)) else [])
  else if sub = 0xFF then ((List.range 255).filter (fun i => clearable index i)).map (fun i => odKey index i)
  else if clearable index sub then [odKey index sub] else []

/-- The health record of a clear (R587). -/
def clearRecord (index sub : Nat) (s : State) : State :=
  healthRecord { source := 0xFFFF, unit := index, count := sub, lasting := false, time := s.time } s

/-- A write to OD 0x9001.01 by session `m` (R590). -/
def counterClear (m : Nat) (b : Bytes) (s : State) : Except Nat State :=
  let index := leAt b 0 2
  let sub := leAt b 2 1
  if b.length ≠ 4 ∨ leAt b 3 1 ≠ 0 then .error 1
  else
    match s.mgSess m with
    | none => .error 6
    | some k =>
      match clearKeys index sub with
      | [] => .error 6
      | keys =>
        let was := counterValue s k index sub
        let s := keys.foldl (zeroCounter k) s
        let s := if index = 0xFFFF ∨ sub = 0xFF then s else s.modMg m (fun k => { k with lastCleared := was })
        .ok (clearRecord index sub s)

-- Self-tests asked for (R594, R595).

/-- A write of CHANNEL and URGENT to OD 0x9002.02 (R594). -/
def selfTestWrite (b : Bytes) (s : State) : Except Nat State :=
  let n := leAt b 0 1
  let urgent := leAt b 1 1
  if b.length ≠ 2 then .error 1
  else if 9 ≤ n ∨ 2 ≤ urgent then .error 6
  else if urgent = 0 then .ok { s with rest := { s.rest with reqNormal := some n } }
  else if (s.chan n).data = .quarantine || (s.rest.lastUrgent.any (fun t => decide (s.time < t + 10000000000))) then .error 0x10
  else .ok (urgentMove { s with rest := { s.rest with reqUrgent := some n, lastUrgent := some s.time } })

/-- The supervisor resets a quarantined channel's cores and starts its test. -/
def quarantineTest (n : Nat) (s : State) : State := startTest n (resetChannel n s)

/-- A write to OD 0x9002.06 (R595): one further test of a channel held in QUARANTINE. -/
def quarantineRelease (n : Nat) (s : State) : Except Nat State :=
  if 9 ≤ n then .error 6
  else if (s.chan n).data ≠ .quarantine ∨ !(s.chan n).heldQuarantine ∨ (s.chan n).testPhase ≠ 0 then .error 0x10
  else .ok (quarantineTest n s)

def execQuarantineTestStart (n : Nat) (s : State) : Res :=
  .next (if n < 9 && (s.chan n).data = .quarantine && (s.chan n).testPhase = 0 && !(s.chan n).heldQuarantine && !s.supRestarting then
      quarantineTest n s
    else s)

-- Shared blocks (R596).

/-- Failure of a slice, by the row of Table 18-3. -/
def sliceFails (block unit : Nat) (s : State) : State :=
  match block with
  | 0 | 1 => { s with health := { s.health with sharedRetired := tput s.health.sharedRetired (block * 64 + unit % 64) 1 } }
  | 2 => (countFault 9 0 2 s).1
  | 3 | 4 | 7 => raiseOther 2 s
  | 5 =>
    let n := tget 0 s.health.mpeWithdrawn (unit / 3) + 1
    let s := { s with health := { s.health with mpeWithdrawn := tput s.health.mpeWithdrawn (unit / 3) n } }
    if n = 2 then raiseOther 2 s else s
  | 6 =>
    let n := s.health.regionsRemapped + 1
    let s := { s with health := { s.health with regionsRemapped := n } }
    if n = 16 then raiseOther 2 s else s
  | 8 => raiseAlarm (0x19 + unit % 2) [] s
  | 9 => raiseAlarm 0x1D (leBytes 1 unit) s
  | _ => (countFault 4 (unit % 8) 2 s).1

def execSharedBlockTestSlice (block unit : Nat) (ok last : Bool) (s : State) : Res :=
  let s := if ok then s else sliceFails block unit s
  .next (if last then { s with health := { s.health with sharedPassEnd := s.time } } else s)

-- Divergence (R597).

/-- Quarantine of a paired unit (Table 18-4): both states take the quarantine state in one step. The spec gives the
PCIe rings no ERROR for it. -/
def quarantineUnit (group unit : Nat) (s : State) : State :=
  match group with
  | 0 => quarantineChannel unit s
  | 1 => devEvent (0x8058 + unit) 0 (s.setPort unit { s.port unit with up := false, mgmtUp := false, disabled := true, divergeSince := none })
  | 2 =>
    let s := s.rings.foldl (fun s e =>
      if e.2.state = .disabled ∨ e.2.state = .stopped then s
      else ringError (e.1 / 256) (e.1 % 256) (freeNat 65536 s) (useFree s)) s
    let s := (List.range 8).foldl (fun s f => (dropSessions (fun m _ => m = 8 + f) s).modMailbox f (fun _ => {})) s
    { s with pcie := { s.pcie with up := false, mgmtUp := false, training := true, divergeSince := none } }
  | _ => portDown unit .failed s

/-- Is this a paired unit? -/
def pairedUnit (group unit : Nat) : Bool :=
  match group with
  | 0 => unit < 9
  | 1 => unit < 4
  | 2 => unit = 0
  | 3 => unit < 3
  | _ => false

def execStateDivergence (group unit : Nat) (s : State) : Res :=
  .next (
    if !pairedUnit group unit then s
    else
      let s := (countFault 0x11 unit 0 (devEvent 0x8040 unit s)).1
      let s := if group = 0 then devEvent (0x8020 + unit) 0x11 s else s
      quarantineUnit group unit s)

/-- PCIe link training ends (R597, R598): speed in GT/s and width in lanes. -/
def execPcieTrainingComplete (speed width : Nat) (s : State) : Res :=
  .next (if !s.pcie.training then s
    else { s with pcie := { s.pcie with up := true, mgmtUp := true, training := false, speed := speed, width := width, divergeSince := none } })

-- Measurements (R598 to R601).

/-- RAIL_SAMPLE: mV of rails 0 to 9, with the lowest and highest since the clear. -/
def execRailSample (mv : List Nat) (s : State) : Res :=
  .next (
    if !s.batt.mainPower then s
    else
      (List.zip (List.range 10) mv).foldl (fun s e =>
        let h := s.health
        let v := e.2 % 65536
        { s with health := { h with
            railNow := tput h.railNow e.1 v,
            railMin := tput h.railMin e.1 (match tfind h.railMin e.1 with | some x => Nat.min x v | none => v),
            railMax := tput h.railMax e.1 (match tfind h.railMax e.1 with | some x => Nat.max x v | none => v) } }) s)

/-- TEMPERATURE_SAMPLE: the 20 points, 16 of the main die and 4 of the Plinth die, in 1/16 °C. Above 105 °C the part
raises an event and a health record, whose numbers the spec does not give. -/
def execTemperatureSample (points : List Int) (s : State) : Res :=
  .next (
    if !s.batt.mainPower then s
    else
      let s := (List.zip (List.range 20) points).foldl (fun (s : State) e =>
        { s with health := { s.health with temps := tput s.health.temps e.1 e.2 } }) s
      if (points.take 20).any (fun v => decide (1680 < v)) then
        let s := devEvent (freeNat 65536 s) 0 (useFree s)
        healthRecord { source := freeNat 65536 s, unit := 0, count := 1, lasting := false, time := s.time } (useFree s)
      else s)

/-- BATTERY_VOLTAGE_SAMPLE: the open-circuit voltage; it is no detector (R601). -/
def execBatteryVoltageSample (mv : Nat) (s : State) : Res :=
  .next (if s.batt.mainPower then { s with health := { s.health with battMv := mv % 65536 } } else s)

/-- BATTERY_LOAD_TEST (R599): the drop from V0 to V1 at 2 mA, skipped below 2.6 V. Each test draws 5.6 nAh; the charge
is held in tenths of a nAh. -/
def execBatteryLoadTest (v0 v1 : Nat) (s : State) : Res :=
  .next (
    if !s.batt.mainPower || decide (s.health.battMv < 2600) then s
    else
      let mohm := (v0 - v1) * 500
      let s := { s with health := { s.health with battRes := mohm, battTest := s.time, charge := s.health.charge + 56 } }
      if s.cfg 0x2010 4 * 1000 < mohm then (countFault 0x12 0 0 s).1 else s)

/-- A write to OD 0x2010.08 (R600). -/
def newCellWrite (s : State) : State := { s with health := { s.health with charge := 0 } }

/-- What the passing of a tick of device time brings with it: a full ms is counted. -/
def passTick (s : State) : State := if s.time % 1000000 = 0 then countMs 1 s else s

/-- The 1 ms minimum assertion of ALM_N ends (R496): the outputs follow the level held. -/
def execAlmNAssertionExpiry (s : State) : Res := .next (updatePins s)

end Sys2Proof.Machine
end

