-- ==== Sys2Proof/Machine/Banks.lean ====
section
/-! DEFINITION. Activation, trial and reversion of a firmware bank (16, R548 to R550) and the restart of the supervisor
(10, Table 10-11; 13, R444). -/

namespace Sys2Proof.Machine

/-- PLINTH_FIRMWARE_RESTART (steps 3 and 4 of Table 16-15, R549): the firmware runs from the bank named, and restarts
the supervisor; every channel that runs the other release has to take its runtime. -/
def execPlinthFirmwareRestart (s : State) : Res :=
  .next (
    if !s.life.fwRestart then s
    else
      let olds := if s.life.act = 3 then (List.range 9).filter (fun n => !s.life.olds.contains n) else List.range 9
      { s with life := { s.life with fwRestart := false, olds := olds }, supRestarting := true })

/-- SUPERVISOR_RESTART: the supervisor starts from its image; steps 5 and 6 of a logged commit are completed, every
session closes and open transactions roll back. -/
def execSupervisorRestart (s : State) : Res :=
  .next (
    if !s.supRestarting then s
    else
      let s := startCore 0x50 s
      let s := dropSessions (fun _ _ => true) s
      let waits := match s.mgmt.job with | some j => if j.stage = 6 then j.waits else [] | none => []
      let s := waits.foldl (fun s n => channelInstall n s) s
      let s := syncQueues (assignHomes { s with supRestarting := false })
      bankMove (nextCommits s))

/-- TRIAL_EXPIRY (step 6 of Table 16-15): the bank is CONFIRMED, and ROLLBACK blown up to its SECVER. The bank that was
confirmed before becomes LOADED (DESIGN CHOICE, log 46). -/
def execTrialExpiry (s : State) : Res :=
  .next (
    if s.life.act = 2 && decide (s.life.trialAt + s.cfg 0x8020 4 * 1000000000 ≤ s.time) then
      let b := selectedBank s
      let o := otherBank s
      let s := setOther (if o.state = .confirmed then { o with state := .loaded } else o) (setSelected { b with state := .confirmed } s)
      bankEntry 3 false { s with life := { s.life with
        act := 0, fuses := { s.life.fuses with rollback := Nat.max s.life.fuses.rollback b.secver } } }
    else s)

/-- A write of 1 to OD 0x8020.06. -/
def revertWrite (s : State) : Except Nat State := if inTrial s then .ok (beginRevert s) else .error 0x10

end Sys2Proof.Machine
end

