-- ==== Sys2Proof/Machine/SdCards.lean ====
section
/-! DEFINITION. The SD slot, the part's volume and its sets (17, R554 to R569). -/

namespace Sys2Proof.Machine

/-- A command to the card. -/
def sdCmd (cmd arg : Nat) (s : State) : State := emit (.sd cmd arg) s

def sdCmds (l : List (Nat × Nat)) (s : State) : State := l.foldl (fun s c => sdCmd c.1 c.2 s) s

/-- The card is powered off: the slot's outputs (steps 2 to 5 of Table 17-6). -/
def sdOff (s : State) : State := s.modSd (fun d => { d with clk := false, pwrEn := false, vsel := false })

/-- Mode and width chosen: the fastest that the card and OD 0x8101.01 permit (R554). -/
def sdMode (s : State) (c : SdCard) : Nat × Nat :=
  let top := s.cfg 0x8101 1
  if c.s18 && 2 ≤ top && 2 ≤ c.mode then (Nat.min c.mode top, 4) else (Nat.min 1 (Nat.min c.mode top), s.cfg 0x8101 2)

/-- A card that has been in place for 100 ms is powered and identified (R555). `fail`: the step of R555 that it fails, 0
for none. -/
def sdInsert (card : SdCard) (fail : Nat) (s : State) : State :=
  if s.cards.sd.state != .empty then s
  else
    let top := s.cfg 0x8101 1
    let s := sdCmds [(0, 0), (8, 0x1AA), (41, 2 ^ 30 + b2n (decide (2 ≤ top)) * 2 ^ 24)] s
    let stopsAt := if fail != 0 then fail else if !card.sdhc then 3 else 0
    if stopsAt != 0 && stopsAt ≤ 4 then sdOff (s.modSd (fun d => { d with state := .refused, card := some card }))
    else
      let uhs := card.s18 && decide (2 ≤ top)
      let s := if uhs then sdCmd 11 0 s else s
      let s := sdCmds [(2, 0), (3, 0), (9, 0), (7, 0), (51, 0), (6, 0)] s
      let s := s.modSd (fun d => { d with card := some card, cid := card.cid, csd := card.csd, scr := card.scr, ocr := card.ocr })
      if stopsAt != 0 || card.locked then sdOff (s.modSd (fun d => { d with state := .refused }))
      else
        let (mode, width) := sdMode s card
        let s := sdCmd 6 mode s
        let s := if mode = 4 then sdCmd 19 0 s else s
        logEntry 0x0B00 1 (padTo 16 card.cid) (s.modSd (fun d => { d with
          state := .ready, mode := mode, width := width, vsel := uhs, clk := true, pwrEn := true, lastXfer := s.time }))

/-- The switch opens (Table 17-6): the slot is EMPTY, a set in progress ends with outcome 1. -/
def sdRemove (s : State) : State :=
  if s.cards.sd.state = .empty then s
  else
    let was := s.cards.sd.state.code
    let s := abandonSet 1 s
    let s := sdOff (s.modSd (fun d => { d with state := .empty, card := none, mode := 0, width := 0, cid := [], csd := [], scr := [], ocr := 0 }))
    logEntry 0x0B00 2 [BitVec.ofNat 8 was] s

def execSdCardRemove (s : State) : Res := .next (sdRemove s)

/-- A card error (R557): the set in progress is uncommitted, the card is powered off and the slot FAILED. -/
def execSdBusyTimeout (s : State) : Res :=
  .next (if s.cards.sd.state != .busy then s
    else sdOff ((bump 0x9072 1 0 (abandonSet 2 s)).modSd (fun d => { d with state := .failed })))

/-- The idle time of OD 0x8101.03 has passed (R558). -/
def execSdSleep (s : State) : Res :=
  .next (if s.cards.sd.state = .ready && decide (s.cards.sd.lastXfer + s.cfg 0x8101 3 * 1000000 ≤ s.time) then
      sdCmd 7 0 (s.modSd (fun d => { d with state := .asleep, clk := false }))
    else s)

/-- Wake a card that sleeps. -/
def sdWake (s : State) : State :=
  if s.cards.sd.state = .asleep then sdCmds [(7, 1), (13, 0)] (s.modSd (fun d => { d with state := .ready, clk := true })) else s

/-- A command of the dictionary for a card that is ready or asleep; 0x10 in any other state. -/
def withCard (s : State) (go : SdCard → State → State) : Except Nat State :=
  match s.cards.sd.state, s.cards.sd.card with
  | .ready, some c => .ok (go c s)
  | .asleep, some c => .ok (go c (sdWake s))
  | _, _ => .error 0x10

def cardProtected (c : SdCard) : Bool := c.perm || c.tmp

/-- Busy after a write or CMD27. -/
def sdBusy (s : State) : State := s.modSd (fun d => { d with state := .busy, lastXfer := s.time })

/-- Format the card (R560). VOLUME_ID is the key hardware's draw. -/
def formatCard (s : State) : Except Nat State :=
  withCard s (fun c s =>
    if cardProtected c then setOutcome 0 0 3 0 s
    else
      let vol := freeBytes 16 s
      let s := sdCmds [(23, 65), (25, 0)] (useFree s)
      logEntry 0x0B00 6 vol (sdBusy (s.modSd (fun d => { d with card := some { c with volume := some vol, sets := [], recoveryRecord := [] } }))))

/-- Bytes of a key-store image (R296); the spec leaves the widths of index and length open, 4 bytes each here (log 45). -/
def imageBytesOf (i : KsImage) : Nat :=
  64 + 65536 * 128 + (i.slots.map (fun e => 4 + 128 + (if e.2.ext then 8 + e.2.pub.length + e.2.material.length else 0) +
    (if e.2.blob then 8 + e.2.keyBlock.length else 0) + (if e.2.pinned then 4 else 0))).sum

/-- Content bytes of a set. -/
def bodyBytes (b : SetBody) : Nat :=
  match b with
  | .backup i => imageBytesOf i
  | .exported es st => 64 * es.length + (st.map (fun x => x.length)).sum
  | .recovery p _ => p.len
  | .ack r => 128 * r.length

/-- The number of the next set, and its first block (R563). -/
def nextSet (c : SdCard) : Nat := (c.sets.foldl (fun m x => Nat.max m x.no) 0) + 1

/-- Start a set: header block, data blocks, commit block at the end (R562, R563). -/
def startSet (d1 d2 : Nat) (mkid : Bytes) (body : SetBody) (c : SdCard) (s : State) : State :=
  let n := (bodyBytes body + 479) / 480
  let st := body.stype
  let first := nextBlockOf c
  if cardProtected c then setOutcome (nextSet c) st 3 0 s
  else if c.volume.isNone || c.capacity < first + n + 2 then setOutcome (nextSet c) st 4 0 s
  else
    let j : CardSet := { no := nextSet c, first := first, blocks := n, serial := serialBytes s, created := s.time, mkid := mkid,
                         d1 := d1, d2 := d2, body := body, committed := false }
    sdBusy (sdCmd 24 first (s.modSd (fun d => { d with job := some j, written := 0 })))

/-- Key-store backup (R566): a snapshot, with no anchor. -/
def backupSet (s : State) : Except Nat State :=
  withCard s (fun c s =>
    let gen := (match s.ks.anchor with | some a => a.gen | none => 0) + 1
    startSet gen 0 s.ks.mkid (.backup (snapshot gen s)) c s)

/-- Recovery set from the confirmed bank (R568). -/
def recoverySet (s : State) : Except Nat State :=
  let b := if s.life.bankA.state = .confirmed then s.life.bankA else s.life.bankB
  if b.state != .confirmed then .error 0x10 else withCard s (startSet b.release 0 [] (.recovery b true))

/-- Checkpoint statements of a log set, each with its signatures, and the state that has signed them. -/
def exportStatements : List Entry → State → List Bytes × State
  | [], s => ([], s)
  | e :: t, s =>
    let (b, s) := signedStatement s e
    let (l, s) := exportStatements t s
    (b :: l, s)

/-- Patina entries written from a SEQ to the newest checkpoint (R567). A SEQ with no checkpoint at or after it is out of range. -/
def exportSet (seq : Nat) (s : State) : Except Nat State :=
  let es := (retained s).filter (fun e => seq ≤ e.seq && e.seq ≤ s.pat.lastCp)
  if es.isEmpty then .error 6
  else
    withCard s (fun c s =>
      let (st, s) := exportStatements (es.filter isCheckpoint) s
      startSet seq s.pat.lastCp [] (.exported (es.map Entry.bytes) st) c s)

/-- Clear TMP_WRITE_PROTECT (R559), while PERM_WRITE_PROTECT is clear. -/
def clearTmp (s : State) : Except Nat State :=
  withCard s (fun c s =>
    if c.perm then setOutcome 0 0 3 0 s
    else logEntry 0x0B00 5 [0] (sdBusy (sdCmd 27 0 (s.modSd (fun d => { d with card := some { c with tmp := false } })))))

/-- A run has been programmed (R556, R557): the next run of at most 128 blocks follows, or the card is ready. -/
def execCardBusyRelease (s : State) : Res :=
  .next (
    if s.cards.sd.state != .busy then s
    else
      match s.cards.sd.job with
      | none => s.modSd (fun d => { d with state := .ready, lastXfer := s.time })
      | some j =>
        let left := j.blocks - s.cards.sd.written
        if left = 0 then s
        else
          let run := Nat.min 128 left
          sdCmds [(23, run), (25, j.first + 1 + s.cards.sd.written)]
            (s.modSd (fun d => { d with written := d.written + run, lastXfer := s.time })))

/-- The commit block is written (R563): a backup is then write-protected, a log set counts as a read of its statements. -/
def execSetWriteComplete (s : State) : Res :=
  .next (
    match s.cards.sd.job, s.cards.sd.card with
    | some j, some c =>
      if s.cards.sd.state != .busy || s.cards.sd.written < j.blocks then s
      else
        let backup := j.body.stype = 1
        let s := setOutcome j.no j.body.stype 0 j.blocks (sdCmd 24 (j.first + 1 + j.blocks) s)
        let sets := c.sets.filter (fun x => x.no < j.no) ++ [{ j with committed := true }]
        let s := s.modSd (fun d => { d with card := some { c with sets := sets, tmp := c.tmp || backup }, state := .ready, lastXfer := s.time })
        let s := match j.body with
          | .exported _ _ => s.modPat (fun p => { p with readCps :=
              ((retained s).filter (fun e => isCheckpoint e && j.d1 ≤ e.seq && e.seq ≤ j.d2)).foldl (fun l e =>
                if l.contains e.seq then l else e.seq :: l) p.readCps })
          | _ => s
        if backup then sdBusy (sdCmd 27 1 (logEntry 0x0B00 5 [1] s)) else s
    | _, _ => s)

/-- One acknowledgement record (R567): its principal, its signature, and R512. -/
def applyAckRec (r : AckRec) (s : State) : Except Nat State :=
  let role := tget 0 s.mgmt.principals r.slot
  let data := serialBytes s ++ leBytes 8 r.cpSeq ++ r.link
  if r.rsv ≠ 0 ∨ (role ≠ 1 ∧ role ≠ 2) ∨ !pkVerify 2 2 false (s.slot r.slot).pub (digest 2 data 0) [] r.sig then .error 6
  else checkpointAck r.cpSeq r.link r.slot role 3 s

/-- Records in order up to the first refused, whose index OD 0x7114.03 shows. -/
def applyAckRecs : Nat → List AckRec → State → State
  | _, [], s => s
  | i, r :: t, s =>
    match applyAckRec r s with
    | .ok s => applyAckRecs (i + 1) t s
    | .error _ => s.modSd (fun d => { d with ackRefused := i })

/-- Apply the acknowledgement sets of the card (R567). -/
def applyAcks (s : State) : Except Nat State :=
  withCard s (fun c s =>
    let rs := (c.sets.filter (fun x => x.committed)).flatMap (fun x => match x.body with | .ack r => r | _ => [])
    applyAckRecs 0 rs (sdCmd 18 64 (s.modSd (fun d => { d with ackRefused := 0xFFFFFFFF, lastXfer := s.time }))))

end Sys2Proof.Machine
end

