-- ==== Sys2Proof/Machine/Ceremony.lean ====
section
/-! DEFINITION. Officer cards and ceremonies (17, R571 to R582; 16, R535 to R537). -/

namespace Sys2Proof.Machine

-- GF(2^8) with x^8 + x^4 + x^3 + x + 1 (R578).

def gfDouble (a : Nat) : Nat := if a < 128 then 2 * a else (2 * a) % 256 ^^^ 0x1B

/-- Product, by the eight bits of the second factor. -/
def gfMul (a b : Nat) : Nat :=
  ((List.range 8).foldl (fun (x : Nat × Nat) i => (if bit b i then x.1 ^^^ x.2 else x.1, gfDouble x.2)) (0, a % 256)).1

/-- Inverse: the 254th power. -/
def gfInv (a : Nat) : Nat := (List.range 253).foldl (fun x _ => gfMul x a) a

/-- Value at x of a polynomial, its coefficients from degree 0 up. -/
def gfEval (cs : List Nat) (x : Nat) : Nat := cs.reverse.foldl (fun v c => gfMul v x ^^^ c) 0

/-- Interpolation at 0 of points (x, y) with distinct x. -/
def gfAtZero (ps : List (Nat × Nat)) : Nat :=
  ps.foldl (fun v p =>
    v ^^^ (ps.filter (fun q => q.1 != p.1)).foldl (fun w q => gfMul w (gfMul q.1 (gfInv (p.1 ^^^ q.1)))) p.2) 0

/-- Share `i` of the secret under drawn coefficients: byte b's polynomial has S[b] at degree 0 (R578). -/
def shareBytes (secret coeffs : Bytes) (m i : Nat) : Bytes :=
  (List.range 64).map (fun b =>
    BitVec.ofNat 8 (gfEval (leAt secret b 1 :: (List.range (m - 1)).map (fun d => leAt coeffs (64 * d + b) 1)) i))

/-- The secret from share records. -/
def combineShares (rs : List Bytes) : Bytes :=
  (List.range 64).map (fun b => BitVec.ofNat 8 (gfAtZero (rs.map (fun r => (leAt r 14 1, leAt r (16 + b) 1)))))

/-- Identity of the master key whose W1 is the second half of S (R263). -/
def secretId (secret : Bytes) : Bytes := (cmac 0x220 (slice secret 32 32) labelIdentity).take 8

/-- Share record `i` (R578). -/
def shareRecord (mkid : Bytes) (mkgen m n i : Nat) (share : Bytes) : Bytes :=
  padTo 8 mkid ++ leBytes 4 mkgen ++ leBytes 1 m ++ leBytes 1 n ++ leBytes 1 i ++ [0] ++ share ++ zeros 16

-- Officer slots.

def setOfficer (k : Nat) (o : OfficerSlot) (s : State) : State :=
  { s with cards := if k = 0 then { s.cards with slot0 := o } else { s.cards with slot1 := o } }
def modOfficer (k : Nat) (f : OfficerSlot → OfficerSlot) (s : State) : State := setOfficer k (f (officerSlot s k)) s

/-- Send a command of Table 17-9 and await its answer. -/
def askCard (k ins step : Nat) (data : Bytes) (s : State) : State :=
  emit (.officer k ([0x80, BitVec.ofNat 8 ins] ++ data)) (modOfficer k (fun o => { o with step := step }) s)

def officerHash (o : OfficerSlot) : Bytes := digest 2 o.pub 0

/-- A card is refused for the ceremony (R573): entry, count, and the slot REFUSED. -/
def refuseCard (k : Nat) (s : State) : State :=
  let s := if cerOpen s then logEntry 0x0C00 2 (leBytes 8 s.cards.cer.cnum ++ leBytes 1 k ++ leBytes 1 5) s else s
  bump 0x9072 3 0 (modOfficer k (fun o => { o with state := .refused, step := 0, authed := false, keys := [], eph := [], sent := [] }) s)

/-- Sealed records (R574): the direction's key and IV, and a counter of the records sealed under them (log 44). -/
def officerSeal (o : OfficerSlot) (b : Bytes) : Bytes × OfficerSlot :=
  let iv := slice o.keys 68 4 ++ leBytes 8 (o.txN + 1)
  let ct := gcmCrypt (slice o.keys 32 32) iv b
  (ct ++ gcmTag (slice o.keys 32 32) iv [] ct, { o with txN := o.txN + 1 })

def officerUnseal (o : OfficerSlot) (b : Bytes) : Option Bytes × OfficerSlot :=
  let iv := slice o.keys 64 4 ++ leBytes 8 (o.rxN + 1)
  let ct := b.take (b.length - 16)
  (if gcmTag (slice o.keys 0 32) iv [] ct = b.drop (b.length - 16) then some (gcmCrypt (slice o.keys 0 32) iv ct) else none,
   { o with rxN := o.rxN + 1 })

/-- With an empty roster, MK_GENERATE and MK_COMBINE enrol cards. -/
def enrols (s : State) : Bool := s.cards.roster.isEmpty && (s.cards.cer.ctype = 1 || s.cards.cer.ctype = 2)

/-- The officers whose cards the ceremony knows by position: the roster, or those it enrols. -/
def cerOfficers (s : State) : List (Nat × Bytes) := if enrols s then s.cards.cer.approvals else s.cards.roster

def officerPos (s : State) (o : OfficerSlot) : Option Nat := (cerOfficers s).findIdx? (fun e => e.2 = officerHash o)

/-- AUTHENTICATE: a fresh key, nonce and signature of the Plinth key hardware (R574). -/
def startAuth (k : Nat) (s : State) : State :=
  let eph := freeBytes 48 s
  let s := useFree s
  let np := freeBytes 32 s
  let s := useFree s
  let data := padTo 97 (pkPublic 4 eph) ++ np ++ serialBytes s ++ padTo 48 s.cards.cer.cd
  let sig := padTo 96 (pkSign 2 2 (patinaEcdsa s) (digest 2 data 0) [] (freeBytes 48 s))
  askCard k 0x12 3 (data ++ sig) (modOfficer k (fun o => { o with state := .inCeremony, eph := eph, sent := data }) (useFree s))

/-- What a card that is free to answer is asked next. -/
def feedCard (k : Nat) (s : State) : State :=
  let o := officerSlot s k
  let c := s.cards.cer
  let h := officerHash o
  if o.step != 0 || !cerOpen s || !(o.state = .ready || o.state = .inCeremony) then s
  else if !o.authed then startAuth k s
  else
    let given := c.given.any (fun e => (officerPos s o) = some e.1)
    match c.state, officerPos s o with
    | .writingCards, some i =>
      if c.confirmed.any (fun e => e.2 = h) then s
      else
        match c.shares[i]? with
        | some r =>
          let (b, o') := officerSeal o r
          askCard k 0x14 4 b (setOfficer k { o' with share := r } s)
        | none => s
    | .collecting, some _ => if c.ctype = 2 && enrols s && !given then askCard k 0x16 5 (slice c.record 8 8) s else s
    | .applying, some _ =>
      if c.ctype = 2 && !given then askCard k 0x16 5 (slice c.record 8 8) s
      else if c.ctype = 10 && !given then
        match c.approvals.findIdx? (fun e => e.2 = h) with
        | some j =>
          let off := 8 + 48 + (leAt c.record 14 2 + 7) / 8 * 8
          if j < c.m then askCard k 0x18 6 (slice c.record (off + 8 * j) 8) s else s
        | none => s
      else s
    | _, _ => s

def feedCards (s : State) : State := feedCard 1 (feedCard 0 s)

-- Effects (Table 17-10).

/-- Install a master key from S: W0 then W1. -/
def installMaster (secret : Bytes) (mkgen : Nat) (s : State) : State :=
  deriveRoots (s.updKs (fun k => { k with
    w0 := BitVec.ofNat 256 (leNat (secret.take 32)), w1 := BitVec.ofNat 256 (leNat (secret.drop 32)), mkgen := mkgen, zeroized := false }))

/-- A slot or principal that a ceremony wrote waits for an image that includes it (R577). Without host buffers the image
cannot be anchored. -/
def awaitImage (s : State) : State :=
  if !imageBuffers s then endCer 10 s
  else (startImage false s).modCer (fun c => { c with state := .applying, imaging := true })

/-- Principal record that follows a slot write record in a body, if any. -/
def bodyPrincipal (rec_ : Bytes) : Option Bytes :=
  let off := 8 + 48 + (leAt rec_ 14 2 + 7) / 8 * 8
  if off < rec_.length then some (slice rec_ off 16) else none

/-- Slot write of a ceremony, and its principal. -/
def cerSlotWrite (rec_ : Bytes) (s : State) : Except Nat State :=
  match applySlotWrite true (SlotWrite.ofBytes (rec_.drop 8)) s with
  | .error r => .error r
  | .ok s =>
    match bodyPrincipal rec_ with
    | some p => applyPrincipal p s
    | none => .ok s

/-- The alarms of a mask that an END_RESPONSE ceremony clears: latched, HELD, at L3 (R495). -/
def maskAlarms (s : State) (mask : Nat) : List Nat :=
  (List.range 37).filter (fun a => bit mask a && (s.alarm a).state = .held && (s.alarm a).raised = 3 && alarmLatched s a)

/-- A re-initialization may succeed (R537). -/
def reinitOk (s : State) : Bool :=
  !s.alarms.any (fun (e : Nat × Alarm) => e.2.state = .active) &&
  s.alarms.all (fun (e : Nat × Alarm) => !(e.2.state = .held && e.2.raised = 4) || e.2.erase = 1) &&
  s.life.fuses.reinit.any (fun t => decide (t < 2))

/-- The next triplet that is not blown gets its three bits. -/
def blowNext : List Nat → List Nat
  | [] => []
  | t :: l => if t < 2 then 3 :: l else t :: blowNext l

/-- Re-initialization: alarms held at L4 are set aside. -/
def reinit (s : State) : State :=
  let before := levelHeld s
  let s : State := { s with
    life := { s.life with fuses := { s.life.fuses with reinit := blowNext s.life.fuses.reinit } } }
  let s : State := { s with
    alarms := s.alarms.map (fun (e : Nat × Alarm) => (e.1,
      if e.2.state = AlarmState.held && e.2.raised = 4 then { e.2 with state := AlarmState.clear, raised := 0, oneShot := false, aside := true }
      else { e.2 with aside := false })) }
  levelFell (Nat.max before 3) (setLife .initial 0 (s.updKs (fun k => { k with zeroized := false })))

/-- Decommissioning (R535): the master key register is erased before the triplet is blown; the roster goes. -/
def decommission (s : State) : State :=
  let s := respondL3 true (eraseMaster s)
  setLife .decommissioned 0 { s with
    life := { s.life with fuses := { s.life.fuses with decommissioned := 3 } }, cards := { s.cards with roster := [], rosterM := 0 } }

/-- XOR of the components, and the key of KEY_COMPONENTS (R579). -/
def componentsKey (s : State) : Except Nat State :=
  let c := s.cards.cer
  let w := SlotWrite.ofBytes (c.record.drop 8)
  let rs := c.given.map (fun e => e.2)
  let len := algBytes w.policy.alg
  let off := 8 + 48 + (leAt c.record 14 2 + 7) / 8 * 8
  let want := beNat (slice c.record (off + 8 * c.m) 3)
  if !rs.all (fun r => leAt r 8 2 = w.policy.alg && leAt r 10 1 = len) then .error 6
  else
    let key := rs.foldl (fun k r => xorBytes k (slice r 16 len)) (zeros len)
    let k := s.slot w.slot
    let kcv := kcvOf w.policy.alg key []
    if want ≠ 0 ∧ want ≠ kcv then .error 6
    else if k.state ≠ .empty then .error 10
    else .ok ((ksChanged (s.setSlot w.slot (newKey k w.policy 4 key [] s))).modCer (fun c => { c with kcv := kcv }))

/-- RESTORE (R581): the committed backup set named, its image under the part's master key. USES resumes as R300 states. -/
def restoreImage (s : State) : Except Nat State :=
  match s.cards.sd.card with
  | none => .error 9
  | some card =>
    match card.sets.find? (fun x => x.committed && x.no = leAt s.cards.cer.record 8 4) with
    | some x =>
      (match x.body with
       | .backup i =>
         if !i.macOk || padTo 8 i.mkid != padTo 8 s.ks.mkid then .error 9
         else
           .ok (logEntry 0x0E00 1 (leBytes 4 x.no ++ leBytes 8 i.gen) (ksChanged (installImage i s)))
       | _ => .error 9)
    | none => .error 9

/-- The effect of a ceremony whose approvals, shares or components are complete (step 5 of Table 17-11). -/
def applyCer (s : State) : State :=
  let c := s.cards.cer
  let slotOf := leBytes 8 (leAt c.record 8 4)
  let slotDone (r : Except Nat State) : State :=
    match r with
    | .ok s => awaitImage s
    | .error e => endCer (if e = 6 && c.ctype = 10 then 6 else 10) s
  match c.ctype with
  | 4 => doneCer (padTo 8 s.ks.mkid) (zeroizeWith 0 s)
  | 5 => if reinitOk s then doneCer [] (reinit s) else endCer (1 + freeNat 10 s) (useFree s)
  | 6 => doneCer [] (decommission s)
  | 7 => doneCer [] (logEntry 0x0700 2 [] { s with life := { s.life with unlocked := true } })
  | 8 => doneCer (slice c.record 8 8) ((maskAlarms s (leAt c.record 8 8)).foldl (fun s a => endAlarm a 2 0xFFFFFFFF s) s)
  | 9 | 11 => slotDone (cerSlotWrite c.record s)
  | 10 => slotDone (componentsKey s)
  | 12 =>
    (match restoreImage s with
     | .error r => endCer r s
     | .ok s => if s.cfg 0x5008 4 = 0 then endCer 10 s else awaitImage s)
  | 13 =>
    let n := leAt c.record 9 1
    let l := (List.range n).map (fun i => (leAt c.record (16 + 52 * i) 4, slice c.record (20 + 52 * i) 48))
    doneCer slotOf { s with cards := { s.cards with rosterM := leAt c.record 8 1, roster := l } }
  | _ => s

/-- Draw a master key and its N shares (R578). -/
def drawShares (s : State) : State :=
  let c := s.cards.cer
  let secret := freeBytes 64 s
  let s := useFree s
  let coeffs := freeBytes (64 * (c.m - 1)) s
  let s := useFree s
  let gen := if c.ctype = 1 then 1 else s.ks.mkgen + 1
  let shares := (List.range c.n).map (fun i => shareRecord (secretId secret) gen c.m c.n (i + 1) (shareBytes secret coeffs c.m (i + 1)))
  s.modCer (fun c => { c with state := .writingCards, secret := secret, shares := shares })

/-- Every share is confirmed: the key is written (R578). -/
def sharesDone (s : State) : State :=
  let c := s.cards.cer
  let s := if enrols s then { s with cards := { s.cards with rosterM := c.m, roster := c.approvals } } else s
  if c.ctype = 1 then doneCer (secretId c.secret) (setLife .operational 0 (installMaster c.secret 1 s))
  else
    doneCer (secretId c.secret) (s.updKs (fun k => { k with
      w2 := BitVec.ofNat 256 (leNat (c.secret.take 32)), w3 := BitVec.ofNat 256 (leNat (c.secret.drop 32)), rollover := true }))

/-- MK_COMBINE has its share records: interpolate, compare the identity (R578). -/
def combineDone (s : State) : State :=
  let c := s.cards.cer
  let rs := c.given.map (fun e => e.2)
  let secret := combineShares rs
  let r := rs.headD []
  if secretId secret != r.take 8 then endCer 6 s
  else
    let s := if enrols s then { s with cards := { s.cards with rosterM := leAt r 12 1, roster := c.approvals } } else s
    doneCer (secretId secret) (setLife .operational 0 (installMaster secret (leAt r 8 4) s))

/-- The ceremony goes on after an approval. -/
def advanceCer (s : State) : State :=
  let c := s.cards.cer
  if c.state = .collecting ∧ c.m ≠ 0 ∧ c.m ≤ c.approvals.length then
    match c.ctype with
    | 1 | 3 => feedCards (drawShares s)
    | 2 | 10 => feedCards (s.modCer (fun c => { c with state := .applying }))
    | _ => applyCer (s.modCer (fun c => { c with state := .applying }))
  else feedCards s

-- Opening (R576, R577).

/-- Lifecycle states of a ceremony. -/
def cerLife (ctype : Nat) (l : LifeState) : Bool :=
  match ctype with
  | 1 | 2 => l = .initial
  | 3 | 9 | 10 | 11 => l = .operational
  | 4 => l = .initial || l = .operational || l = .recovery
  | 5 => l = .zeroized
  | 6 => l != .manufacture && l != .decommissioned
  | 7 | 12 => l = .operational || l = .recovery
  | 8 => true
  | _ => l != .manufacture && l != .decommissioned

/-- Ceremonies that need the master key (R576). -/
def cerNeedsKey (ctype : Nat) : Bool := ctype = 3 || (9 ≤ ctype && ctype ≤ 12)

/-- Does the parameter record fit its ceremony (Table 17-10, R287, R433)? -/
def cerRecordOk (ctype : Nat) (s : State) : Bool :=
  let r := s.cards.param
  let m := leAt r 1 1
  let n := leAt r 2 1
  let body := r.drop 8
  let w := SlotWrite.ofBytes body
  let wlen := 48 + (leAt body 6 2 + 7) / 8 * 8
  let empty := s.cards.roster.isEmpty
  let slotFits (wop : Nat) : Bool := w.wop = wop && (match cerSlotWrite r s with | .ok _ => true | .error _ => false) &&
    (body.length = wlen || body.length = wlen + 16)
  8 ≤ r.length && leAt r 0 1 = ctype && leAt r 3 5 = 0 && (!empty || ctype = 1 || ctype = 2) &&
  (match ctype with
   | 1 => body.isEmpty && (!empty || (2 ≤ m && m ≤ 8 && m ≤ n && n ≤ 16))
   | 2 => body.length = 8
   | 3 => body = padTo 8 s.ks.mkid
   | 8 => body.length = 8
   | 9 => slotFits 1
   | 11 => slotFits 3
   | 10 =>
     body.length = wlen + 8 * s.cards.rosterM + 3 && isSym w.policy.alg && w.rsv = 0 && decide (w.slot < 2 ^ 21) &&
     (policyReason w.policy (s.slot w.slot).tenant).isNone && (s.slot w.slot).state = .empty
   | 12 => body.length = 4
   | 13 =>
     2 ≤ leAt body 0 1 && leAt body 0 1 ≤ 8 && leAt body 0 1 ≤ leAt body 1 1 && leAt body 1 1 ≤ 16 && allZero (slice body 2 6) &&
     body.length = 8 + 52 * leAt body 1 1
   | _ => body.isEmpty)

/-- Open a ceremony: 0x06 for its record, 0x10 for the part's state. -/
def openCer (ctype : Nat) (s : State) : Except Nat State :=
  if ctype = 0 ∨ 13 < ctype then .error 6
  else if cerOpen s ∨ !cerLife ctype s.life.state ∨ (cerNeedsKey ctype ∧ 3 ≤ levelHeld s) ∨
      (ctype = 8 ∧ (maskAlarms s (2 ^ 37 - 1)).isEmpty) then .error 0x10
  else if !cerRecordOk ctype s then .error 6
  else
    let num := s.cards.cnum + 1
    let cd := digest 2 (serialBytes s ++ leBytes 8 num ++ s.cards.param) 0
    let empty := s.cards.roster.isEmpty
    let m := if empty then (if ctype = 1 then leAt s.cards.param 1 1 else 0) else s.cards.rosterM
    let n := if empty then leAt s.cards.param 2 1 else s.cards.roster.length
    let c : Ceremony := { state := .collecting, ctype := ctype, cnum := num, cd := cd, record := s.cards.param, start := s.time, m := m, n := n }
    let s := (cerClear { s with cards := { s.cards with cnum := num } }).modCer (fun _ => c)
    .ok (feedCards (logEntry 0x0D00 1 (leBytes 8 num ++ leBytes 1 ctype ++ cd.take 15) s))

-- Cards.

/-- A card is inserted and answers to reset within what the slots support, or not (R571). -/
def execOfficerCardInsert (k : Nat) (atr : Bytes) (t1 classA ok : Bool) (s : State) : Res :=
  .next (
    if 2 ≤ k || (officerSlot s k).state != .empty then s
    else
      let o : OfficerSlot := { state := .activating, atr := atr.take 33, t1 := t1, classA := classA }
      if ok then emit (.officer k [0x00, 0xA4, 0x04, 0x00, 0x05, 0xF0, 0x41, 0x58, 0x4F, 0x43])
          (setOfficer k { o with step := 1 } s)
      else refuseCard k (setOfficer k o s))

/-- A card is withdrawn (R572): in use by a ceremony, it ends the ceremony (R580). -/
def execOfficerCardRemove (k : Nat) (s : State) : Res :=
  .next (
    if 2 ≤ k then s
    else
      let inUse := cerOpen s && (officerSlot s k).state = .inCeremony && (officerSlot s k).step != 0
      let s := setOfficer k {} s
      if inUse then endCer 4 s else s)

/-- A card that has failed its part of a share or component exchange. -/
def authAnswer (k : Nat) (data : Bytes) (s : State) : State :=
  let o := officerSlot s k
  let ce := data.take 97
  let nc := slice data 97 32
  let good := data.length = 225 && pkVerify 2 2 false o.pub (digest 2 (o.sent ++ ce ++ nc) 0) [] (slice data 129 96)
  let h := officerHash o
  let c := s.cards.cer
  let known := (cerOfficers s).any (fun e => e.2 = h)
  let room := c.ctype = 2 || decide (c.approvals.length < c.n)
  if !good || !(known || (enrols s && room)) then refuseCard k s
  else
    let keys := hkdf (pkAgree 4 o.eph ce) (slice o.sent 97 32 ++ nc) (ascii "AX9640 officer") 72
    let s := setOfficer k { o with step := 0, authed := true, keys := keys, eph := [], txN := 0, rxN := 0 } s
    let s := logEntry 0x0C00 1 (leBytes 8 c.cnum ++ leBytes 4 o.officer ++ leBytes 1 k) s
    let s := if c.approvals.any (fun e => e.2 = h) then s
      else s.modCer (fun c => { c with approvals := c.approvals ++ [(o.officer, h)] })
    advanceCer s

/-- A sealed record read from a card, of `len` bytes. -/
def readSealed (k len : Nat) (data : Bytes) (go : Bytes → State → State) (s : State) : State :=
  let (b, o) := officerUnseal (officerSlot s k) data
  let s := setOfficer k { o with step := 0 } s
  match b with
  | some b => if b.length = len then go b s else refuseCard k s
  | none => refuseCard k s

/-- The record that an officer's card gives joins those read. -/
def giveRecord (k : Nat) (b : Bytes) (s : State) : State :=
  match officerPos s (officerSlot s k) with
  | some i => s.modCer (fun c => { c with given := c.given ++ [(i, b)] })
  | none => s

/-- A share record for MK_COMBINE: of the MKID named, with an index not yet read. -/
def shareIn (k : Nat) (b : Bytes) (s : State) : State :=
  let c := s.cards.cer
  let first := (c.given.head?).map (fun e => e.2)
  if b.take 8 != slice c.record 8 8 || c.given.any (fun e => leAt e.2 14 1 = leAt b 14 1) ||
      (match first with | some f => f.take 14 != b.take 14 | none => false) then endCer 6 s
  else
    let s := giveRecord k b s
    if leAt b 12 1 ≤ s.cards.cer.given.length then combineDone s else feedCards s

/-- An officer card answers (R573): the command awaited, its data and status word. -/
def execCardResponse (k : Nat) (data : Bytes) (sw : Nat) (s : State) : Res :=
  .next (
    let o := officerSlot s k
    if 2 ≤ k || o.step = 0 then s
    else if sw != 0x9000 then
      (if o.step = 4 then endCer 8 (bump 0x9072 3 0 (modOfficer k (fun o => { o with step := 0 }) s)) else refuseCard k s)
    else
      match o.step with
      | 1 => askCard k 0x10 2 [] s
      | 2 =>
        if data.length != 101 then refuseCard k s
        else feedCard k (setOfficer k { o with state := .ready, step := 0, officer := leAt data 0 4, pub := data.drop 4 } s)
      | 3 => if cerOpen s then authAnswer k data s else setOfficer k { o with step := 0, state := .ready } s
      | 4 =>
        let (b, o') := officerUnseal o data
        let s := setOfficer k { o' with step := 0, share := [] } s
        if b = some ((digest 2 o.share 0).take 16) then
          let s := s.modCer (fun c => { c with confirmed := c.confirmed ++ [(o.officer, officerHash o)] })
          if s.cards.cer.n ≤ s.cards.cer.confirmed.length then sharesDone s else feedCards s
        else endCer 8 (bump 0x9072 3 0 s)
      | 5 => readSealed k 96 data (shareIn k) s
      | _ => readSealed k 80 data (fun b s =>
          let s := giveRecord k b s
          if s.cards.cer.m ≤ s.cards.cer.given.length then applyCer s else feedCards s) s)

/-- A card does not answer within its waiting time (R571): the exchange fails and is counted. -/
def execWaitingTimeExpiry (k : Nat) (s : State) : Res :=
  .next (
    let o := officerSlot s k
    if 2 ≤ k || o.step = 0 then s
    else if o.step = 4 then endCer 8 (bump 0x9072 3 0 (modOfficer k (fun o => { o with step := 0, state := .refused }) s))
    else refuseCard k s)

def execCeremonyTimeout (s : State) : Res :=
  .next (if cerOpen s && decide (s.cards.cer.start + s.cfg 0x8110 6 * 1000000000 ≤ s.time) then endCer 2 s else s)

/-- A ceremony that waited for an image has it, or has not (R577, R581). -/
def cerAnchored (ok : Bool) (s : State) : State :=
  let c := s.cards.cer
  if !c.imaging || !cerOpen s then s
  else if !ok then endCer 10 s
  else
    let s := doneCer (leBytes 8 (leAt c.record 8 4)) s
    if c.ctype = 12 then endRecovery s else s

/-- IMAGE_COMPLETE (R297, R298): the image in progress ends, and what waited for it goes on. -/
def execImageComplete (ok : Bool) (s : State) : Res :=
  .next (
    match s.ks.image with
    | none => s
    | some j =>
      let s := endImage ok s
      let good := ok && imageBuffers s
      commitImage (if j.forCommit then commitAnchored good s else cerAnchored good s))

end Sys2Proof.Machine
end

