-- ==== Sys2Proof/Machine/MgmtOps.lean ====
section
/-! DEFINITION. Management operations (13, R424 to R446): who may read and write what, READ, DESCRIBE, NEXT, staging
of writes, and the operations of a transaction. -/

namespace Sys2Proof.Machine

-- Roles (Table 13-9).

def within (i lo hi : Nat) : Bool := lo ≤ i && i ≤ hi

/-- The tenants that a TENANT_ADMIN session speaks for: its own, on a mailbox within its function's range (R433). -/
def adminOf (s : State) (m : Nat) (k : MgSess) (t : Nat) : Bool :=
  t = k.tenant && (!within m 8 15 || (s.cfg (0x1030 + (m - 8)) 1 ≤ t && t ≤ s.cfg (0x1030 + (m - 8)) 2))

/-- Entries of another tenant that a selector shows to a TENANT_ADMIN (R433). -/
def selectedOwn (s : State) (m : Nat) (k : MgSess) (index sub : Nat) : Bool :=
  match odKey index sub with
  | 0x401003 => queueValid (s.queue (selValue k 0x4010 2)) && adminOf s m k (s.queue (selValue k 0x4010 2)).tenant
  | 0x403003 => adminOf s m k (selValue k 0x4030 2)
  | 0x500603 =>
    let x := s.slot (selValue k 0x5006 2)
    x.state != .unassigned && adminOf s m k x.tenant
  | _ => if index = 0x9050 || (index = 0x9052 && sub != 1) then adminOf s m k (selValue k 0x9052 1) else true

/-- Entries a role may read, for one access right that allows reads. -/
def roleReads (role index sub : Nat) : Bool :=
  match role with
  | 1 | 2 => true
  | 0 => (within index 0x1000 0x10FF && index != 0x1040) || within index 0x2000 0x21FF || within index 0x9000 0x90FF
  | _ =>
    (within index 0x1000 0x10FF && index != 0x1040) || within index 0x9000 0x90FF ||
    [0x401002, 0x401003, 0x403002, 0x403003, 0x500602, 0x500603].contains (odKey index sub)

def mayRead (s : State) (m : Nat) (k : MgSess) (index sub : Nat) : Bool :=
  roleReads k.role index sub && (k.role != 3 || selectedOwn s m k index sub)

/-- The entry that a selector selects. -/
def selected (index sub : Nat) : Nat :=
  match odKey index sub with
  | 0x200001 => 0x200002 | 0x212101 => 0x212201 | 0x401002 => 0x401003 | 0x403002 => 0x403003 | 0x500602 => 0x500603
  | 0x710101 => 0x710102 | 0x711101 => 0x711102 | 0x800005 => 0x800006 | 0x900401 => 0x900402 | 0x905201 => 0x905202
  | _ => 0x901003

/-- Ceremony entries, open to OBSERVER, OPERATOR and TENANT_ADMIN alike (R577). -/
def isCeremonyEntry (index : Nat) : Bool := index = 0x8110 || index = 0x8111

/-- Entries a role may write. -/
def roleWrites (role index sub : Nat) : Bool :=
  if isSelector index sub then roleReads role (selected index sub / 256) (selected index sub % 256)
  else
    match role with
    | 1 => true
    | 2 => [0x711201, 0x711401, 0x711402].contains (odKey index sub)
    | 3 => [0x401001, 0x500601].contains (odKey index sub) || (isCeremonyEntry index && sub != 6)
    | _ => isCeremonyEntry index && sub != 6

/-- Does a TENANT_ADMIN have authority over what the records of a write name (R433)? -/
def recordsOwn (s : State) (m : Nat) (k : MgSess) (index : Nat) (b : Bytes) : Bool :=
  if index = 0x4010 then
    (records 24 b.length b).all (fun x =>
      let r := QueueRecord.ofBytes x
      (!bit r.qctl 7 || adminOf s m k r.tenant) && r.count ≤ 2 ^ 20 &&
      r.queues.all (fun q => queueValid (s.queue q) && adminOf s m k (s.queue q).tenant))
  else if index = 0x5006 then
    (slotRecords b.length b).all (fun w =>
      let own (i : Nat) : Bool := (s.slot i).state != .unassigned && adminOf s m k (s.slot i).tenant
      own w.slot && (w.wop != 2 || own w.aux) && !(w.wop != 5 && hasCeremony w.policy.usage))
  else true

-- Replies made of items (Table 13-5).

/-- Value bytes of an item, zero-padded to a multiple of 8. -/
def itemPad (b : Bytes) : Bytes := b ++ zeros ((8 - b.length % 8) % 8)

/-- An item of a reply. -/
def itemOut (it : MgItem) (ires total : Nat) (value : Bytes) : Bytes :=
  leBytes 2 it.index ++ leBytes 1 it.sub ++ leBytes 1 it.typ ++ leBytes 2 value.length ++ leBytes 1 ires ++ [0] ++
  leBytes 4 it.off ++ leBytes 4 total ++ itemPad value

/-- Is a request's item count within Table 13-6? -/
def itemCountOk (items : List MgItem) : Bool := 1 ≤ items.length && items.length ≤ 64

-- READ (R427, R429).

/-- The value staged in the session's transaction for an entry, when MFLAGS asks for staged values. -/
def stagedValue (k : MgSess) (flags index sub : Nat) : Option Bytes :=
  if !bit flags 0 then none
  else
    match k.txn with
    | none => none
    | some t =>
      let l := (t.staged.filter (fun x => x.index = index && x.sub = sub)).map (fun x => x.data)
      if l.isEmpty then none else if isAppend index sub then some l.flatten else l.getLast?

/-- Why an item of a READ fails, if it does: 0x01, 0x02, 0x03, 0x04, 0x07 in this order (DESIGN CHOICE, log 41). -/
def readFails (s : State) (m : Nat) (k : MgSess) (it : MgItem) : Option Nat :=
  match odFind it.index it.sub with
  | none => some 2
  | some e =>
    let octet := e.typ = .octets || e.typ = .str
    if !octet && it.off != 0 then some 1
    else if it.typ != e.typ.code || (match e.typ.width with | some w => it.len != w | none => false) then some 3
    else if e.access = .wo then some 4
    else if !mayRead s m k it.index it.sub then some 7
    else none

/-- Bytes that a READ of an entry shows, with what the read itself does: a checkpoint's statement is signed and marked
read (R512), a health record is marked read (R587), a free value is used up. A statement that cannot be given has a
result of its own. -/
def readBytes (s : State) (k : MgSess) (e : OdEntry) (flags index sub : Nat) : Except Nat (Bytes × State) :=
  match stagedValue k flags index sub with
  | some b => .ok (b, s)
  | none =>
    if index = 0x7111 && sub = 2 then checkpointRead (selValue k 0x7111 1) s
    else
      let b := (odVal s k e index sub).bytes e
      if index = 0x9004 && sub = 2 then
        .ok (b, { s with health := { s.health with ring := match s.health.ring[selValue k 0x9004 1]? with
          | some r => setAt s.health.ring (selValue k 0x9004 1) { r with read := true }
          | none => s.health.ring } })
      else if 0x3000 ≤ index && index < 0x3900 && index % 256 = 0x10 && sub = 4 then .ok (b, useFree s)
      else .ok (b, s)

/-- One item of a READ. -/
def readItem (m : Nat) (flags : Nat) (it : MgItem) (s : State) : Bytes × Nat × State :=
  match s.mgSess m, odFind it.index it.sub with
  | some k, some e =>
    (match readFails s m k it with
     | some r => (itemOut it r 0 [], r, s)
     | none =>
       match readBytes s k e flags it.index it.sub with
       | .error r => (itemOut it r 0 [], r, s)
       | .ok (b, s) =>
         let octet := e.typ = .octets || e.typ = .str
         let v := if octet then (b.drop it.off).take it.len else b
         (itemOut it 0 b.length v, 0, s))
  | _, _ => (itemOut it 2 0 [], 2, s)

/-- Items in order; the index of the first failing one. -/
def readItems (m flags : Nat) : Nat → List MgItem → State → Bytes × Option Nat × State
  | _, [], s => ([], none, s)
  | i, it :: t, s =>
    let (b, r, s) := readItem m flags it s
    let (bs, f, s) := readItems m flags (i + 1) t s
    (b ++ bs, if r = 0 then f else some i, s)

-- The frame of every operation: one request in flight, a supervisor that runs (R434, Table 13-7).

/-- A request of a session reaches its operation, unless one is in flight or the supervisor restarts. -/
def mgRequest (m mop : Nat) (go : MgSess → State → State) (s : State) : State :=
  match s.mgSess m with
  | none => s
  | some k =>
    if k.handshake then s
    else if k.inFlight then bump 0x9067 4 0 s
    else
      let k := { k with lastRx := s.time, txn := k.txn }
      let s := s.setMg m k
      if s.supRestarting then mgDone m mop 0x0F 0 [] s else go k s

def execRead (m flags : Nat) (items : List MgItem) (s : State) : Res :=
  .next (mgRequest m 1 (fun _ s =>
    if !itemCountOk items || 2 ≤ flags then mgDone m 1 1 0 [] s
    else
      let (b, f, s) := readItems m flags 0 items s
      mgReply m 1 0 items.length (f.getD 0xFFFF) 0 b s) s)

-- DESCRIBE and NEXT (R430, Table 13-6).

/-- Apply scope of an entry (Table 13-3). -/
def scopeOf (index sub : Nat) : Nat :=
  if isLink index then 3 else if odKey index sub = 0x600001 || odKey index sub = 0x412002 then 2
  else if index = 0x4124 || index = 0x4125 then 1 else 0

/-- ROLES of a description: bits 3:0 read, bits 7:4 write. -/
def rolesOf (e : OdEntry) (index sub : Nat) : Nat :=
  let rd := e.access != .wo
  let wr := e.access = .rw || e.access = .wo || e.access = .rwt
  (List.range 4).foldl (fun v r =>
    v + b2n (rd && roleReads r index sub) * 2 ^ r + b2n (wr && roleWrites r index sub) * 2 ^ (4 + r)) 0

def describeBytes (e : OdEntry) (index sub : Nat) : Bytes := describe e index sub (rolesOf e index sub) (scopeOf index sub)

/-- One item of a DESCRIBE. -/
def describeItem (it : MgItem) : Bytes × Nat :=
  match odFind it.index it.sub with
  | none => (itemOut it 2 0 [], 2)
  | some e => (itemOut it 0 0 (describeBytes e it.index it.sub), 0)

def execDescribe (m : Nat) (items : List MgItem) (s : State) : Res :=
  .next (mgRequest m 3 (fun _ s =>
    if !itemCountOk items then mgDone m 3 1 0 [] s
    else
      let rs := items.map describeItem
      let f := rs.findIdx? (fun r => r.2 != 0)
      mgReply m 3 0 items.length (f.getD 0xFFFF) 0 (rs.map (fun r => r.1)).flatten s) s)

/-- The next entry, in index and subindex order, that the session's role may read. -/
def nextKey? (role key : Nat) : Option Nat :=
  odKeys.foldl (fun b k =>
    let ok := decide (key < k) && roleReads role (k / 256) (k % 256) &&
      (match odFind (k / 256) (k % 256) with | some e => e.access != .wo | none => false)
    if !ok then b else match b with | none => some k | some c => some (Nat.min c k)) none

def execNext (m : Nat) (items : List MgItem) (s : State) : Res :=
  .next (mgRequest m 4 (fun k s =>
    match items with
    | [it] =>
      (match nextKey? k.role (odKey it.index it.sub) with
       | none => mgDone m 4 2 0 [] s
       | some x =>
         match odFind (x / 256) (x % 256) with
         | none => mgDone m 4 2 0 [] s
         | some e =>
           let d := describeBytes e (x / 256) (x % 256)
           mgReply m 4 0 1 0xFFFF 0 (itemOut { index := x / 256, sub := x % 256, typ := e.typ.code } 0 0 d) s)
    | _ => mgDone m 4 1 0 [] s) s)

-- Staging (R439, R440).

def stagedBytesOf (t : Txn) : Nat := (t.staged.map (fun x => x.data.length)).sum

/-- Entries that other transactions have locked: the holder's session, or 0xFF for a domain transaction. -/
def lockHolder (s : State) (m : Nat) (index sub : Nat) : Option Nat :=
  if isAppend index sub then none
  else
    match s.mgmt.sess.find? (fun e => e.1 != m && (match e.2.txn with
        | some t => t.staged.any (fun x => x.index = index && x.sub = sub)
        | none => false)) with
    | some e => some e.1
    | none =>
      let mine (x : DomainTxn) : Bool := x.sess = some m && (match s.mgSess m with
        | some k => (k.txn.map (fun t => t.id)) = some x.txn
        | none => false)
      if s.mgmt.domain.any (fun e => !mine e.2 && (e.2.staged ++ e.2.own).any (fun x => x.index = index && x.sub = sub)) then some 0xFF
      else none

/-- Images that become whole with a segment, after what is staged already. -/
def wholeImages : Nat → Bytes → List Envelope × Bytes
  | 0, b => ([], b)
  | n + 1, b =>
    match takeImage b with
    | none => ([], b)
    | some (e, rest) => let (l, r) := wholeImages n rest; (e :: l, r)

/-- Checks that need a whole object: model images (R151), key blocks of IMPORT (R287). -/
def objectOk (s : State) (t : Txn) (index sub : Nat) (b : Bytes) : Bool :=
  match odKey index sub with
  | 0x412401 =>
    let before := (segments index sub t.staged).flatten
    let left := (wholeImages (before.length + 1) before).2
    (wholeImages (left.length + b.length + 1) (left ++ b)).1.all (fun e => (modelImage s e).isSome)
  | 0x500601 => (slotRecords b.length b).all (fun w =>
      w.wop != 2 || (s.slot w.aux).state != .active || (kbUnwrap (s.slot w.aux).material w.data).isSome)
  | _ => true

/-- Stage a write of an RWT entry: IRES and the holder of a lock, and the state. -/
def stageWrite (m : Nat) (t : Txn) (index sub : Nat) (b : Bytes) (s : State) : Nat × Nat × State :=
  match lockHolder s m index sub with
  | some h => (8, h, bump 0x1102 4 0 s)
  | none =>
    let kept := if isAppend index sub then t.staged else t.staged.filter (fun x => !(x.index = index && x.sub = sub))
    let t' : Txn := { t with staged := kept ++ [{ index := index, sub := sub, data := b }] }
    let others : Nat := ((s.mgmt.sess.filter (fun e => e.1 != m)).map (fun e => match e.2.txn with | some x => stagedBytesOf x | none => 0)).sum
    if 512 < t'.staged.length ∨ 2097152 < stagedBytesOf t' ∨ 8388608 < others + stagedBytesOf t' then (0x0B, 0, s)
    else if !objectOk s t index sub b then (0x0C, 0, s)
    else (0, 0, s.modMg m (fun k => { k with txn := some t' }))

-- Transactions.

/-- End a transaction without effect: its locks go with it. -/
def rollback (m : Nat) (s : State) : State := s.modMg m (fun k => { k with txn := none })

/-- Is the session's transaction open for another operation? -/
def txnOpen (k : MgSess) : Option Txn := k.txn.filter (fun t => t.state = .opened)

def execBegin (m : Nat) (s : State) : Res :=
  .next (mgRequest m 0x10 (fun k s =>
    if k.txn.isSome then mgDone m 0x10 9 0 [] s
    else
      let id := s.mgmt.nextTxn
      let s := s.modMgmt (fun g => { g with nextTxn := g.nextTxn + 1 })
      mgDone m 0x10 0 id [] (s.modMg m (fun k => { k with txn := some { id := id, openedAt := s.time } }))) s)

/-- May a commit be made: operational, or a LOST configuration to be replaced (R444, R447), and not at L4? -/
def commitAllowed (s : State) : Bool :=
  levelHeld s != 4 && (s.life.state = .operational || (s.life.state = .recovery && s.mgmt.lost = 2))

def execCommit (m : Nat) (s : State) : Res :=
  .next (mgRequest m 0x11 (fun k s =>
    match txnOpen k with
    | none => mgDone m 0x11 0x0A 0 [] s
    | some t =>
      if !commitAllowed s then mgDone m 0x11 0x10 t.id (commitReply 0 0 none) s
      else
        let bad := t.staged.find? (fun x => !roleWrites k.role x.index x.sub || (k.role = 3 && !recordsOwn s m k x.index x.data))
        match bad with
        | some x =>
          mgDone m 0x11 0x0C t.id (commitReply 0 0 (some { index := x.index, sub := x.sub, reason := 7 })) (bump 0x1102 2 0 s)
        | none =>
          let s := s.setMg m { k with inFlight := true, txn := some { t with state := .committing } }
          nextCommits (s.modMgmt (fun g => { g with commits := g.commits ++ [m] }))) s)

def execRollback (m : Nat) (s : State) : Res :=
  .next (mgRequest m 0x12 (fun k s =>
    match txnOpen k with
    | none => mgDone m 0x12 0x0A 0 [] s
    | some t => mgDone m 0x12 0 t.id [] (rollback m s)) s)

def TxnState.code : TxnState → Nat
  | .none => 0 | .opened => 1 | .committing => 2 | .domainPending => 3

/-- The 16 bytes of TXN_STATUS. The request itself restarts the inactivity time. -/
def txnStatus (s : State) (t : Option Txn) : Bytes :=
  match t with
  | none => zeros 16
  | some t =>
    leBytes 1 t.state.code ++ leBytes 2 t.staged.length ++ leBytes 4 (stagedBytesOf t) ++ leBytes 4 (s.cfg 0x1100 1) ++ zeros 5

def execTxnStatus (m : Nat) (s : State) : Res :=
  .next (mgRequest m 0x13 (fun k s =>
    mgDone m 0x13 0 ((k.txn.map (fun t => t.id)).getD 0) (txnStatus s k.txn) s) s)

def execPoll (m : Nat) (s : State) : Res :=
  .next (mgRequest m 0x20 (fun k s =>
    let b := (k.notices.map (fun x => leBytes 2 x.1 ++ zeros 6 ++ leBytes 8 x.2)).flatten
    mgReply m 0x20 0 k.notices.length 0xFFFF 0 b (s.modMg m (fun k => { k with notices := [] }))) s)

/-- An open transaction expires: roll-back, count, notice (R441). -/
def expireTxn (m : Nat) (t : Txn) (s : State) : State :=
  noticeTo m 1 t.id (bump 0x1102 3 0 (rollback m s))

def execTxnInactivityExpiry (m : Nat) (s : State) : Res :=
  .next (match s.mgSess m with
    | some k => (match txnOpen k with
      | some t => if k.lastRx + s.cfg 0x1100 1 * 1000000 ≤ s.time then expireTxn m t s else s
      | none => s)
    | none => s)

def execTxnLifetimeExpiry (m : Nat) (s : State) : Res :=
  .next (match s.mgSess m with
    | some k => (match txnOpen k with
      | some t => if t.openedAt + s.cfg 0x1100 2 * 1000000000 ≤ s.time then expireTxn m t s else s
      | none => s)
    | none => s)

end Sys2Proof.Machine
end

