-- ==== Sys2Proof/Machine/OdWrite.lean ====
section
/-! DEFINITION. The WRITE operation (13, R427), what a write does to each RW and WO entry of the dictionary, and the
commands that are a write, or a read, of one entry. -/

namespace Sys2Proof.Machine

/-- Transport of a session in an ACK entry (Table 15-9): 0 CAN, 1 mailbox, 2 Frieze. -/
def transportOf (m : Nat) : Nat := if m < 8 then 0 else if m < 16 then 1 else 2

/-- A command entry of type BOOL: 1 gives the command, 0 does nothing. -/
def onOne (b : Bytes) (r : Except Nat State) (s : State) : Except Nat State := if leNat b = 0 then .ok s else r

/-- A write of a ceremony's parameter record (R577). -/
def paramWrite (b : Bytes) (s : State) : Except Nat State :=
  if cerOpen s then .error 0x10 else .ok { s with cards := { s.cards with param := b } }

/-- Abandon an in-doubt domain transaction (R479). -/
def abandonWrite (d : Nat) (s : State) : Except Nat State :=
  match tfind s.mgmt.domain d with
  | some x => if x.state = 1 then .ok (nextCommits (abandonDtxn d s)) else .error 0x10
  | none => .error 6

/-- What a write does to an RW or WO entry, for session `m`. -/
def entryWrite (m : Nat) (k : MgSess) (index sub : Nat) (b : Bytes) (s : State) : Except Nat State :=
  let v := leNat b
  if isSelector index sub then
    .ok (s.modMg m (fun k => { k with sel := tset (odDefault (odKey index sub)).toNat k.sel (odKey index sub) v }))
  else
    match odKey index sub with
    | 0x201008 => onOne b (.ok (newCellWrite s)) s
    | 0x500803 => onOne b (.ok (startImage false s)) s
    | 0x600503 => abandonWrite v s
    | 0x700201 => endResponseWrite v k.slot s
    | 0x711003 => onOne b (.ok (checkpoint s)) s
    | 0x711201 => if b.length = 24 then checkpointAck (leAt b 0 8) (slice b 8 16) k.slot k.role (transportOf m) s else .error 1
    | 0x711401 => exportSet v s
    | 0x711402 => onOne b (applyAcks s) s
    | 0x802006 => onOne b (revertWrite s) s
    | 0x810201 => onOne b (formatCard s) s
    | 0x810202 => onOne b (backupSet s) s
    | 0x810203 => onOne b (clearTmp s) s
    | 0x810204 => onOne b (recoverySet s) s
    | 0x811001 => openCer v s
    | 0x811005 => onOne b (if cerOpen s then .ok (endCer 3 s) else .error 0x10) s
    | 0x811101 => paramWrite b s
    | 0x900101 => counterClear m b s
    | 0x900202 => selfTestWrite b s
    | 0x900206 => quarantineRelease v s
    | 0x906604 => onOne b (.ok (aclPopViolation s)) s
    | _ => .error 4

/-- Why an item of a WRITE fails before its effect, if it does: 0x01, 0x02, 0x03, 0x04, 0x07, 0x06 in this order
(DESIGN CHOICE, log 41). -/
def writeFails (s : State) (m : Nat) (k : MgSess) (it : MgItem) : Option Nat :=
  match odFind it.index it.sub with
  | none => some 2
  | some e =>
    let octet := e.typ = .octets || e.typ = .str
    if it.off ≠ 0 ∨ it.value.length ≠ it.len ∨ (octet ∧ 4096 < it.len) then some 1
    else if it.typ != e.typ.code || e.typ.width.any (fun w => it.len != w) then some 3
    else if e.access = .ro ∨ e.access = .const ∨ (e.access = .rwt ∧ (txnOpen k).isNone) then some 4
    else if !roleWrites k.role it.index it.sub ∨ (k.role = 3 ∧ !recordsOwn s m k it.index it.value) then some 7
    else if !octet ∧ !valueOk e it.index it.sub (intOf e.typ it.value) then some 6
    else none

/-- One item of a WRITE: its IRES, and the state. -/
def writeItem (m : Nat) (it : MgItem) (s : State) : Nat × State :=
  match s.mgSess m with
  | none => (0x0A, s)
  | some k =>
    match writeFails s m k it, odFind it.index it.sub with
    | some r, _ => (r, s)
    | none, none => (2, s)
    | none, some e =>
      if e.access = .rwt then
        match txnOpen k with
        | some t => let (r, _, s) := stageWrite m t it.index it.sub it.value s; (r, s)
        | none => (4, s)
      else
        match entryWrite m k it.index it.sub it.value s with
        | .ok s => (0, s)
        | .error r => (r, s)

/-- Items in order up to the first that fails, whose index is answered (R427). -/
def writeItems (m : Nat) : Nat → List MgItem → State → Bytes × Nat × Option Nat × State
  | i, [], s => ([], i, none, s)
  | i, it :: t, s =>
    let (r, s) := writeItem m it s
    let b := itemOut it r 0 []
    if r ≠ 0 then (b, i + 1, some i, s)
    else
      let (bs, n, f, s) := writeItems m (i + 1) t s
      (b ++ bs, n, f, s)

/-- The reply carries the items processed. -/
def execWrite (m : Nat) (items : List MgItem) (s : State) : Res :=
  .next (mgRequest m 2 (fun _ s =>
    if !itemCountOk items then mgDone m 2 1 0 [] s
    else
      let (b, n, f, s) := writeItems m 0 items s
      mgReply m 2 0 n (f.getD 0xFFFF) 0 b s) s)

/-- A WRITE of one entry. -/
def writeOne (m index sub : Nat) (value : Bytes) (s : State) : Res :=
  execWrite m [{ index := index, sub := sub, typ := (match odFind index sub with | some e => e.typ.code | none => 0),
                 off := 0, len := value.length, value := value }] s

-- Commands that are a write of one entry.

def execAbandonDtxn (m d : Nat) (s : State) : Res := writeOne m 0x6005 3 (leBytes 8 d) s
def execEndResponseWrite (m a : Nat) (s : State) : Res := writeOne m 0x7002 1 (leBytes 1 a) s
def execCheckpointNow (m : Nat) (s : State) : Res := writeOne m 0x7110 3 [1] s
def execCheckpointAck (m : Nat) (data : Bytes) (s : State) : Res := writeOne m 0x7112 1 data s
def execTakeImage (m : Nat) (s : State) : Res := writeOne m 0x5008 3 [1] s
def execRevert (m : Nat) (s : State) : Res := writeOne m 0x8020 6 [1] s
def execFormat (m : Nat) (s : State) : Res := writeOne m 0x8102 1 [1] s
def execKeyStoreBackup (m : Nat) (s : State) : Res := writeOne m 0x8102 2 [1] s
def execClearTmpWriteProtect (m : Nat) (s : State) : Res := writeOne m 0x8102 3 [1] s
def execRecoverySet (m : Nat) (s : State) : Res := writeOne m 0x8102 4 [1] s
def execPatinaExport (m seq : Nat) (s : State) : Res := writeOne m 0x7114 1 (leBytes 8 seq) s
def execApplyAcknowledgements (m : Nat) (s : State) : Res := writeOne m 0x7114 2 [1] s
def execParameterRecordWrite (m : Nat) (record : Bytes) (s : State) : Res := writeOne m 0x8111 1 record s
def execMkGenerate (m : Nat) (s : State) : Res := writeOne m 0x8110 1 [1] s
def execMkCombine (m : Nat) (s : State) : Res := writeOne m 0x8110 1 [2] s
def execMkRollover (m : Nat) (s : State) : Res := writeOne m 0x8110 1 [3] s
def execZeroize (m : Nat) (s : State) : Res := writeOne m 0x8110 1 [4] s
def execReinit (m : Nat) (s : State) : Res := writeOne m 0x8110 1 [5] s
def execDecommission (m : Nat) (s : State) : Res := writeOne m 0x8110 1 [6] s
def execDebugUnlock (m : Nat) (s : State) : Res := writeOne m 0x8110 1 [7] s
def execEndResponse (m : Nat) (s : State) : Res := writeOne m 0x8110 1 [8] s
def execKeyGenerate (m : Nat) (s : State) : Res := writeOne m 0x8110 1 [9] s
def execKeyComponents (m : Nat) (s : State) : Res := writeOne m 0x8110 1 [10] s
def execPublicLoad (m : Nat) (s : State) : Res := writeOne m 0x8110 1 [11] s
def execRestore (m : Nat) (s : State) : Res := writeOne m 0x8110 1 [12] s
def execRosterChange (m : Nat) (s : State) : Res := writeOne m 0x8110 1 [13] s
def execCeremonyCancel (m : Nat) (s : State) : Res := writeOne m 0x8110 5 [1] s
def execCounterClear (m : Nat) (data : Bytes) (s : State) : Res := writeOne m 0x9001 1 data s
def execSelfTestRequest (m n : Nat) (s : State) : Res := writeOne m 0x9002 2 [BitVec.ofNat 8 n, 0] s
def execUrgentSelfTest (m n : Nat) (s : State) : Res := writeOne m 0x9002 2 [BitVec.ofNat 8 n, 1] s
def execReleaseQuarantine (m n : Nat) (s : State) : Res := writeOne m 0x9002 6 (leBytes 1 n) s
def execNewCell (m : Nat) (s : State) : Res := writeOne m 0x2010 8 [1] s

/-- CHECKPOINT_READ: a read of OD 0x7111.02 (R511). -/
def execCheckpointRead (m : Nat) (s : State) : Res :=
  execRead m 0 [{ index := 0x7111, sub := 2, typ := 0xE, off := 0, len := 65535, value := [] }] s

end Sys2Proof.Machine
end

