-- ==== Sys2Proof/Machine/MgmtNet.lean ====
section
/-! DEFINITION. Management frames that the part receives (13, R423 to R438; 14, R463, R480): messages and their items,
handshakes, protected frames, the three transports and the relay of frames for other parts. -/

namespace Sys2Proof.Machine

/-- The state that a meaning answers. -/
def after (r : Res) (s : State) : State :=
  match r with
  | .next s => s
  | _ => s

-- Messages (R424 to R428).

/-- Items of a request: WRITE items carry their value, padded with zeros to a multiple of 8; none where the format or
reserved content is broken. -/
def parseItems (write : Bool) : Nat → Bytes → Option (List MgItem)
  | 0, b => if b.isEmpty then some [] else none
  | n + 1, b =>
    let len := leAt b 4 2
    let held := if write then len + (8 - len % 8) % 8 else 0
    if b.length < 16 + held ∨ leAt b 6 2 ≠ 0 ∨ leAt b 12 4 ≠ 0 ∨ (write ∧ (leAt b 8 4 ≠ 0 ∨ !allZero (slice b (16 + len) (held - len)))) then none
    else
      match parseItems write n (b.drop (16 + held)) with
      | none => none
      | some t =>
        some ({ index := leAt b 0 2, sub := leAt b 2 1, typ := leAt b 3 1, len := len, off := leAt b 8 4,
                value := if write then slice b 16 len else [] } :: t)

/-- One management message of session `m`. -/
def mgMessage (m : Nat) (b : Bytes) (s : State) : State :=
  let mop := leAt b 0 1
  let flags := leAt b 1 1
  let n := leAt b 4 2
  let answer (r : Nat) : State := mgRequest m mop (fun _ s => mgDone m mop r 0 [] s) s
  if 4352 < b.length then answer 0x12
  else if b.length < 16 ∨ leAt b 2 2 ≠ 0 ∨ 64 < n ∨ leAt b 6 2 ≠ 0 ∨ leAt b 8 8 ≠ 0 ∨ (flags ≠ 0 ∧ (mop ≠ 1 ∨ 2 ≤ flags)) then answer 1
  else
    match parseItems (mop = 2) n (b.drop 16) with
    | none => answer 1
    | some items =>
      let bare (r : Res) : State := if items.isEmpty then after r s else answer 1
      match mop with
      | 0x01 => after (execRead m flags items s) s
      | 0x02 => after (execWrite m items s) s
      | 0x03 => after (execDescribe m items s) s
      | 0x04 => after (execNext m items s) s
      | 0x10 => bare (execBegin m s)
      | 0x11 => bare (execCommit m s)
      | 0x12 => bare (execRollback m s)
      | 0x13 => bare (execTxnStatus m s)
      | 0x20 => bare (execPoll m s)
      | _ => answer 1

-- Handshakes (R431).

/-- A HELLO body is well formed: KEX 0x01, or KEX 0x00 with PEER_SLOT, NONCE_P and EPH_P zero; reserved content zero. -/
def mgHelloGood (b : Bytes) : Bool :=
  b.length = 144 && leAt b 1 3 = 0 && allZero (slice b 137 7) &&
  ((leAt b 0 1 = 1 && decide (leAt b 4 4 < 2 ^ 21)) || (leAt b 0 1 = 0 && allZero (b.drop 4)))

/-- Key that signs HELLO_REPLY: the session-signing key while it is usable, else the Patina ECDSA key. -/
def mgSigner (s : State) : Bytes × State :=
  match fetchChecks (s.cfg 0x5005 1) 0 0x40000 (fun a => a = 0x1002) true s with
  | .ok k s => (k.material, s)
  | .fail _ s => (patinaEcdsa s, s)

/-- SESSION_ID that the part assigns: a free value, or the least that no session uses. -/
def mgFreshSid (s : State) : Nat :=
  let c := 1 + freeNat (2 ^ 32 - 1) s
  let used (x : Nat) : Bool := s.mgmt.sess.any (fun e => e.2.sid = x)
  if used c then ((List.range 33).map (fun i => i + 1)).find? (fun x => !used x) |>.getD c else c

/-- Open a session at number `m`: authenticated (in its handshake) for a slot and a role, or observer. -/
def mgOpen (m route peerAddr peerPort : Nat) (body : Bytes) (auth : Bool) (role : Nat) (s : State) : State :=
  let sid := mgFreshSid s
  let s := useFree s
  let rnd := freeBytes 80 s
  let s := useFree s
  let slot := if auth then leAt body 4 4 else 0
  let nonce := rnd.take 32
  let eph := rnd.drop 32
  let pub := if auth then padTo 97 (pkPublic 4 eph) else zeros 97
  let head := body.take 1 ++ zeros 3 ++ leBytes 4 sid ++ nonce ++ pub ++ zeros 7
  let (key, s) := mgSigner s
  let sig := padTo 96 (pkSign 2 2 key (sha384 (body ++ head)) [] (freeBytes 48 s))
  let s := useFree s
  let ks := hkdf (pkAgree 4 eph (slice body 40 97)) (slice body 8 32 ++ nonce) (ascii "AX9640 management" ++ leBytes 4 sid) 72
  let k : MgSess := { handshake := auth, auth := auth, role := role, slot := slot, tenant := if auth then (s.slot slot).tenant else 0,
                      sid := sid, openedAt := s.time, lastRx := s.time, route := route, peerAddr := peerAddr, peerPort := peerPort }
  let k := if auth then
      { k with hello := body, helloReply := head ++ sig, keyIn := slice ks 0 32, keyOut := slice ks 32 32, ivIn := slice ks 64 4,
               ivOut := slice ks 68 4 }
    else k
  mgTransport m route peerAddr peerPort (frameHeader 2 0 sid 0 240 ++ head ++ sig) (s.setMg m k)

/-- A HELLO for session number `m`. A session open there is kept: the transport has no other (log 47). -/
def mgHello (m route peerAddr peerPort : Nat) (body : Bytes) (s : State) : State :=
  let refuse (r : Nat) (s : State) : State := mgReset m route peerAddr peerPort 0 r s
  if !mgHelloGood body ∨ s.supRestarting then s
  else if 32 ≤ m ∨ (s.mgSess m).any (fun k => !k.handshake) then refuse 0x0509 s
  else
    let s := dropSessions (fun x _ => x = m) s
    if leAt body 0 1 = 0 then
      (if s.cfgB 0x1041 1 then mgOpen m route peerAddr peerPort body false 0 s else refuse (freeNat 65536 s) (useFree s))
    else
      match peerKey (leAt body 4 4) s with
      | (.error st, s) => refuse st s
      | (.ok _, s) =>
        match tfind s.mgmt.principals (leAt body 4 4) with
        | some role => mgOpen m route peerAddr peerPort body true role s
        | none => refuse (freeNat 65536 s) (useFree s)

/-- The lowest Frieze session number that is free, 32 when none is. -/
def mgFreeFrieze (s : State) : Nat :=
  (((List.range 16).map (fun i => 16 + i)).find? (fun m => (s.mgSess m).isNone)).getD 32

/-- SIG_P of a CONFIRM. -/
def mgConfirmGood (k : MgSess) (body : Bytes) (s : State) : Bool :=
  body.length = 96 && pkVerify 2 2 false (s.slot k.slot).pub (sha384 (k.hello ++ k.helloReply)) [] body

-- Frames (R423).

/-- Session that a SESSION_ID names on a transport: that of the channel number or mailbox, or one of the Frieze. -/
def mgLocate (m0 sid : Nat) (s : State) : Option Nat :=
  match s.mgmt.sess.find? (fun e => e.2.sid = sid && (e.1 = m0 || (16 ≤ m0 && 16 ≤ e.1))) with
  | some e => some e.1
  | none => none

/-- The effect of an accepted frame. -/
def mgAccepted (m m0 route peerAddr peerPort typ seq : Nat) (body : Bytes) (s : State) : State :=
  match s.mgSess m with
  | none => s
  | some k =>
    match typ with
    | 3 =>
      if mgConfirmGood k body s then
        mgSend m 4 [] (s.setMg m { k with handshake := false, openedAt := s.time, hello := [], helloReply := [] })
      else mgReset m0 route peerAddr peerPort k.sid 0x0111 (dropSessions (fun x _ => x = m) s)
    | 0x10 => mgMessage m body (s.setMg m { k with lastSeq := seq, cached := [] })
    | 0x20 => dropSessions (fun x _ => x = m) s
    | _ => s

/-- A frame for this part by the transport of session number `m0`: HELLO, or a frame of a session. A request that
repeats the last SEQ gets the cached reply again. -/
def mgFrameIn (m0 route peerAddr peerPort : Nat) (b : Bytes) (s : State) : State :=
  let typ := leAt b 1 1
  let tfl := leAt b 2 1
  let sid := leAt b 4 4
  let seq := leAt b 8 8
  let len := leAt b 16 4
  if b.length < 24 + len ∨ leAt b 0 1 ≠ 1 ∨ leAt b 3 1 ≠ 0 ∨ leAt b 20 4 ≠ 0 ∨ 2 ≤ tfl ∨ len % 8 ≠ 0 then s
  else if typ = 1 then (if b.length = 24 + len ∧ sid = 0 ∧ seq = 0 then mgHello (if m0 < 16 then m0 else mgFreeFrieze s) route peerAddr peerPort (b.drop 24) s else s)
  else if typ ≠ 3 ∧ typ ≠ 0x10 ∧ typ ≠ 0x20 ∧ typ ≠ 0x21 then s
  else
    match mgLocate m0 sid s with
    | none => mgReset m0 route peerAddr peerPort sid 0x0110 s
    | some m =>
      match s.mgSess m with
      | none => s
      | some k =>
        let ct := slice b 24 len
        let iv := k.ivIn ++ leBytes 8 seq
        let tagGood := !k.auth || gcmTag k.keyIn iv (routeBytes route ++ b.take 24) ct = b.drop (24 + len)
        let body := if k.auth then gcmCrypt k.keyIn iv ct else ct
        if b.length ≠ 24 + len + (if k.auth then 16 else 0) ∨ k.handshake ≠ (typ = 3 : Bool) ∨ !tagGood then s
        else if typ = 0x10 ∧ seq = k.lastSeq ∧ seq ≠ 0 then
          (if k.inFlight then bump 0x9067 4 0 s else if k.cached.isEmpty then s else mgSend m 0x10 k.cached s)
        else if !seqOk k.rxHigh k.rxSeen seq then s
        else if typ = 0x10 ∧ k.inFlight then bump 0x9067 4 0 s
        else
          let (h, l) := seqNote k.rxHigh k.rxSeen seq
          mgAccepted m m0 route peerAddr peerPort typ seq body
            (s.setMg m { k with rxHigh := h, rxSeen := l, lastRx := s.time, route := route, peerAddr := peerAddr, peerPort := peerPort })

-- Frames for other parts (R438, R463, R480).

/-- Send a frame that has come back on its way: to a local transport, or by a port. -/
def deliverBack (way src dst ttl : Nat) (data : Bytes) (s : State) : State :=
  if 24 ≤ way then mailboxSend (way - 24) data s
  else if 16 ≤ way then canSend (way - 16) data s
  else if ttl = 0 then s
  else sendMgmtMsg way dst data (some (src, ttl - 1)) s

/-- The unprotected reply 0x11 for a part that cannot be reached. The request's MOP is under its seal: a free value. -/
def unreachable (way src : Nat) (data : Bytes) (s : State) : State :=
  let b := data.take 8 ++ frameHeader 0x10 0 (leAt data 12 4) 0 16 ++ mgHeader (freeNat 256 s) 0x11 0 0xFFFF 0
  deliverBack way (partAddr s) src 9 b (useFree s)

/-- Relayed frames that wait in the ports. -/
def relaysWaiting (s : State) : Nat :=
  ((List.range 3).map (fun p => ((s.frzPort p).waiting.filter (fun m => m.mtype = 0x08 && m.relay.isSome)).length)).sum

/-- Send a frame on toward the part that its route word names. `way`: where it came from; `ttl`: none at the part that
starts it. -/
def relayOn (way route src : Nat) (ttl : Option Nat) (data : Bytes) (s : State) : State :=
  let form1 := routeForm route = 1
  let q := if form1 then routePort s (bits route 11 0)
    else some (routePortAt route (match ttl with | some t => routeHops route - t | none => 0))
  let left := match ttl with | some t => t - 1 | none => if form1 then 255 else routeHops route - 1
  match q with
  | none => unreachable way src data s
  | some q =>
    if !portCarries (s.frzPort q).state 0x08 then unreachable way src data s
    else if 64 ≤ relaysWaiting s then bump 0x9068 9 0 s
    else
      let s := s.modFrz (fun f => { f with returns := ((route, way, q) :: f.returns.filter (fun e => e.1 != route)).take 64 })
      sendMgmtMsg q (if form1 then bits route 11 0 else partnerAddr (s.frzPort q)) data (some (src, left)) s

/-- Does a route word name this part by its address? -/
def routeOwn (s : State) (route : Nat) : Bool := route = 0 || (routeForm route = 1 && routeGood route && bits route 11 0 = partAddr s)

/-- A management frame, route word first, by a local transport. -/
def mgLocal (m : Nat) (data : Bytes) (s : State) : State :=
  let route := leAt data 0 8
  if data.length < 32 then s
  else if routeOwn s route then mgFrameIn m route 0 0 (data.drop 8) s
  else if !routeGood route then unreachable (16 + m) 0 data s
  else relayOn (16 + m) route (partAddr s) none data s

/-- A MGMT message arrives on port `p` (R480): one on its way back, one for this part, or one to be sent on. -/
def execMgmt (p src dst ttl : Nat) (data : Bytes) (s : State) : Res :=
  let route := leAt data 0 8
  let form1 := routeForm route = 1
  let s := consume p 0x08 s
  .next (
    if data.length < 32 then s
    else if form1 ∧ dst ≠ partAddr s then
      (if ttl = 0 then s
       else if 64 ≤ relaysWaiting s then bump 0x9068 9 0 s
       else
         match routePort s dst with
         | some q => sendMgmtMsg q dst data (some (src, ttl - 1)) s
         | none => unreachable p src data s)
    else
      match s.frz.returns.find? (fun e => e.1 = route && (form1 || e.2.2 = p)) with
      | some e => deliverBack e.2.1 src dst ttl data s
      | none =>
        if routeOwn s route then mgFrameIn 16 route src p (data.drop 8) s
        else if !routeGood route || form1 then s
        else if ttl = 0 then mgFrameIn 16 route src p (data.drop 8) s
        else relayOn p route src (some ttl) data s)

/-- A message not complete within 100 ms of its first flit is discarded. -/
def execMgmtReassemblyTimeout (p : Nat) (s : State) : Res :=
  .next (
    let k := s.frzPort p
    let old (r : Rcvd) : Bool := r.mtype = 0x08 && decide (r.since + 100000000 ≤ s.time)
    match k.partials.find? old with
    | some r => s.setFrzPort p { k with partials := k.partials.filter (fun x => !old x), freed := tset 0 k.freed r.vc (tget 0 k.freed r.vc + r.flits) }
    | none => s)

-- CAN (R435, R436).

/-- The bytes of a frame without the padding of its last segment. -/
def unpad (m : Nat) (b : Bytes) (s : State) : Bytes :=
  let sealed : Bool := leAt b 9 1 != 1 && (s.mgSess m).any (fun k => k.auth)
  let foreign := !routeOwn s (leAt b 0 8)
  if foreign then b else b.take (32 + leAt b 24 4 + (if sealed then 16 else 0))

/-- Discard a message in reassembly, with its count. -/
def canDiscard (c : Nat) (s : State) : State :=
  if (tfind s.mgmt.can c).isSome then bump 0x9067 2 0 (s.modMgmt (fun g => { g with can := tdel g.can c })) else s

/-- The last segment has come: the frame goes to its session, with device event 0x8062. -/
def canComplete (c : Nat) (b : Bytes) (s : State) : State :=
  mgLocal c (unpad c b s) (devEvent 0x8062 0 (s.modMgmt (fun g => { g with can := tdel g.can c })))

def execCanFrameReceive (ext fd : Bool) (id : Nat) (data : Bytes) (s : State) : Res :=
  .next (
    let c := bits id 26 24
    let own := ext && bits id 28 27 = 2 && bits id 23 8 = 0 && bits id 7 0 = s.cfg 0x1010 1
    if s.mgmt.busOff || !own || data.isEmpty || (fd && s.cfg 0x1010 3 = 0) then s
    else
      let s := bump 0x9067 1 0 s
      let ctl := leAt data 0 1
      let seg := (data.drop 1).take (if fd then 63 else 7)
      let take (b : Bytes) (since : Nat) (s : State) : State :=
        if bit ctl 6 then canComplete c b s
        else s.modMgmt (fun g => { g with can := tput g.can c { next := (bits ctl 5 0 + 1) % 64, data := b, since := since } })
      if bit ctl 7 then (if bits ctl 5 0 = 0 then take seg s.time (canDiscard c s) else canDiscard c s)
      else
        match tfind s.mgmt.can c with
        | some r => if r.next = bits ctl 5 0 && decide (r.data.length ≤ 4416) then take (r.data ++ seg) r.since s else canDiscard c s
        | none => s)

def execCanReassemblyTimeout (c : Nat) (s : State) : Res :=
  .next (match tfind s.mgmt.can c with
    | some r => if r.since + 100000000 ≤ s.time then canDiscard c s else s
    | none => s)

def execBusOff (s : State) : Res :=
  .next (if s.mgmt.busOff then s else bump 0x9067 3 0 (s.modMgmt (fun g => { g with busOff := true })))

def execBusOffRecovery (s : State) : Res := .next (s.modMgmt (fun g => { g with busOff := false }))

-- Mailboxes (R437).

/-- A doorbell: only an enabled mailbox in IDLE takes it; one in another state counts it. -/
def execMbDoorbell (f v : Nat) (s : State) : Res :=
  .next (
    let k := s.mailbox f
    let n := v % 65536
    if 8 ≤ f ∨ !bit k.ctrl 31 then s
    else if k.state ≠ 0 then s.modMailbox f (fun k => { k with ignored := sat32 (k.ignored + 1) })
    else if n < 48 ∨ 4400 < n then s
    else
      let b := (List.range n).map (fun i => tget 0 k.req i)
      mgLocal (8 + f) b (devEvent 0x8061 f (s.modMailbox f (fun k => { k with state := 1, rspLen := 0 }))))

def execMbAck (f : Nat) (s : State) : Res := .next (if f < 8 then s.modMailbox f (fun k => { k with state := 0 }) else s)

def execMbDisable (f : Nat) (s : State) : Res :=
  .next (if f < 8 then closeMailbox f (s.modMailbox f (fun k => { k with ctrl := k.ctrl % 2 ^ 31 })) else s)

/-- A HELLO for this part on a CAN channel number or a mailbox. -/
def execMgmtHello (m : Nat) (body : Bytes) (s : State) : Res := .next (if m < 16 then mgHello m 0 0 0 body s else s)

-- The life of a session, with the rows that serve every kind (02, R60, R63).

/-- Act on a management session where a condition on it holds. -/
def whenMg (m : Nat) (c : MgSess → Bool) (go : State → State) (s : State) : State :=
  match s.mgSess m with
  | some k => if c k then go s else s
  | none => s

def mgDrop (m : Nat) (s : State) : State := dropSessions (fun x _ => x = m) s

def execConfirmTimeout (x : SessRef) (s : State) : Res :=
  .next (match x with
    | .mgmt m => whenMg m (fun k => k.handshake && decide (k.openedAt + 1000000000 ≤ s.time)) (mgDrop m) s
    | _ => confirmTimeout x s)

def execSessionIdleTimeout (x : SessRef) (s : State) : Res :=
  .next (match x with
    | .mgmt m => whenMg m (fun k => !k.handshake && decide (k.lastRx + s.cfg 0x1028 2 * 1000000000 ≤ s.time)) (mgDrop m) s
    | _ => sessionIdleTimeout x s)

/-- A management session also gets notice 0x0005 (R446). -/
def execRekeyDue (x : SessRef) (s : State) : Res :=
  .next (match x with
    | .mgmt m => whenMg m (fun k => !k.handshake && mgRekeyDue k s) (noticeTo m 5 0) s
    | _ => rekeyDue x s)

def execSessionLifetimeEnd (x : SessRef) (s : State) : Res :=
  .next (match x with
    | .mgmt m =>
      whenMg m (fun k => !k.handshake && (decide (k.openedAt + lifetime s ≤ s.time) || decide (2 ^ 32 ≤ k.rxHigh) || decide (2 ^ 32 ≤ k.txSeq)))
        (mgClose (fun y _ => y = m)) s
    | _ => sessionLifetimeEnd x s)

def execSessionGraceEnd (x : SessRef) (s : State) : Res := .next (sessionGraceEnd x s)

end Sys2Proof.Machine
end

