-- ==== Sys2Proof/Machine/Bar0.lean ====
section
/-! DEFINITION. BAR0 of the PCIe functions (02, R69 to R73; 13, R437): the register blocks of the ring pairs and the
mailbox, as reads and writes at their offsets. -/

namespace Sys2Proof.Machine

/-- Value of STATE in RING_STATUS (Table 02-14). -/
def RingState.code : RingState → Nat
  | .disabled => 0 | .openNoKey => 1 | .handshake => 2 | .open => 3 | .stopped => 4 | .withdrawing => 5

/-- Reads of a ring pair's block: width in bytes and value of each register; reserved offsets read zero. -/
def ringRead (k : Ring) (o size : Nat) : Option Nat :=
  let at_ (w v : Nat) : Option Nat := if size = w then some v else none
  match o with
  | 0x00 => at_ 8 k.reqBase
  | 0x08 => at_ 8 k.cplBase
  | 0x10 => at_ 4 k.cfg
  | 0x14 => at_ 4 (k.state.code * 2 ^ 28 + k.error % 65536)
  | 0x18 => at_ 4 k.reqPi
  | 0x1C => at_ 4 k.reqCi
  | 0x20 => at_ 4 k.cplPi
  | 0x24 => at_ 4 k.cplCi
  | 0x28 => at_ 4 k.protFails
  | _ => if 0x2C ≤ o then some 0 else none

/-- A read of BAR0 of function `f`; none is a target error. -/
def bar0Read (f o size : Nat) (s : State) : Option Nat :=
  let mb := s.mailbox f
  let at_ (v : Nat) : Option Nat := if size = 4 then some v else none
  if 0x10000 ≤ o ∧ o < 0x14000 then ringRead (s.ring f ((o - 0x10000) / 0x40)) ((o - 0x10000) % 0x40) size
  else if 0x9000 ≤ o ∧ o < 0xB000 then some (leNat ((List.range size).map (fun i => tget 0 mb.req (o - 0x9000 + i))))
  else if 0xB000 ≤ o ∧ o < 0xD000 then some (leAt mb.rsp (o - 0xB000) size)
  else
    match o with
    | 0x8000 => at_ mb.ctrl
    | 0x8004 => at_ (mb.state * 2 ^ 28 + mb.rspLen % 65536)
    | 0x8008 => at_ 0
    | 0x800C => at_ 0
    | 0x8010 => at_ mb.ignored
    | _ => none

/-- Registers of a ring pair that the host may write only while ENABLE is 0 (R72). -/
def ringSetup (f r : Nat) (g : Ring → Ring) (s : State) : State :=
  let k := s.ring f r
  if bit k.cfg 31 then s else s.setRing f r (g k)

/-- A write to a ring pair's block. -/
def ringWrite (f r o size v : Nat) (s : State) : Option State :=
  let at_ (w : Nat) (t : State) : Option State := if size = w then some t else none
  match o with
  | 0x00 => at_ 8 (ringSetup f r (fun k => { k with reqBase := v % 2 ^ 64 }) s)
  | 0x08 => at_ 8 (ringSetup f r (fun k => { k with cplBase := v % 2 ^ 64 }) s)
  | 0x10 =>
    at_ 4 (if bit (s.ring f r).cfg 31 then (if bit v 31 then s else after (execRingDisable f r s) s)
      else if bit v 31 then after (execRingEnable f r v s) s
      else s.setRing f r { s.ring f r with cfg := v % 2 ^ 25 })
  | 0x18 => at_ 4 (after (execReqPiDoorbell f r v s) s)
  | 0x24 => at_ 4 (after (execCplCiWrite f r v s) s)
  | 0x14 | 0x1C | 0x20 | 0x28 => at_ 4 s
  | _ => if 0x2C ≤ o then some s else none

/-- A write to BAR0 of function `f`; none is a target error. -/
def bar0Write (f o size v : Nat) (s : State) : Option State :=
  let at_ (t : State) : Option State := if size = 4 then some t else none
  if 0x10000 ≤ o ∧ o < 0x14000 then ringWrite f ((o - 0x10000) / 0x40) ((o - 0x10000) % 0x40) size v s
  else if 0x9000 ≤ o ∧ o < 0xB000 then
    some (s.modMailbox f (fun k => { k with
      req := (List.range size).foldl (fun t i => tset 0 t (o - 0x9000 + i) (BitVec.ofNat 8 (v / 2 ^ (8 * i)))) k.req }))
  else if 0xB000 ≤ o ∧ o < 0xD000 then some s
  else
    match o with
    | 0x8000 =>
      at_ (if bit (s.mailbox f).ctrl 31 && !bit v 31 then after (execMbDisable f s) s
        else s.modMailbox f (fun k => { k with ctrl := bits v 31 31 * 2 ^ 31 + bits v 24 16 * 2 ^ 16 }))
    | 0x8004 | 0x8010 => at_ s
    | 0x8008 => at_ (after (execMbDoorbell f v s) s)
    | 0x800C => at_ (after (execMbAck f s) s)
    | _ => none

end Sys2Proof.Machine
end

