-- ==== Sys2Proof/Machine/RegMap.lean ====
section
/-! DEFINITION. Registers in the address space that a core's loads and stores reach: the channel
interrupt controller (Table 11-2), the core register blocks (Table 12-2) and the device control and
status space (Table 12-3). Each register acts through the operation that its own command calls. -/

namespace Sys2Proof.Machine

/-- Answer of a register read: the value, a target error (R390), or uncorrectable data (R522). -/
inductive RegRd where
  | val (v : Nat) (s : State)
  | err
  | ecc (s : State)

/-- Answer of a register write: done, stalled (R206, R239, R249), or a target error. -/
inductive RegWr where
  | done (s : State)
  | stall (s : State)
  | err

/-- SLOTS of Table 11-2. -/
def slotsValue (s : State) (n : Nat) : Nat :=
  let k := s.intcOf n
  (List.range 8).foldl (fun v c =>
    v + (b2n (bit k.c0busy.toNat c) + 2 * b2n (bit k.nbusy.toNat c) + 4 * b2n (c = 0 && wduty s n)) * 2 ^ (3 * c)) 0

/-- Reads of a controller's registers; each is 32 bits wide. -/
def intcRead (n o size : Nat) (s : State) : RegRd :=
  let k := s.intcOf n
  if size ≠ 4 then .err
  else if o < 0x800 then .val (if lineExists (o / 4) then lineCfg k (o / 4) else 0) s
  else if o < 0x840 then .val (maskWord k ((o - 0x800) / 4)) s
  else if o < 0x880 then .val (pendWord k ((o - 0x840) / 4)) s
  else if o < 0x8C0 then .val (tget 0 k.srcin ((o - 0x880) / 4)) s
  else if 0x900 ≤ o ∧ o < 0x920 then .val (runPriority (s.core (n * 8 + (o - 0x900) / 4))) s
  else if o = 0x920 then .val (slotsValue s n) s
  else .val 0 s

/-- Writes of a controller's registers; the supervisor writes LINECFG only while the channel is not
IN_SERVICE (R371), and a held word is not written by another core's store any differently (R381). -/
def intcWrite (c n o size v : Nat) (s : State) : RegWr :=
  if size ≠ 4 then .err
  else if o < 0x800 then
    if c = 0x50 ∧ (s.chan n).data = .inService then .done s
    else .done (s.modIntc n (fun k => writeLineCfg k (o / 4) v))
  else if o < 0x840 then .done (s.modIntc n (fun k => setMaskWord k ((o - 0x800) / 4) v))
  else if o < 0x880 then .done (pendWrite n ((o - 0x840) / 4) v s)
  else .done s

/-- Reads of a core register block (Table 12-2): write-only registers read zero. -/
def blockRead (n o size : Nat) (s : State) : RegRd :=
  if size ≠ 4 then .err
  else if o % 0x100 = 0x10 then .val (slotclaimStatus (n * 8 + o / 0x100) s) s
  else .val 0 s

/-- Writes of a core register block: only its own core's are accepted (R389). -/
def blockWrite (c n o size v : Nat) (s : State) : RegWr :=
  if size ≠ 4 ∨ c ≠ n * 8 + o / 0x100 then .err
  else
    let go (r : Submitted) : RegWr := match r with | .done s => .done s | .stall s => .stall s
    match o % 0x100 with
    | 0x00 => go (submitWrite c v s)
    | 0x04 => go (dsubmitWrite c v s)
    | 0x08 => go (psubmitWrite c v s)
    | 0x0C => .done (slotclaimWrite c v s)
    | _ => .done s

/-- Reads of the device control and status space. The firmware registers have no layout in the spec:
their reads are free values (log 6). -/
def devRead (o size : Nat) (s : State) : RegRd :=
  if o ≤ 0x2FFFF then match aclRead o size s with | some v => .val v s | none => .err
  else if 0x20000000 ≤ o then (if size = 8 ∧ o = 0x20000000 then .val (s.time % 2 ^ 64) s else .err)
  else if 0x10000000 ≤ o then
    match bar0Read ((o - 0x10000000) / 0x100000) (o % 0x100000) size s with
    | some v => .val v s
    | none => .err
  else .val (freeNat (2 ^ (8 * size)) s) (useFree s)

/-- Writes of the device control and status space. -/
def devWrite (c o size v : Nat) (s : State) : RegWr :=
  if o ≤ 0x2FFFF then
    match aclWrite o size v s with
    | some s' => .done (s'.modCore c (fun k => { k with aclPending := true }))
    | none => .err
  else if 0x20000000 ≤ o then .err
  else if 0x10000000 ≤ o then
    match bar0Write ((o - 0x10000000) / 0x100000) (o % 0x100000) size v s with
    | some s => .done s
    | none => .err
  else .done s

/-- Does the target hold registers rather than memory? -/
def isReg : Target → Bool
  | .intc _ _ | .block _ _ | .dev _ | .flash _ | .flashReg _ | .bootRec _ => true
  | _ => false

def regRead (t : Target) (size : Nat) (s : State) : RegRd :=
  match t with
  | .intc n o => intcRead n o size s
  | .block n o => blockRead n o size s
  | .dev o => devRead o size s
  | .flash o =>
    let u := unitRead (o / 64) s
    if u.2.1 then .ecc u.2.2 else .val (leAt u.1 (o % 64) size) u.2.2
  | .flashReg o => .val (flRead o size s) s
  | .bootRec o => .val (leAt s.life.bootRecord o size) s
  | _ => .err

def regWrite (c : Nat) (t : Target) (size v : Nat) (s : State) : RegWr :=
  match t with
  | .intc n o => intcWrite c n o size v s
  | .block n o => blockWrite c n o size v s
  | .dev o => devWrite c o size v s
  | .flashReg o => .done (flWrite o size v s)
  | _ => .err

/-- REGISTER_WRITE: a write by a master of the interconnect to a register (R9, R389, R390). A refused access is recorded
and has no effect; what is no register is left alone. -/
def execRegisterWrite (master addr size v : Nat) (s : State) : Res :=
  .next (
    match accessVerdict s master .write addr size with
    | some w => logViolation master .write addr w s
    | none =>
      let t := resolve s master addr
      if !isReg t then s
      else
        match regWrite master t size (v % 2 ^ (8 * size)) s with
        | .done s => s
        | .stall s => s
        | .err => s)

end Sys2Proof.Machine
end

