-- ==== Sys2Proof/Machine/Operands.lean ====
section
/-! DEFINITION. Operand forms of the Ortan instructions: registers, immediates, predicates, segments
(R307, R316 to R319, R326, R327). -/

namespace Sys2Proof.Machine

/-- g[r]; g0 reads zero (Table 09-1). -/
def Core.gr (k : Core) (r : BitVec 5) : Word := if r = 0 then 0 else tget 0 k.g r.toNat

/-- Write g[r]; a write to g0 is discarded. -/
def Core.setG (k : Core) (r : BitVec 5) (v : Word) : Core :=
  if r = 0 then k else { k with g := tset 0 k.g r.toNat v }

/-- p[i]; p0 reads 1. -/
def Core.pr (k : Core) (i : BitVec 3) : Bool := i = 0 || k.p.getLsbD i.toNat

/-- Write p[i]; a write to p0 is discarded. -/
def Core.setP (k : Core) (i : BitVec 3) (v : Bool) : Core :=
  if i = 0 then k
  else if v then { k with p := k.p ||| (1#8 <<< i.toNat) }
  else { k with p := k.p &&& ~~~(1#8 <<< i.toNat) }

def Core.acc (k : Core) (i : BitVec 2) : BitVec 72 := tget 0 k.a i.toNat
def Core.setAcc (k : Core) (i : BitVec 2) (v : BitVec 72) : Core := { k with a := tset 0 k.a i.toNat v }
def Core.mr (k : Core) (i : BitVec 2) : BitVec 128 := tget 0 k.m i.toNat
def Core.setM (k : Core) (i : Nat) (v : BitVec 128) : Core := { k with m := tset 0 k.m i v }
def Core.seg (k : Core) (i : BitVec 3) : BitVec 128 := tget 0 k.sg i.toNat
def Core.setSeg (k : Core) (i : BitVec 3) (v : BitVec 128) : Core := { k with sg := tset 0 k.sg i.toNat v }

/-- Operand B: a register, or IMM32 sign-extended (R317, R318). -/
def Core.opnd (k : Core) : Opnd → Word
  | .reg r => k.gr r
  | .imm v => v.signExtend 64

/-- Does the predicate hold (R316)? -/
def Core.predOk (k : Core) (q : Pred) : Bool := k.pr q.prd ^^ q.neg

-- Fields of a segment descriptor (Table 09-12).
def sgBase (d : BitVec 128) : Nat := bits d.toNat 47 0
def sgLimit (d : BitVec 128) : Nat := bits d.toNat 95 64
def sgV (d : BitVec 128) : Bool := bit d.toNat 55
def sgLvl (d : BitVec 128) : Nat := bits d.toNat 54 53
def sgX (d : BitVec 128) : Bool := bit d.toNat 52
def sgW (d : BitVec 128) : Bool := bit d.toNat 51
def sgR (d : BitVec 128) : Bool := bit d.toNat 50
def sgReserved (d : BitVec 128) : Bool :=
  bits d.toNat 127 96 != 0 || bits d.toNat 63 56 != 0 || bits d.toNat 49 48 != 0

/-- Kinds of segment access, with their code in DETAIL bits 6:4 (Table 10-5). -/
inductive SegKind where
  | read | write | fetch | atomic
deriving DecidableEq, Repr

def SegKind.code : SegKind → Nat
  | .read => 0 | .write => 1 | .fetch => 2 | .atomic => 3

/-- Has the descriptor the right for the access (R327)? -/
def SegKind.right (d : BitVec 128) : SegKind → Bool
  | .read => sgR d
  | .write => sgW d
  | .fetch => sgX d
  | .atomic => sgR d && sgW d

/-- Verdict of the segment check: the physical address, the first check failed (1 V, 2 right, 3 level,
4 limit), or misaligned. -/
inductive SegRes where
  | ok (addr : Nat)
  | fail (check : Nat)
  | misaligned
deriving DecidableEq, Repr

/-- Addresses of the fault stack, which no master but the core itself reaches (R364). -/
def fsAddr : Nat := 2 ^ 60

/-- The checks of R327 on an access of `size` bytes at offset `off` through sg[n]. -/
def segCheck (k : Core) (n : BitVec 3) (kind : SegKind) (off size : Nat) : SegRes :=
  let d := k.seg n
  if !sgV d then .fail 1
  else if !kind.right d then .fail 2
  else if sgLvl d < k.status.pl.toNat then .fail 3
  else if sgLimit d < off + size - 1 then .fail 4
  else if off % size ≠ 0 then .misaligned
  else if k.exc.onFs && n = 6 then .ok (fsAddr + off)
  else .ok (sgBase d + off)

/-- The offset g[RA] + sign-extended DISP32, formed in 64 bits (R327). -/
def Core.effOff (k : Core) (ra : BitVec 5) (disp : BitVec 32) : Nat := (k.gr ra + disp.signExtend 64).toNat

end Sys2Proof.Machine
end

