-- ==== Sys2Proof/Machine/Flags.lean ====
section
/-! DEFINITION. Rounding, saturation, the SATF flag, compare conditions and the STATUS register
(R308, R311 to R313, R318, R324). -/

namespace Sys2Proof.Machine

/-- Rounding modes (R311). -/
inductive Rnd where
  | rne | rna | floor | trunc
deriving DecidableEq, Repr

def Rnd.ofBits (v : BitVec 2) : Rnd :=
  if v = 0 then .rne else if v = 1 then .rna else if v = 2 then .floor else .trunc

/-- round(a, k) of R155 and R311. -/
def roundK (m : Rnd) (a : Int) (k : Nat) : Int :=
  if k = 0 then a
  else
    let q := a / (2 ^ k : Int)
    let r := a - q * 2 ^ k
    let half : Int := 2 ^ (k - 1)
    match m with
    | .rne => if r > half ∨ (r = half ∧ q % 2 ≠ 0) then q + 1 else q
    | .rna => if r > half ∨ (r = half ∧ 0 ≤ a) then q + 1 else q
    | .floor => q
    | .trunc => if a < 0 ∧ r ≠ 0 then q + 1 else q

/-- Saturation to a signed width of `w` bits (R156, R312). -/
def satW (w : Nat) (x : Int) : Int :=
  if 2 ^ (w - 1) - 1 < x then 2 ^ (w - 1) - 1 else if x < -(2 ^ (w - 1) : Int) then -(2 ^ (w - 1) : Int) else x

/-- Did saturation change the value? -/
def satChanged (w : Nat) (x : Int) : Bool := satW w x != x

/-- SATF is sticky (R313). -/
def Core.orSatf (k : Core) (b : Bool) : Core :=
  if b then { k with status := { k.status with satf := true } } else k

/-- acc(x): sat72 with SAT set, else x wrapped to 72 bits (R324). -/
def accVal (sat : Bool) (x : Int) : BitVec 72 := BitVec.ofInt 72 (if sat then satW 72 x else x)
def accSat (sat : Bool) (x : Int) : Bool := sat && satChanged 72 x

/-- Conditions of Table 09-8 on values of one width. -/
def condHolds {w : Nat} (c : Cond) (a b : BitVec w) : Bool :=
  match c with
  | .eq => a == b
  | .ne => a != b
  | .lt => a.slt b
  | .ge => !a.slt b
  | .ltu => a.ult b
  | .geu => !a.ult b
  | .tst => a &&& b != 0
  | .ntst => a &&& b == 0

/-- STATUS as a 64-bit word (Table 09-2). -/
def Status.toNat (t : Status) : Nat :=
  t.bprog.toNat * 2 ^ 32 + b2n t.satf * 2 ^ 17 + t.iml.toNat * 2 ^ 12 + t.pl.toNat * 2 ^ 8

/-- STATUS of a word; its reserved bits are dropped. -/
def Status.ofNat (v : Nat) : Status :=
  { bprog := BitVec.ofNat 32 (bits v 63 32), satf := bit v 17, iml := BitVec.ofNat 4 (bits v 15 12),
    pl := BitVec.ofNat 2 (bits v 9 8) }

/-- Reserved bits of STATUS. -/
def statusReserved (v : Nat) : Bool :=
  bits v 31 18 != 0 || bit v 16 || bits v 11 10 != 0 || bits v 7 0 != 0

/-- A MOVCR write to STATUS: every field but PL (R308). -/
def Status.written (t : Status) (v : Nat) : Status := { Status.ofNat v with pl := t.pl }

end Sys2Proof.Machine
end

