-- ==== Sys2Proof/Machine/CoreMem.lean ====
section
/-! DEFINITION. A core's accesses to the interconnect: loads with store-buffer forwarding, unbuffered and
buffered stores, the drain of the store buffer and the report of asynchronous bus errors (R329, R330,
R358, R405, R411, R416). -/

namespace Sys2Proof.Machine

/-- Outcome of a core's access: done with a value, refused precisely with CLASS and RULE (Table 12-12),
or not complete yet. -/
inductive CoreAcc where
  | ok (v : Nat) (s : State)
  | bad (cls : Nat) (s : State)
  | stall (s : State)

/-- The newest buffered byte for an address. -/
def bufByte (q : List BufStore) (a : Nat) : Option Nat :=
  q.foldl (fun r e => if e.addr ≤ a ∧ a < e.addr + e.size then some (e.data / 2 ^ (8 * (a - e.addr)) % 256) else r) none

/-- Lay the buffered bytes over bytes read at an address. -/
def overlay (q : List BufStore) (a : Nat) : Bytes → Bytes
  | [] => []
  | b :: t => (match bufByte q a with | some v => BitVec.ofNat 8 v | none => b) :: overlay q (a + 1) t

/-- Are all bytes of an access buffered? -/
def allBuffered (q : List BufStore) (a size : Nat) : Bool :=
  (List.range size).all (fun i => (bufByte q (a + i)).isSome)

/-- Alarm-free bookkeeping of a refused access or a failed one. -/
def coreRead (c : Nat) (k : AccKind) (a size : Nat) (s : State) : CoreAcc :=
  if fsAddr ≤ a then
    .ok (leNat ((List.range size).map (fun i => tget 0 (s.core c).exc.faultStack (a - fsAddr + i)))) s
  else
    match accessVerdict s c k a size with
    | some v => .bad 1 (logViolation c k a v s)
    | none =>
      let t := resolve s c a
      let q := (s.core c).storeBuf
      if isReg t then
        match regRead t size s with
        | .val v s => .ok v s
        | .err => .bad 3 s
        | .ecc s => .bad 4 s
      else if allBuffered q a size then .ok (leNat (overlay q a (zeros size))) s
      else
        match readError s t size with
        | some cls => .bad cls s
        | none => .ok (leNat (overlay q a (s.memRead (memKey t) size))) s

/-- Make a store at its target, whose access check has passed: `bad` with the class of its error. -/
def storeAt (c a size data : Nat) (s : State) : CoreAcc :=
  let t := resolve s c a
  if isReg t then
    match regWrite c t size data s with
    | .done s => .ok 0 s
    | .stall s => .stall s
    | .err => .bad 3 s
  else
    match t with
    | .ddr _ =>
      match readError s t size with
      | some cls => .bad cls s
      | none => .ok 0 (putTarget t (leBytes size data) s)
    | _ =>
      if size < 8 then
        match readError s t size with
        | some cls => .bad cls s
        | none => .ok 0 (putTarget t (leBytes size data) s)
      else .ok 0 (putTarget t (leBytes size data) s)

/-- An error on a buffered store is reported (R358): the first in ABE_ADDR and ABE_INFO, the others
counted in MORE. -/
def abeReport (c addr cls rule : Nat) (pl : BitVec 2) (s : State) : State :=
  let s := bump 0x9063 7 0 s
  s.modCore c (fun k =>
    let i := k.exc.abe
    if i.valid then
      { k with exc := { k.exc with abe := { i with
          more := Nat.min 255 (i.more + 1), moreOvf := i.moreOvf || decide (255 ≤ i.more + 1) } } }
    else
      { k with exc := { k.exc with abePend := true, abe :=
          { valid := true, more := 0, moreOvf := false, cls := cls, rule := if cls = 1 then rule else 0, storePl := pl, addr := addr } } })

/-- The oldest buffered store reaches its target, or its error is reported (R330). -/
def drainOne (c : Nat) (s : State) : State :=
  match (s.core c).storeBuf with
  | [] => s
  | e :: q =>
    let s := s.modCore c (fun k => { k with storeBuf := q })
    match accessVerdict s c .write e.addr e.size with
    | some v => abeReport c e.addr 1 v.rule e.pl (logViolation c .write e.addr v s)
    | none =>
      match storeAt c e.addr e.size e.data s with
      | .ok _ s => s
      | .stall s => s
      | .bad cls s => abeReport c e.addr cls 0 e.pl s

/-- The store buffer drains: all its entries, at most 8. -/
def drainAll (c : Nat) (s : State) : State := (List.range 8).foldl (fun s _ => drainOne c s) s

/-- A core's store: precise to its own memory and window, buffered to any other target (R330). A full
buffer drains its oldest entry first. -/
def coreStore (c a size data : Nat) (s : State) : CoreAcc :=
  if fsAddr ≤ a then
    .ok 0 (s.modCore c (fun k => { k with exc := { k.exc with
      faultStack := memPut k.exc.faultStack (a - fsAddr) (leBytes size data) } }))
  else if ownTarget c (resolve s c a) then
    match accessVerdict s c .write a size with
    | some v => .bad 1 (logViolation c .write a v s)
    | none => storeAt c a size data s
  else
    let s := if 8 ≤ (s.core c).storeBuf.length then drainOne c s else s
    .ok 0 (s.modCore c (fun k => { k with
      storeBuf := k.storeBuf ++ [{ addr := a, size := size, data := data, pl := k.status.pl }] }))

/-- Is the target one an ATOM may have: the core's own channel SRAM or local memory (R329)? -/
def atomTarget (c : Nat) : Target → Bool
  | .sram n _ => c < 72 && n == c / 8
  | .localMem m _ => m == c
  | _ => false

/-- A physical access of hardware on the core's behalf, 16 bytes or more at a time: vector entries, gate
entries and frames (R337, R347, R349). -/
def physRead (c a size : Nat) (s : State) : CoreAcc :=
  if fsAddr ≤ a then coreRead c .read a size s
  else
    match accessVerdict s c .read a size with
    | some v => .bad 1 (logViolation c .read a v s)
    | none =>
      let t := resolve s c a
      if isReg t then .bad 3 s
      else match readError s t size with
        | some cls => .bad cls s
        | none => .ok (leNat (overlay (s.core c).storeBuf a (s.memRead (memKey t) size))) s

/-- A push of 64 bytes with the core's master ID and the access kind write (R347). -/
def physPush (c a : Nat) (b : Bytes) (s : State) : CoreAcc :=
  if fsAddr ≤ a then
    .ok 0 (s.modCore c (fun k => { k with exc := { k.exc with faultStack := memPut k.exc.faultStack (a - fsAddr) b } }))
  else
    match accessVerdict s c .write a b.length with
    | some v => .bad 1 (logViolation c .write a v s)
    | none =>
      let t := resolve s c a
      if isReg t then .bad 3 s
      else match t with
        | .ddr _ =>
          match readError s t b.length with
          | some cls => .bad cls s
          | none => .ok 0 (putTarget t b s)
        | _ => .ok 0 (putTarget t b s)

/-- Multiplications in flight that are due at a cycle write their registers, oldest completion first
(R321). Insertion order by ready cycle keeps the later issue last among equals. -/
def insertMul (m : MulFlight) : List MulFlight → List MulFlight
  | [] => [m]
  | x :: l => if m.ready < x.ready then m :: x :: l else x :: insertMul m l

/-- Settle the multiplications whose product a MOVM at cycle `t` reads. -/
def Core.settle (k : Core) (t : Nat) : Core :=
  let k' := (k.muls.filter (fun m => m.ready ≤ t)).foldl (fun k m => k.setM m.m m.product) k
  { k' with muls := k.muls.filter (fun m => !(decide (m.ready ≤ t))) }

/-- Every multiplication in flight completes (R323). -/
def Core.settleAll (k : Core) : Core :=
  { (k.muls.foldl (fun k m => k.setM m.m m.product) k) with muls := [] }

end Sys2Proof.Machine
end

