-- ==== Sys2Proof/Machine/Exc.lean ====
section
/-! DEFINITION. Taking an exception and returning from one: the frame, stacks, vectors, escalation, the
fault stack and lockup (chapter 10), and the faults of request contexts (R367). -/

namespace Sys2Proof.Machine

/-- An exception to take: vector, level, FADDR and DETAIL of Table 10-5. -/
structure Exc where
  vector : Nat
  level : Nat := 12
  faddr : Nat := 0
  detail : Nat := 0
deriving DecidableEq, Repr

/-- The 64-byte frame (Table 10-7). -/
structure Frame where
  pc : Nat
  vector : Nat
  fflags : Nat
  detail : Nat
  status : Nat
  g31 : Nat
  sg6 : Nat
  sg7 : Nat
  faddr : Nat
deriving DecidableEq, Repr

def Frame.bytes (f : Frame) : Bytes :=
  leBytes 4 f.pc ++ leBytes 1 f.vector ++ leBytes 1 f.fflags ++ leBytes 2 f.detail ++ leBytes 8 f.status ++
  leBytes 8 f.g31 ++ leBytes 16 f.sg6 ++ leBytes 16 f.sg7 ++ leBytes 8 f.faddr

def Frame.ofNat (v : Nat) : Frame :=
  let b := leBytes 64 v
  { pc := leAt b 0 4, vector := leAt b 4 1, fflags := leAt b 5 1, detail := leAt b 6 2, status := leAt b 8 8,
    g31 := leAt b 16 8, sg6 := leAt b 24 16, sg7 := leAt b 40 16, faddr := leAt b 56 8 }

/-- A core has a fault stack when it is a warden, the supervisor or the Plinth core (R364). -/
def hasFaultStack (c : Nat) : Bool := 72 ≤ c || c % 8 = 0

/-- Is a vector value listed in Table 10-5, or that of a CALLS frame? -/
def vectorListed (v : Nat) : Bool := v ≤ 0x0D || v = 0x10

/-- The frame for an exception of a core as it stands. -/
def Core.frame (k : Core) (vector detail faddr : Nat) (fs esc : Bool) : Frame :=
  { pc := k.pc.toNat, vector := vector,
    fflags := b2n k.exc.abePend * 64 + b2n fs * 32 + b2n esc * 16 + k.status.pl.toNat * 4,
    detail := detail, status := k.status.toNat, g31 := (k.gr 31).toNat, sg6 := (k.seg 6).toNat,
    sg7 := (k.seg 7).toNat, faddr := faddr }

/-- Entry checks on a code segment and entry offset (R349). -/
def codeValid (code : BitVec 128) (entry : Nat) : Bool :=
  sgV code && sgX code && sgLvl code = 0 && entry % 8 = 0 && entry + 7 ≤ sgLimit code

/-- The stack for a push at level `t` (R345): its segment, pointer, and whether it is the current one. -/
def Core.stackFor (k : Core) (t : Nat) : BitVec 128 × Nat :=
  if k.status.pl.toNat = t then (k.seg 6, (k.gr 31).toNat)
  else if t = 0 then (k.exc.lseg0, k.exc.lsp0.toNat)
  else (k.exc.lseg1, k.exc.lsp1.toNat)

/-- R347: is a stack valid for a push at level `t`? -/
def stackValid (d : BitVec 128) (sp t : Nat) : Bool :=
  sgV d && sgR d && sgW d && sgLvl d = t && sp % 64 = 0 && 64 ≤ sp && sp - 1 ≤ sgLimit d

/-- Step 4 of R353, with the stack of the push in sg6 and g31. -/
def Core.enter (k : Core) (code : BitVec 128) (entry iml : Nat) (stk : BitVec 128) (sp : Nat) : Core :=
  let k := { k with status := { bprog := 0, satf := false, iml := BitVec.ofNat 4 iml, pl := 0 },
                    pc := BitVec.ofNat 32 entry }
  ((k.setSeg 7 code).setSeg 6 stk).setG 31 (BitVec.ofNat 64 sp)

/-- The lockup record (Table 10-10). -/
def lockupRecord (c cause vector faddr : Nat) (s : State) : Bytes :=
  let k := s.core c
  leBytes 1 c ++ leBytes 1 cause ++ leBytes 1 vector ++ leBytes 1 (k.status.pl.toNat + 16 * k.status.iml.toNat) ++
  leBytes 4 k.pc.toNat ++ leBytes 8 (k.gr 31).toNat ++ leBytes 8 faddr ++ leBytes 8 s.time

/-- A core that locks up loses its unclaimed records: requests are routed again, lines return to pending
(R376). -/
def loseRecords (c : Nat) (s : State) : State :=
  ((s.core c).ev.erq.filter (fun e => !e.2.claimed)).foldl (fun s e =>
    let r := e.2
    let s := dropRecord c e.1 s
    if 72 ≤ c then s
    else if isReqEvent r.event then
      let s := markSlot (c / 8) (c % 8) r.event none s
      let q : ReqEvent := { event := r.event, data := r.data, tRaise := r.tRaise }
      match routeReq (c / 8) q ((List.range 8).filter (fun x => x != c % 8)) s with
      | some s => s
      | none => s.modIntc (c / 8) (fun k => { k with reqs := q :: k.reqs })
    else
      let s := s.modIntc (c / 8) (fun k => setPend k r.event)
      if lineKind (s.intcOf (c / 8)) r.event = 1 then unmaskLine (c / 8) r.event s else s) s

/-- CORE_LOCK_N goes low (R365). -/
def coreLockLow (s : State) : State :=
  { s with pins := { s.pins with coreLock := true, coreLockAt := if s.pins.coreLock then s.pins.coreLockAt else s.time } }

/-- Lockup (R363, R365, Table 10-11): the record, the Patina entry, the pin, and the part's action for the
kind of core. -/
def lockUp (c cause vector faddr : Nat) (s : State) : State :=
  let r := lockupRecord c cause vector faddr s
  let s := { s with lockup := r }
  let s := logEntry (0x200 + c) 2 (r.take 24) s
  let s := s.modCore c (fun k => { k with run := .lockedUp, muls := [] })
  let s := coreLockLow s
  let s := loseRecords c s
  if c < 72 then
    let n := c / 8
    if c % 8 = 0 then quarantineChannel n (devEvent (0x8010 + n) c (bump 0x9063 2 0 s))
    else quarantineChannel n (raiseLine n (0x18 + c % 8) (bump 0x9063 1 0 s))
  else if c = 0x50 then
    let s := (countFault 0x0F 0 2 (bump 0x9063 3 0 s)).1
    beginRevert { s with supRestarting := true }
  else beginRevert (raiseAlarm 0x1C [] s)

/-- Fault-stack frames: position by FS_DEPTH from offset 960 downward (R364). -/
def fsOffset (depth : Nat) : Nat := 960 - 64 * depth

/-- The fault stack as sg6 sees it while ON_FS is set (log 11). -/
def fsSegment : BitVec 128 := mkSeg 0 1023 0 true false true true

/-- Push a frame on the fault stack and enter at FS_ENTRY in FS_CODE (R364). -/
def fsPush (c vector detail faddr : Nat) (esc : Bool) (s : State) : State :=
  let k := s.core c
  if 16 ≤ k.exc.fsDepth then lockUp c 6 vector faddr s
  else
    let off := fsOffset k.exc.fsDepth
    let f := k.frame vector detail faddr true esc
    let k' := k.enter k.exc.fsCode k.exc.fsEntry.toNat 15 fsSegment off
    s.setCore c { k' with
      cycle := k.cycle + 10,
      exc := { k'.exc with onFs := true, fsDepth := k.exc.fsDepth + 1,
                           escDepth := if esc then Nat.min 255 (k.exc.escDepth + 1) else k.exc.escDepth,
                           faultStack := memPut k.exc.faultStack off f.bytes } }

/-- The switch to the fault stack, with the checks of R349 on FS_CODE and FS_ENTRY. -/
def fsSwitch (c vector detail faddr : Nat) (esc : Bool) (s : State) : State :=
  let k := s.core c
  if codeValid k.exc.fsCode k.exc.fsEntry.toNat then fsPush c vector detail faddr esc (bump 0x9063 5 0 s)
  else lockUp c 7 vector faddr s

/-- A failure of fault entry of causes 0x01 to 0x04 (R363, R364). `orig` is the exception whose entry
failed, for the lockup record. -/
def entryFails (c cause orig vector detail faddr : Nat) (esc : Bool) (s : State) : State :=
  if hasFaultStack c then fsSwitch c vector detail faddr esc s else lockUp c cause orig faddr s

/-- Steps 1 to 4 of R353 for a vector, on the ordinary stack. `iml`: the new IML (R356). -/
def enterVector (c orig vector detail faddr iml : Nat) (esc : Bool) (s : State) : State :=
  let k := s.core c
  match physRead c (k.exc.vbase + 32 * vector) 32 s with
  | .ok v s =>
    let b := leBytes 32 v
    let entry := leAt b 4 4
    let code : BitVec 128 := BitVec.ofNat 128 (leAt b 8 16)
    if leAt b 0 4 ≠ 0 ∨ leAt b 24 8 ≠ 0 ∨ !codeValid code entry then entryFails c 2 orig vector detail faddr esc s
    else
      let (d, sp) := k.stackFor 0
      if !stackValid d sp 0 then entryFails c 3 orig vector detail faddr esc s
      else
        let f := k.frame vector detail faddr false esc
        match physPush c (sgBase d + sp - 64) f.bytes s with
        | .ok _ s =>
          s.modCore c (fun k =>
            let k' := k.enter code entry iml d (sp - 64)
            { k' with cycle := k.cycle + 18,
                      exc := { k'.exc with escDepth := if esc then k.exc.escDepth + 1 else k.exc.escDepth } })
        | .bad _ s => entryFails c 4 orig vector detail faddr esc s
        | .stall s => s
  | .bad _ s => entryFails c 1 orig vector detail faddr esc s
  | .stall s => s

/-- Does an exception escalate at an IML (R357)? Events never do. -/
def escalates (vector iml : Nat) : Bool :=
  if vector = 0x10 then false else if vector = 0x0A then 13 ≤ iml else 12 ≤ iml

/-- The request that a core runs at PL1 or PL2: its C0 request, else its non-C0 request. -/
def runningReq (s : State) (c : Nat) : Option Nat := if c < 72 then (workReq s c).map (fun p => p.1) else none

/-- A fault taken from PL1 or PL2 in a request context ends the request (R359, R367). The emulation trap
is the handler's to supply. -/
def programFault (c vector : Nat) (pl : BitVec 2) (s : State) : State :=
  if pl = 0 ∨ vector = 0x07 ∨ vector = 0x10 then s
  else
    match runningReq s c with
    | none => s
    | some r =>
      match s.req? r with
      | none => s
      | some q =>
        if isCustomer q.hdr.service then endRequest r 0x04FF s
        else quarantineChannel (c / 8) (endRequest r 0x0506 s)

/-- Taking an exception: multiplications in flight complete (R323), buffered stores reach their targets
(R330), the exception escalates under R357 where it must, and its entry or the failure of its entry
follows (R353, R363, R364). -/
def takeExc (c : Nat) (e : Exc) (s : State) : State :=
  let s := drainAll c s
  let s := s.modCore c (fun k => { k.settleAll with stalled := none })
  let k := s.core c
  let s := if e.vector = 0x0A then s.modCore c (fun k => { k with exc := { k.exc with abePend := false } }) else s
  let pl := k.status.pl
  let esc := escalates e.vector k.status.iml.toNat
  let vector := if esc then 0x0D else e.vector
  let detail := if esc then e.vector else e.detail
  let iml := if esc then 15 else e.level
  let s := if esc then bump 0x9063 4 0 s else s
  let s :=
    if k.exc.onFs then fsPush c vector detail e.faddr esc s
    else if esc && k.exc.escDepth != 0 && !hasFaultStack c then lockUp c 5 e.vector e.faddr s
    else if esc && decide (255 ≤ k.exc.escDepth) then fsSwitch c vector detail e.faddr esc s
    else enterVector c e.vector vector detail e.faddr iml esc s
  programFault c e.vector pl s

/-- DETAIL of a segment fault (Table 10-5). -/
def segDetail (n : BitVec 3) (k : SegKind) (check : Nat) : Nat := n.toNat + 16 * k.code + 256 * check

def excSegment (n : BitVec 3) (k : SegKind) (off check : Nat) : Exc :=
  { vector := 1, faddr := off % 2 ^ 64, detail := segDetail n k check }
def excAlign (n : BitVec 3) (k : SegKind) (off : Nat) : Exc :=
  { vector := 2, faddr := off % 2 ^ 64, detail := segDetail n k 0 }
def excPriv (detail : Nat) : Exc := { vector := 3, detail := detail }
def excMemory (addr : Nat) (k : SegKind) (cls : Nat) : Exc :=
  { vector := 0x0C, faddr := addr, detail := 16 * k.code + 256 * cls }

/-- Deliverable asynchronous bus error (R358). -/
def abeDeliverable (k : Core) : Bool := k.exc.abePend && k.status.iml.toNat < 15

def excAbe (k : Core) : Exc := { vector := 0x0A, level := 13, faddr := k.exc.abe.addr }
def excEvent (level : Nat) : Exc := { vector := 0x10, level := level, detail := level }

/-- Level of the event that the core takes at a boundary: one that exceeds IML (R352, R378). -/
def eventDue (k : Core) : Option Nat :=
  if k.status.iml.toNat < irqLevel k then some (irqLevel k) else none

-- Return (R338, R345, R360, R361).

/-- DETAIL bit 4 of a return-privilege fault: the frame's format. -/
def frameMalformed (f : Frame) : Bool :=
  !vectorListed f.vector || bit f.fflags 7 || statusReserved f.status || bits f.status 9 8 = 3

/-- Level that a frame's STATUS restores, and its recorded levels. -/
def Frame.pl (f : Frame) : Nat := bits f.status 9 8
def Frame.origin (f : Frame) : Nat := bits f.fflags 3 2
def Frame.taken (f : Frame) : Nat := bits f.fflags 1 0

/-- Does RETX at level `pl` refuse the frame (R360)? -/
def returnRefused (f : Frame) (pl : Nat) : Bool :=
  f.pl < pl || f.pl < f.origin || f.taken != pl || frameMalformed f

/-- The Patina entry and counter of a return-privilege fault (R361). -/
def logReturnFault (c : Nat) (f : Frame) (k : Core) (s : State) : State :=
  bump 0x9063 6 0 (logEntry (0x200 + c) 1
    (leBytes 1 c ++ leBytes 4 k.pc.toNat ++ leBytes 1 k.status.pl.toNat ++ leBytes 1 f.origin ++ leBytes 1 f.taken ++
     leBytes 1 f.pl ++ leBytes 8 (k.gr 31).toNat ++ leBytes 1 f.vector) s)

/-- The core after RETX through a frame: PC, STATUS, g31, sg6 and sg7 restored, the stack pointer of the
level left written to LSPT, and the depth counters of R357 and R364. -/
def Core.popFrame (k : Core) (f : Frame) : Core :=
  let pl := k.status.pl.toNat
  let sp := (k.gr 31).toNat + 64
  let st := Status.ofNat f.status
  let st := if pl = 1 then { st with iml := k.status.iml, bprog := 0 } else st
  let leaving := pl < f.pl
  let exc := { k.exc with
    lsp0 := if leaving && pl = 0 then BitVec.ofNat 64 sp else k.exc.lsp0,
    lsp1 := if leaving && pl = 1 then BitVec.ofNat 64 sp else k.exc.lsp1,
    escDepth := if bit f.fflags 4 then k.exc.escDepth - 1 else k.exc.escDepth,
    onFs := k.exc.onFs && !decide ((k.gr 31).toNat = 960),
    fsDepth := if k.exc.onFs then k.exc.fsDepth - 1 else k.exc.fsDepth }
  let k := { k with exc := exc, status := st, pc := BitVec.ofNat 32 f.pc }
  ((k.setSeg 6 (BitVec.ofNat 128 f.sg6)).setSeg 7 (BitVec.ofNat 128 f.sg7)).setG 31 (BitVec.ofNat 64 f.g31)

/-- FS_ENTRY and FS_CODE read zero on cores 1 to 7 (Table 10-2). -/
def fsVisible (c : Nat) : Bool := hasFaultStack c

end Sys2Proof.Machine
end

