-- ==== Sys2Proof/Machine/Run.lean ====
section
/-! DEFINITION. Running one instruction: the order of an instruction boundary (R352), the fetch (R327,
R405), predication (R316), interlocks and cycles (R343), and the emulation trap (R340). -/

namespace Sys2Proof.Machine

/-- What an instruction does at its own boundary. -/
inductive Body where
  /-- complete: PC + 8 -/
  | next (s : State) (cycles : Nat)
  /-- complete, with PC set -/
  | jump (s : State) (pc : BitVec 32) (cycles : Nat)
  /-- a synchronous exception, with no effect of the instruction -/
  | exc (e : Exc) (s : State)
  /-- not complete: PC stays -/
  | hold (s : State)
  /-- complete, PC and STATUS set by the instruction itself -/
  | done (s : State) (cycles : Nat)

/-- Cycle at which an instruction that uses the registers may issue (R343): keys 0 to 31 are g, 32 to 35
the accumulators. -/
def issueCycle (k : Core) (srcs : List Nat) : Nat :=
  srcs.foldl (fun t r => Nat.max t (tget 0 k.ready r)) k.cycle

/-- Stall until the sources are ready, and settle the products that are due by then (R321). -/
def Core.issue (k : Core) (srcs : List Nat) : Core :=
  let t := issueCycle k srcs
  { (k.settle t) with cycle := t }

/-- A serialising instruction issues when every earlier instruction has completed (R343). -/
def Core.serialise (k : Core) : Core :=
  let t := k.ready.foldl (fun t e => Nat.max t e.2) k.cycle
  let t := k.muls.foldl (fun t m => Nat.max t m.ready) t
  { k.settleAll with cycle := t, ready := [] }

/-- Record that a result is ready `n` cycles after issue. -/
def Core.result (k : Core) (r n : Nat) : Core := { k with ready := tput k.ready r (k.cycle + n) }

/-- Complete an instruction: PC advances, BPROG clears (R308), cycles pass. -/
def Core.advance (k : Core) (pc : BitVec 32) (cycles : Nat) : Core :=
  { k with pc := pc, status := { k.status with bprog := 0 }, cycle := k.cycle + cycles }

/-- What the fetch at PC meets: nothing, or an exception (R327, R332, R405). -/
def fetchCheck (c : Nat) (s : State) : Option Exc × State :=
  let k := s.core c
  match segCheck k 7 .fetch k.pc.toNat 8 with
  | .fail n => (some (excSegment 7 .fetch k.pc.toNat n), s)
  | .misaligned => (some (excAlign 7 .fetch k.pc.toNat), s)
  | .ok a =>
    match coreRead c .fetch a 8 s with
    | .ok _ _ => (none, s)
    | .bad cls s => (some (excMemory a .fetch cls), s)
    | .stall s => (none, s)

/-- Apply a body's outcome. -/
def applyBody (c : Nat) : Body → State
  | .next s n => s.modCore c (fun k => k.advance (k.pc + 8) n)
  | .jump s pc n => s.modCore c (fun k => k.advance pc n)
  | .exc e s => takeExc c e s
  | .hold s => s
  | .done s n => s.modCore c (fun k => { k with cycle := k.cycle + n })

/-- The boundary (R352): a deliverable asynchronous bus error, an event above IML, then the instruction.
Only a core that runs executes. -/
def atBoundary (c : Nat) (s : State) (go : State → State) : State :=
  if (s.core c).run ≠ .running then s
  else if abeDeliverable (s.core c) then takeExc c (excAbe (s.core c)) s
  else
    match eventDue (s.core c) with
    | some l => takeExc c (excEvent l) s
    | none =>
      match fetchCheck c s with
      | (some e, s) => takeExc c e s
      | (none, s) => go s

/-- Run a predicated instruction (R316). -/
def runInsn (c : Nat) (q : Pred) (srcs : List Nat) (body : State → Body) (s : State) : State :=
  atBoundary c s (fun s =>
    if (s.core c).predOk q then applyBody c (body (s.modCore c (fun k => k.issue srcs)))
    else s.modCore c (fun k => (k.issue []).advance (k.pc + 8) 1))

/-- Run a serialising instruction (R343). -/
def runSerial (c : Nat) (q : Pred) (body : State → Body) (s : State) : State :=
  atBoundary c s (fun s =>
    if (s.core c).predOk q then applyBody c (body (s.modCore c Core.serialise))
    else s.modCore c (fun k => (k.issue []).advance (k.pc + 8) 1))

/-- The emulation trap (R340): EMU_WORD holds the word. -/
def emuTrap (c word : Nat) (s : State) : State :=
  takeExc c { vector := 7 } (s.modCore c (fun k => { k with emuWord := BitVec.ofNat 64 word }))

/-- The emulation trap of an instruction whose fields are reserved, whatever its predicate. -/
def trapWord (c : Nat) (i : Instr) (s : State) : State :=
  atBoundary c s (fun s => emuTrap c ((Ortan.encode i).getD 0) s)

/-- Write a general register. -/
def State.putG (s : State) (c : Nat) (r : BitVec 5) (v : Word) : State := s.modCore c (fun k => k.setG r v)

/-- Keys of an operand B among the sources. -/
def opndSrc : Opnd → List Nat
  | .reg r => [r.toNat]
  | .imm _ => []

end Sys2Proof.Machine
end

