-- ==== Sys2Proof/Machine/CtlRegs.lean ====
section
/-! DEFINITION. The control registers (Tables 09-3, 10-2, 10-3, 10-6, 11-5 to 11-7): which exist, at which
levels they are read and written, and what a read or a write does. -/

namespace Sys2Proof.Machine

/-- Is a control register number listed? Any other is reserved (R309). -/
def crListed (n : Nat) : Bool := n ≤ 7 || (0x10 ≤ n && n ≤ 0x1F) || (0x20 ≤ n && n ≤ 0x26)

/-- Least privileged level that reads a register; none when no level does. -/
def crReadLevel (n : Nat) : Option Nat :=
  match n with
  | 0x001 | 0x002 => some 2
  | 0x003 | 0x004 | 0x021 | 0x023 | 0x026 => some 1
  | 0x01F | 0x022 => none
  | _ => some 0

/-- Least privileged level that writes a register; none when no level does. -/
def crWriteLevel (n : Nat) : Option Nat :=
  match n with
  | 0x001 | 0x002 | 0x003 | 0x004 | 0x005 | 0x018 | 0x021 | 0x026 => none
  | 0x022 => some 1
  | _ => some 0

/-- Does a level have the access? -/
def levelOk (l : Option Nat) (pl : BitVec 2) : Bool :=
  match l with
  | some m => pl.toNat ≤ m
  | none => false

/-- CORE_ID (Table 09-3). -/
def coreId (c : Nat) : Nat := (if c = 0x50 then 0xF else if c = 0x51 then 0xE else c / 8) * 256 + c

/-- EXCST (Table 10-3). -/
def excst (k : Core) : Nat :=
  k.exc.escDepth % 256 * 2 ^ 24 + k.exc.fsDepth % 32 * 2 ^ 16 + b2n k.exc.fsLock * 8 + b2n k.exc.abePend * 4 +
  b2n k.exc.onFs * 2 + b2n (decide (k.exc.escDepth ≠ 0))

/-- ABE_INFO (Table 10-6). -/
def abeInfo (a : AbeInfo) : Nat :=
  b2n a.valid * 2 ^ 63 + a.more % 256 * 2 ^ 24 + b2n a.moreOvf * 2 ^ 23 + a.cls % 8 * 2 ^ 20 + a.rule % 4096 * 2 ^ 8 +
  a.storePl.toNat

/-- ERQ_STAT (Table 11-5). -/
def erqStat (k : Core) : Nat :=
  (k.ev.erq.filter (fun e => !e.2.claimed)).length % 1024 * 2 ^ 32 + k.ev.erq.length % 1024 * 2 ^ 16 +
  irqLevel k * 2 ^ 8 + k.ev.nextSeq % 256

/-- HOLDW (Table 11-7). -/
def holdwValue (k : Core) : Nat := b2n k.ev.holdGrant * 2 ^ 63 + b2n k.ev.holdEn * 2 ^ 8 + k.ev.holdWord.toNat

/-- ISA (Table 09-3): level 1, and the highest level supplied by emulation, OD 0x1000.05. -/
def isaValue (s : State) : Nat := 1 + s.cfg 0x1000 5 % 256 * 256

/-- The value of a readable register, and the state after the read (a read of CLAIM claims). -/
def crRead (c n : Nat) (s : State) : Nat × State :=
  let k := s.core c
  match n with
  | 0x000 => (k.status.toNat, s)
  | 0x001 => (coreId c, s)
  | 0x002 => (isaValue s, s)
  | 0x003 => (Nat.min (2 ^ 64 - 1) k.cycle, s)
  | 0x004 => (s.time % 2 ^ 64, s)
  | 0x005 => (k.emuWord.toNat, s)
  | 0x006 => (k.gateBase, s)
  | 0x007 => (k.gateCount, s)
  | 0x010 => (k.exc.vbase, s)
  | 0x011 => (k.exc.lseg0.toNat % 2 ^ 64, s)
  | 0x012 => (k.exc.lseg0.toNat / 2 ^ 64, s)
  | 0x013 => (k.exc.lsp0.toNat, s)
  | 0x014 => (k.exc.lseg1.toNat % 2 ^ 64, s)
  | 0x015 => (k.exc.lseg1.toNat / 2 ^ 64, s)
  | 0x016 => (k.exc.lsp1.toNat, s)
  | 0x017 => (excst k, s)
  | 0x018 => (k.exc.abe.addr, s)
  | 0x019 => (abeInfo k.exc.abe, s)
  | 0x01A => (if fsVisible c then k.exc.fsEntry.toNat else 0, s)
  | 0x01B => (if fsVisible c then k.exc.fsCode.toNat % 2 ^ 64 else 0, s)
  | 0x01C => (if fsVisible c then k.exc.fsCode.toNat / 2 ^ 64 else 0, s)
  | 0x01D => (k.exc.msel.toNat, s)
  | 0x01E => (k.exc.mlo.toNat, s)
  | 0x020 => (b2n k.ev.erqEn * 2 ^ 63 + k.ev.erqAddr % 2 ^ 48, s)
  | 0x021 => claimRead c s
  | 0x023 => (k.ev.tpr.toNat, s)
  | 0x024 => (holdwValue k, s)
  | 0x025 => (b2n k.ev.deep, s)
  | 0x026 => (erqStat k, s)
  | _ => (0, s)

/-- Replace the low or high half of a descriptor. -/
def setLo (d : BitVec 128) (v : Nat) : BitVec 128 := BitVec.ofNat 128 (d.toNat / 2 ^ 64 * 2 ^ 64 + v % 2 ^ 64)
def setHi (d : BitVec 128) (v : Nat) : BitVec 128 := BitVec.ofNat 128 (v % 2 ^ 64 * 2 ^ 64 + d.toNat % 2 ^ 64)

/-- A physical address field: aligned, bits 63:48 zero. -/
def addrField (align v : Nat) : Nat := v % 2 ^ 48 / align * align

def updExc (c : Nat) (f : ExcRegs → ExcRegs) (s : State) : State := s.modCore c (fun k => { k with exc := f k.exc })
def updEv (c : Nat) (f : EvRegs → EvRegs) (s : State) : State := s.modCore c (fun k => { k with ev := f k.ev })

/-- A write to ERQ_CFG: ignored while EN is 1, except one that clears EN (Table 11-5). -/
def writeErqCfg (c v : Nat) (s : State) : State :=
  updEv c (fun e =>
    if e.erqEn then (if bit v 63 then e else { e with erqEn := false })
    else { e with erqEn := bit v 63, erqAddr := addrField (16 * erqSize c) v }) s

/-- FS_ENTRY and FS_CODE are written only where they exist and FS_LOCK is clear (R346). -/
def fsWritable (c : Nat) (k : Core) : Bool := fsVisible c && !k.exc.fsLock

/-- A write to a register. -/
def crWrite (c n v : Nat) (s : State) : State :=
  match n with
  | 0x000 => s.modCore c (fun k => { k with status := k.status.written v })
  | 0x006 => s.modCore c (fun k => { k with gateBase := addrField 32 v })
  | 0x007 => s.modCore c (fun k => { k with gateCount := Nat.min 65536 v })
  | 0x010 => updExc c (fun e => { e with vbase := addrField 32 v }) s
  | 0x011 => updExc c (fun e => { e with lseg0 := setLo e.lseg0 v }) s
  | 0x012 => updExc c (fun e => { e with lseg0 := setHi e.lseg0 v }) s
  | 0x013 => updExc c (fun e => { e with lsp0 := BitVec.ofNat 64 v }) s
  | 0x014 => updExc c (fun e => { e with lseg1 := setLo e.lseg1 v }) s
  | 0x015 => updExc c (fun e => { e with lseg1 := setHi e.lseg1 v }) s
  | 0x016 => updExc c (fun e => { e with lsp1 := BitVec.ofNat 64 v }) s
  | 0x017 => updExc c (fun e => { e with fsLock := e.fsLock || bit v 3 }) s
  | 0x019 => if bit v 63 then updExc c (fun e => { e with abe := { e.abe with valid := false, more := 0, moreOvf := false } }) s else s
  | 0x01A => if fsWritable c (s.core c) then updExc c (fun e => { e with fsEntry := BitVec.ofNat 64 (v / 8 * 8) }) s else s
  | 0x01B => if fsWritable c (s.core c) then updExc c (fun e => { e with fsCode := setLo e.fsCode v }) s else s
  | 0x01C => if fsWritable c (s.core c) then updExc c (fun e => { e with fsCode := setHi e.fsCode v }) s else s
  | 0x01D => updExc c (fun e => { e with msel := BitVec.ofNat 2 v }) s
  | 0x01E => updExc c (fun e => { e with mlo := BitVec.ofNat 64 v }) s
  | 0x01F => s.modCore c (fun k => k.setM k.exc.msel.toNat (BitVec.ofNat 128 (v % 2 ^ 64 * 2 ^ 64 + k.exc.mlo.toNat)))
  | 0x020 => writeErqCfg c v s
  | 0x022 => releaseWrite c (v % 1024) s
  | 0x023 => updEv c (fun e => { e with tpr := BitVec.ofNat 4 v }) s
  | 0x024 => if bit v 8 then holdRequest c (v % 16) s else holdRelease c s
  | 0x025 => updEv c (fun e => { e with deep := v % 2 = 1 }) s
  | _ => s

/-- The body of MOVCR (R309, R336, R340): reserved numbers trap, a level without the access faults. -/
def movcrBody (c n v : Nat) (word : Nat) (s : State) : Body :=
  if !crListed n then .exc { vector := 7 } (s.modCore c (fun k => { k with emuWord := BitVec.ofNat 64 word }))
  else if !levelOk (crWriteLevel n) (s.core c).status.pl then .exc (excPriv n) s
  else .next (crWrite c n v s) 3

/-- The body of MOVRC; `f` takes the value read. -/
def movrcBody (c n : Nat) (word : Nat) (f : Nat → State → State) (s : State) : Body :=
  if !crListed n then .exc { vector := 7 } (s.modCore c (fun k => { k with emuWord := BitVec.ofNat 64 word }))
  else if !levelOk (crReadLevel n) (s.core c).status.pl then .exc (excPriv n) s
  else
    let (v, s) := crRead c n s
    .next (f v s) 3

end Sys2Proof.Machine
end

