-- ==== Sys2Proof/Machine/Sys.lean ====
section
/-! DEFINITION. System instructions (R331, R336 to R341), and the commands of chapter 10. -/

namespace Sys2Proof.Machine

/-- MOVCR of a reserved number traps whatever the predicate (R340). -/
def execMovcr (c : Nat) (q : Pred) (ra : BitVec 5) (cr : BitVec 16) (s : State) : Res :=
  if !crListed cr.toNat then .next (trapWord c (.movcr c q ra cr) s)
  else .next (runSerial c q (fun s => movcrBody c cr.toNat ((s.core c).gr ra).toNat 0 s) s)

def execMovrc (c : Nat) (q : Pred) (rd : BitVec 5) (cr : BitVec 16) (s : State) : Res :=
  if !crListed cr.toNat then .next (trapWord c (.movrc c q rd cr) s)
  else .next (runSerial c q (movrcBody c cr.toNat 0 (fun v s => s.putG c rd (BitVec.ofNat 64 v))) s)

/-- Cases of the segment-descriptor fault (R331). -/
def sgldRefused (k : Core) (target : BitVec 3) (d : BitVec 128) : Bool :=
  sgReserved d || decide (2 ^ 48 - 1 < sgBase d + sgLimit d) || target = 7 ||
  (k.status.pl = 1 && (sgLvl d = 0 || (sgV (k.seg target) && sgLvl (k.seg target) = 0)))

def execSgld (c : Nat) (q : Pred) (ra : BitVec 5) (target seg : BitVec 3) (s : State) : Res :=
  .next (runSerial c q (fun s =>
    let k := s.core c
    let off := (k.gr ra).toNat
    if k.status.pl = 2 then .exc (excPriv 0) s
    else
      match segCheck k seg .read off 16 with
      | .fail n => .exc (excSegment seg .read off n) s
      | .misaligned => .exc (excAlign seg .read off) s
      | .ok a =>
        match coreRead c .read a 16 s with
        | .ok v s =>
          let d := BitVec.ofNat 128 v
          if sgldRefused k target d then .exc { vector := 4, faddr := off % 2 ^ 64, detail := target.toNat } s
          else .next (s.modCore c (fun k => k.setSeg target d)) 6
        | .bad cls s => .exc (excMemory a .read cls) s
        | .stall s => .hold s) s)

def execSgst (c : Nat) (q : Pred) (ra : BitVec 5) (target seg : BitVec 3) (s : State) : Res :=
  .next (runSerial c q (fun s =>
    let k := s.core c
    let off := (k.gr ra).toNat
    if k.status.pl = 2 then .exc (excPriv 0) s
    else
      match segCheck k seg .write off 16 with
      | .fail n => .exc (excSegment seg .write off n) s
      | .misaligned => .exc (excAlign seg .write off) s
      | .ok a =>
        match coreStore c a 16 (k.seg target).toNat s with
        | .ok _ s => .next s 2
        | .bad cls s => .exc (excMemory a .write cls) s
        | .stall s => .hold s) s)

/-- RDST reads STATUS with BPROG as zero. -/
def execRdst (c : Nat) (q : Pred) (rd : BitVec 5) (s : State) : Res :=
  .next (runInsn c q [] (fun s =>
    .next (s.putG c rd (BitVec.ofNat 64 { (s.core c).status with bprog := 0 }.toNat)) 1) s)

def execClrsat (c : Nat) (q : Pred) (s : State) : Res :=
  .next (runInsn c q [] (fun s =>
    .next (s.modCore c (fun k => { k with status := { k.status with satf := false } })) 1) s)

/-- FENCE: the store buffer drains and its errors are reported. -/
def execFence (c : Nat) (q : Pred) (s : State) : Res :=
  .next (runInsn c q [] (fun s => .next (drainAll c s) 2) s)

/-- FENCE.ACL: at most 48 cycles after the store buffer has drained (R339); the time is a free value. -/
def execFenceAcl (c : Nat) (q : Pred) (s : State) : Res :=
  .next (runInsn c q [] (fun s =>
    let s := (drainAll c s).modCore c (fun k => { k with aclPending := false })
    .next (useFree s) (1 + freeNat 48 s)) s)

def execFenceI (c : Nat) (q : Pred) (s : State) : Res :=
  .next (runInsn c q [] (fun s => .next (drainAll c s) 8) s)

/-- WAIT enters deep sleep when DEEP is set and honoured, else light sleep (R384). -/
def waitDeep (c : Nat) (s : State) : Bool :=
  (s.core c).ev.deep && decide (c < 72) &&
  (c % 8 = 0 || !((s.chan (c / 8)).data = .inService || (s.chan (c / 8)).data = .draining))

/-- WAIT (R336, R379, R384): the core sleeps; a wake condition that already holds ends it at once. -/
def execWait (c : Nat) (q : Pred) (s : State) : Res :=
  .next (runInsn c q [] (fun s =>
    if (s.core c).status.pl = 2 then .exc (excPriv 0) s
    else if wakeCond s c then .done (leaveWait c s) 1
    else if waitDeep c s then .hold (s.modCore c (fun k => { k.settleAll with run := .deepSleep }))
    else .hold (s.modCore c (fun k => { k with run := .lightSleep }))) s)

/-- May a core be halted for debug (R408)? -/
def debugHaltable (c : Nat) (s : State) : Bool :=
  debugEnabled s && !s.life.halted &&
  (if c < 72 then (s.chan (c / 8)).data = .restTest || (s.chan (c / 8)).data = .restStandby || (s.chan (c / 8)).data = .quarantine
   else c = 0x50)

/-- BRK: a halt armed by the debug port, else vector 0x0B. -/
def execBrk (c : Nat) (q : Pred) (s : State) : Res :=
  .next (runInsn c q [] (fun s =>
    if (s.core c).armed && debugHaltable c s then
      .hold (s.modCore c (fun k => { k with run := .halted, haltedFrom := .running }))
    else .exc { vector := 0x0B } s) s)

def execUdf (c : Nat) (_word : BitVec 64) (s : State) : Res :=
  .next (atBoundary c s (fun s => takeExc c { vector := 6 } s))

def execReservedEncoding (c : Nat) (word : BitVec 64) (s : State) : Res :=
  .next (atBoundary c s (fun s => emuTrap c word.toNat s))

-- CALLS and RETX.

/-- A gate entry (Table 09-13). -/
structure Gate where
  target : Nat
  callers : Nat
  entry : Nat
  code : BitVec 128
deriving DecidableEq, Repr

def Gate.ofNat (v : Nat) : Gate :=
  let b := leBytes 32 v
  { target := leAt b 0 1, callers := leAt b 1 1, entry := leAt b 4 4, code := BitVec.ofNat 128 (leAt b 8 16) }

/-- Checks 2 to 4 of R337. -/
def gateAllows (g : Gate) (pl : Nat) : Bool :=
  g.target < pl && bit g.callers pl && sgV g.code && sgX g.code && g.target ≤ sgLvl g.code &&
  g.entry % 8 = 0 && g.entry + 7 ≤ sgLimit g.code

/-- The frame of a CALLS: PC + 8, VECTOR 0, the gate number. -/
def Core.callFrame (k : Core) (gate target : Nat) : Frame :=
  { pc := (k.pc + 8).toNat, vector := 0,
    fflags := b2n k.exc.abePend * 64 + k.status.pl.toNat * 4 + target,
    detail := gate, status := { k.status with bprog := 0 }.toNat, g31 := (k.gr 31).toNat, sg6 := (k.seg 6).toNat,
    sg7 := (k.seg 7).toNat, faddr := 0 }

/-- CALLS (R337, R362). -/
def callsBody (c : Nat) (gate : BitVec 16) (s : State) : Body :=
  let k := s.core c
  if k.status.pl = 0 then .exc (excPriv gate.toNat) s
  else if k.gateCount ≤ gate.toNat then .exc (excPriv gate.toNat) s
  else
    let s := drainAll c s
    let a := k.gateBase + 32 * gate.toNat
    match physRead c a 32 s with
    | .bad cls s => .exc (excMemory a .read cls) s
    | .stall s => .hold s
    | .ok v s =>
      let g := Gate.ofNat v
      if !gateAllows g k.status.pl.toNat then .exc (excPriv gate.toNat) s
      else
        let k := s.core c
        let (d, sp) := k.stackFor g.target
        if !stackValid d sp g.target then .exc { vector := 9, faddr := sp, detail := gate.toNat } s
        else
          match physPush c (sgBase d + sp - 64) (k.callFrame gate.toNat g.target).bytes s with
          | .bad _ s => .exc { vector := 9, faddr := sp, detail := gate.toNat } s
          | .stall s => .hold s
          | .ok _ s =>
            .jump (s.modCore c (fun k =>
              (((k.setSeg 7 g.code).setSeg 6 d).setG 31 (BitVec.ofNat 64 (sp - 64)))
              |> fun k => { k with status := { k.status with pl := BitVec.ofNat 2 g.target } }))
              (BitVec.ofNat 32 g.entry) 14

def execCalls (c : Nat) (q : Pred) (gate : BitVec 16) (s : State) : Res := .next (runInsn c q [] (callsBody c gate) s)

/-- The segment check of the 64 bytes of a frame. -/
def frameCheck (k : Core) (off : Nat) : SegRes :=
  match segCheck k 6 .read off 1 with
  | .ok a => match segCheck k 6 .read (off + 63) 1 with
    | .ok _ => if off % 8 = 0 then .ok a else .misaligned
    | r => r
  | r => r

/-- RETX (R338, R345, R360, R361). -/
def retxBody (c : Nat) (s : State) : Body :=
  let s := drainAll c s
  let k := s.core c
  let off := (k.gr 31).toNat
  if k.status.pl = 2 then .exc (excPriv 0) s
  else
    match frameCheck k off with
    | .fail n => .exc (excSegment 6 .read off n) s
    | .misaligned => .exc (excAlign 6 .read off) s
    | .ok a =>
      match physRead c a 64 s with
      | .bad cls s => .exc (excMemory a .read cls) s
      | .stall s => .hold s
      | .ok v s =>
        let f := Frame.ofNat v
        let pl := k.status.pl.toNat
        if returnRefused f pl then
          .exc { vector := 8, faddr := off,
                 detail := f.pl + 4 * f.origin + 16 * b2n (frameMalformed f) + 32 * pl } (logReturnFault c f k s)
        else .done (s.modCore c (fun k => k.popFrame f)) 12

def execRetx (c : Nat) (q : Pred) (s : State) : Res := .next (runInsn c q [] (retxBody c) s)

-- The commands of chapter 10.

/-- ASYNC_BUS_ERROR: the oldest buffered store of a core meets an error and is reported (R358). -/
def execAsyncBusError (c cls rule : Nat) (s : State) : Res :=
  match (s.core c).storeBuf with
  | [] => .next s
  | e :: q => .next (abeReport c e.addr cls rule e.pl (s.modCore c (fun k => { k with storeBuf := q })))

/-- ABE_DELIVERY: at a boundary with IML below 15. -/
def execAbeDelivery (c : Nat) (s : State) : Res :=
  if (s.core c).run = .running ∧ abeDeliverable (s.core c) then .next (takeExc c (excAbe (s.core c)) s) else .next s

/-- EVENT_ENTRY: the core takes an event above IML at an instruction boundary; a deliverable bus error goes
first (R352). -/
def execEventEntry (c : Nat) (s : State) : Res :=
  if (s.core c).run ≠ .running then .next s
  else if abeDeliverable (s.core c) then .next (takeExc c (excAbe (s.core c)) s)
  else
    match eventDue (s.core c) with
    | some l => .next (takeExc c (excEvent l) s)
    | none => .next s

/-- A control register write as the core makes it: one MOVCR. -/
def crCommand (c n v : Nat) (s : State) : State := runSerial c {} (movcrBody c n v 0) s

def execMhiWrite (c : Nat) (v : BitVec 64) (s : State) : Res := .next (crCommand c 0x1F v.toNat s)
def execFsLock (c : Nat) (s : State) : Res := .next (crCommand c 0x17 8 s)
def execAbeInfoClear (c : Nat) (s : State) : Res := .next (crCommand c 0x19 (2 ^ 63) s)

end Sys2Proof.Machine
end

