-- ==== Sys2Proof/Machine/Events.lean ====
section
/-! DEFINITION. The commands of chapter 11. -/

namespace Sys2Proof.Machine

def execEventLineRaise (n line : Nat) (s : State) : Res :=
  if lineExists line ∧ n < 9 then .next (raiseLine n line s) else .next s

/-- Positions of unclaimed records of a line, over the channel's cores. -/
def recordsOf (n line : Nat) (s : State) : List (Nat × Nat) :=
  (List.range 8).flatMap (fun i =>
    ((s.core (n * 8 + i)).ev.erq.filter (fun e => e.2.event = line && !e.2.claimed)).map (fun e => (n * 8 + i, e.1)))

/-- A LEVEL line's source falls: PEND follows it, and an unclaimed record of the line is withdrawn
(R372, R376). -/
def lineFall (n line : Nat) (s : State) : State :=
  let s := s.modIntc n (fun k =>
    { k with srcin := tset 0 k.srcin (line / 32) (clrBit (tget 0 k.srcin (line / 32)) (line % 32)) })
  if lineKind (s.intcOf n) line = 1 then
    let s := s.modIntc n (fun k => clrPend k line)
    (recordsOf n line s).foldl (fun s e => withdrawRecord e.1 e.2 s) s
  else s

def execEventLineFall (n line : Nat) (s : State) : Res :=
  if lineExists line ∧ n < 9 then .next (lineFall n line s) else .next s

def execEventPresent (n src : Nat) (s : State) : Res :=
  .next (if isReqEvent src then presentReq n src s else presentLine n src s)

def execRecordWithdraw (c pos : Nat) (s : State) : Res := .next (withdrawRecord c pos s)

/-- CLAIM: the core's read of the register; the value goes to the reader. -/
def execClaim (c : Nat) (s : State) : Res :=
  .next (runSerial c {} (movrcBody c 0x21 0 (fun v s => emit (.value v) s)) s)
def execRelease (c pos : Nat) (s : State) : Res := .next (crCommand c 0x22 pos s)
def execPendWrite (n word : Nat) (v : BitVec 32) (s : State) : Res :=
  if word < 16 ∧ n < 9 then .next (pendWrite n word v.toNat s) else .next s
def execHoldwRequest (c word : Nat) (s : State) : Res := .next (crCommand c 0x24 (256 + word % 16) s)
def execHoldwRelease (c : Nat) (s : State) : Res := .next (crCommand c 0x24 0 s)

/-- A hold that lasts 256 cycles is released and counted (R382). -/
def execHoldwLimit (c : Nat) (s : State) : Res :=
  if (s.core c).ev.holdGrant then .next (holdEnd c (bump (0x3013 + c / 8 * 256) 4 0 s)) else .next s

def execWake (c : Nat) (s : State) : Res :=
  if (s.core c).run = .lightSleep ∧ wakeCond s c then .next (leaveWait c s) else .next s

def execDeepSleepWake (c : Nat) (s : State) : Res :=
  if (s.core c).run = .deepSleep ∧ wakeCond s c then .next (leaveWait c s) else .next s

def execDeviceEventRaise (event data : Nat) (s : State) : Res :=
  if devLevel event ≠ 0 then .next (devEvent event data s) else .next s

def execDeviceEventRecord (s : State) : Res := .next (devRecord s)

end Sys2Proof.Machine
end

