-- ==== Sys2Proof/Machine/Alu.lean ====
section
/-! DEFINITION. Integer and predicate instructions (R317 to R319, Tables 09-7 to 09-9). -/

namespace Sys2Proof.Machine

/-- g[RD] = f A B, with the SATF change that f reports. -/
def aluOp (c : Nat) (q : Pred) (rd ra : BitVec 5) (b : Opnd) (f : Word → Word → Word × Bool) (s : State) : Res :=
  .next (runInsn c q (ra.toNat :: opndSrc b) (fun s =>
    let k := s.core c
    let (v, sat) := f (k.gr ra) (k.opnd b)
    .next (s.modCore c (fun k => (k.setG rd v).orSatf sat)) 1) s)

/-- The W form of an operation: on the low 32 bits, the result sign-extended (R317). -/
def wForm (w : Bool) (f64 : Word → Word → Word) (f32 : BitVec 32 → BitVec 32 → BitVec 32) (a b : Word) : Word :=
  if w then (f32 (a.setWidth 32) (b.setWidth 32)).signExtend 64 else f64 a b

/-- A function that never saturates. -/
def plain (f : Word → Word → Word) (a b : Word) : Word × Bool := (f a b, false)

/-- Signed saturating result of an exact sum or difference (R312, Table 09-7). -/
def satResult (w : Bool) (f : Int → Int → Int) (a b : Word) : Word × Bool :=
  if w then
    let x := f (a.setWidth 32).toInt (b.setWidth 32).toInt
    ((BitVec.ofInt 32 (satW 32 x)).signExtend 64, satChanged 32 x)
  else
    let x := f a.toInt b.toInt
    (BitVec.ofInt 64 (satW 64 x), satChanged 64 x)

/-- Position and length of a bit field (Table 09-7): a length of 0 is 64, reduced to 64 − position. -/
def fieldOf (b : Word) : Nat × Nat :=
  let pos := b.toNat % 64
  let len := b.toNat / 256 % 64
  (pos, Nat.min (if len = 0 then 64 else len) (64 - pos))

def extuVal (a b : Word) : Word := let (p, n) := fieldOf b; BitVec.ofNat 64 (a.toNat / 2 ^ p % 2 ^ n)

def extsVal (a b : Word) : Word :=
  let (p, n) := fieldOf b
  let v := a.toNat / 2 ^ p % 2 ^ n
  BitVec.ofInt 64 (if v < 2 ^ (n - 1) then (v : Int) else (v : Int) - 2 ^ n)

def insVal (old a b : Word) : Word :=
  let (p, n) := fieldOf b
  BitVec.ofNat 64 (old.toNat - old.toNat / 2 ^ p % 2 ^ n * 2 ^ p + a.toNat % 2 ^ n * 2 ^ p)

/-- Leading zero bits of a value of `w` bits. -/
def clzNat (w v : Nat) : Nat := if v = 0 then w else w - 1 - Nat.log2 v

/-- Set bits of a value of `w` bits. -/
def popNat (w v : Nat) : Nat := (List.range w).foldl (fun n i => n + v / 2 ^ i % 2) 0

def bswapNat (n v : Nat) : Nat := leNat (leBytes n v).reverse

def shlVal (w : Bool) : Word → Word → Word :=
  wForm w (fun a b => a <<< (b.toNat % 64)) (fun a b => a <<< (b.toNat % 32))
def shrVal (w : Bool) : Word → Word → Word :=
  wForm w (fun a b => a >>> (b.toNat % 64)) (fun a b => a >>> (b.toNat % 32))
def sarVal (w : Bool) : Word → Word → Word :=
  wForm w (fun a b => a.sshiftRight (b.toNat % 64)) (fun a b => a.sshiftRight (b.toNat % 32))
def rorVal (w : Bool) : Word → Word → Word :=
  wForm w (fun a b => a.rotateRight (b.toNat % 64)) (fun a b => a.rotateRight (b.toNat % 32))

def execAdd (c : Nat) (q : Pred) (rd ra : BitVec 5) (b : Opnd) (w : Bool) (s : State) : Res :=
  aluOp c q rd ra b (plain (wForm w (· + ·) (· + ·))) s
def execSub (c : Nat) (q : Pred) (rd ra : BitVec 5) (b : Opnd) (w : Bool) (s : State) : Res :=
  aluOp c q rd ra b (plain (wForm w (· - ·) (· - ·))) s
def execAdds (c : Nat) (q : Pred) (rd ra : BitVec 5) (b : Opnd) (w : Bool) (s : State) : Res :=
  aluOp c q rd ra b (satResult w (· + ·)) s
def execSubs (c : Nat) (q : Pred) (rd ra : BitVec 5) (b : Opnd) (w : Bool) (s : State) : Res :=
  aluOp c q rd ra b (satResult w (· - ·)) s
def execAnd (c : Nat) (q : Pred) (rd ra : BitVec 5) (b : Opnd) (s : State) : Res :=
  aluOp c q rd ra b (plain (· &&& ·)) s
def execOr (c : Nat) (q : Pred) (rd ra : BitVec 5) (b : Opnd) (s : State) : Res :=
  aluOp c q rd ra b (plain (· ||| ·)) s
def execXor (c : Nat) (q : Pred) (rd ra : BitVec 5) (b : Opnd) (s : State) : Res :=
  aluOp c q rd ra b (plain (· ^^^ ·)) s
def execAndn (c : Nat) (q : Pred) (rd ra : BitVec 5) (b : Opnd) (s : State) : Res :=
  aluOp c q rd ra b (plain (fun a b => a &&& ~~~b)) s
def execMin (c : Nat) (q : Pred) (rd ra : BitVec 5) (b : Opnd) (s : State) : Res :=
  aluOp c q rd ra b (plain (fun a b => if a.slt b then a else b)) s
def execMax (c : Nat) (q : Pred) (rd ra : BitVec 5) (b : Opnd) (s : State) : Res :=
  aluOp c q rd ra b (plain (fun a b => if a.slt b then b else a)) s
def execMinu (c : Nat) (q : Pred) (rd ra : BitVec 5) (b : Opnd) (s : State) : Res :=
  aluOp c q rd ra b (plain (fun a b => if a.ult b then a else b)) s
def execMaxu (c : Nat) (q : Pred) (rd ra : BitVec 5) (b : Opnd) (s : State) : Res :=
  aluOp c q rd ra b (plain (fun a b => if a.ult b then b else a)) s
def execShl (c : Nat) (q : Pred) (rd ra : BitVec 5) (b : Opnd) (w : Bool) (s : State) : Res :=
  aluOp c q rd ra b (plain (shlVal w)) s
def execShr (c : Nat) (q : Pred) (rd ra : BitVec 5) (b : Opnd) (w : Bool) (s : State) : Res :=
  aluOp c q rd ra b (plain (shrVal w)) s
def execSar (c : Nat) (q : Pred) (rd ra : BitVec 5) (b : Opnd) (w : Bool) (s : State) : Res :=
  aluOp c q rd ra b (plain (sarVal w)) s
def execRor (c : Nat) (q : Pred) (rd ra : BitVec 5) (b : Opnd) (w : Bool) (s : State) : Res :=
  aluOp c q rd ra b (plain (rorVal w)) s
def execExtu (c : Nat) (q : Pred) (rd ra : BitVec 5) (b : Opnd) (s : State) : Res :=
  aluOp c q rd ra b (plain extuVal) s
def execExts (c : Nat) (q : Pred) (rd ra : BitVec 5) (b : Opnd) (s : State) : Res :=
  aluOp c q rd ra b (plain extsVal) s

/-- INS reads g[RD] as well. -/
def execIns (c : Nat) (q : Pred) (rd ra : BitVec 5) (b : Opnd) (s : State) : Res :=
  .next (runInsn c q (rd.toNat :: ra.toNat :: opndSrc b) (fun s =>
    let k := s.core c
    .next (s.putG c rd (insVal (k.gr rd) (k.gr ra) (k.opnd b))) 1) s)

/-- A function of one operand; both formats give the same result. -/
def unaryOp (c : Nat) (q : Pred) (rd ra : BitVec 5) (f : Word → Word) (s : State) : Res :=
  .next (runInsn c q [ra.toNat] (fun s => .next (s.putG c rd (f ((s.core c).gr ra))) 1) s)

def execClz (c : Nat) (q : Pred) (rd ra : BitVec 5) (w _i : Bool) (s : State) : Res :=
  unaryOp c q rd ra (fun a => BitVec.ofNat 64 (if w then clzNat 32 (a.toNat % 2 ^ 32) else clzNat 64 a.toNat)) s
def execPopc (c : Nat) (q : Pred) (rd ra : BitVec 5) (w _i : Bool) (s : State) : Res :=
  unaryOp c q rd ra (fun a => BitVec.ofNat 64 (popNat (if w then 32 else 64) a.toNat)) s
def execBswap (c : Nat) (q : Pred) (rd ra : BitVec 5) (w _i : Bool) (s : State) : Res :=
  unaryOp c q rd ra (fun a =>
    if w then (BitVec.ofNat 32 (bswapNat 4 a.toNat)).signExtend 64 else BitVec.ofNat 64 (bswapNat 8 a.toNat)) s

/-- MOVI (R317). -/
def moviVal (old : Word) : MovImm → Word
  | .low v => v.signExtend 64
  | .high v => BitVec.ofNat 64 (old.toNat % 2 ^ 48 + v.toNat * 2 ^ 48)

def execMovi (c : Nat) (q : Pred) (rd : BitVec 5) (v : MovImm) (s : State) : Res :=
  .next (runInsn c q (match v with | .low _ => [] | .high _ => [rd.toNat]) (fun s =>
    .next (s.putG c rd (moviVal ((s.core c).gr rd) v)) 1) s)

/-- The condition of a CMP on 64 or, with W, 32 bits (R318). -/
def cmpVal (cond : Cond) (w : Bool) (a b : Word) : Bool :=
  if w then condHolds cond (a.setWidth 32) (b.setWidth 32) else condHolds cond a b

/-- CMP writes c to p[PD] and NOT c to p[PD2]; PD equal to PD2 and both non-zero is reserved (R318). -/
def execCmp (c : Nat) (q : Pred) (pd pd2 : BitVec 3) (ra : BitVec 5) (b : Opnd) (cond : Cond) (w : Bool)
    (s : State) : Res :=
  if pd = pd2 ∧ pd ≠ 0 then .next (trapWord c (.cmp c q pd pd2 ra b cond w) s)
  else
    .next (runInsn c q (ra.toNat :: opndSrc b) (fun s =>
      let k := s.core c
      let r := cmpVal cond w (k.gr ra) (k.opnd b)
      .next (s.modCore c (fun k => (k.setP pd r).setP pd2 (!r))) 1) s)

/-- p[PD] = f p[PA] p[PB] (Table 09-9). -/
def predOp (c : Nat) (q : Pred) (pd pa pb : BitVec 3) (f : Bool → Bool → Bool) (s : State) : Res :=
  .next (runInsn c q [] (fun s =>
    let k := s.core c
    .next (s.modCore c (fun _ => k.setP pd (f (k.pr pa) (k.pr pb)))) 1) s)

def execPand (c : Nat) (q : Pred) (pd pa pb : BitVec 3) (s : State) : Res := predOp c q pd pa pb (· && ·) s
def execPor (c : Nat) (q : Pred) (pd pa pb : BitVec 3) (s : State) : Res := predOp c q pd pa pb (· || ·) s
def execPxor (c : Nat) (q : Pred) (pd pa pb : BitVec 3) (s : State) : Res := predOp c q pd pa pb (· ^^ ·) s
def execPandn (c : Nat) (q : Pred) (pd pa pb : BitVec 3) (s : State) : Res :=
  predOp c q pd pa pb (fun a b => a && !b) s

/-- The predicates as a byte, bit 0 reading 1. -/
def Core.predByte (k : Core) : Word := (k.p ||| 1).setWidth 64

def execPget (c : Nat) (q : Pred) (rg : BitVec 5) (s : State) : Res :=
  .next (runInsn c q [] (fun s => .next (s.putG c rg (s.core c).predByte) 1) s)

def execPset (c : Nat) (q : Pred) (rg : BitVec 5) (s : State) : Res :=
  .next (runInsn c q [rg.toNat] (fun s =>
    .next (s.modCore c (fun k => { k with p := ((k.gr rg).setWidth 8) ||| 1 })) 1) s)

end Sys2Proof.Machine
end

