-- ==== Sys2Proof/Machine/Block.lean ====
section
/-! DEFINITION. Block instructions (R333 to R335). -/

namespace Sys2Proof.Machine

/-- Cut `rem` bytes at position `p` into naturally aligned accesses of at most 8 bytes, for a range at
`a` and one at `b`. -/
def blockPieces : Nat → Nat → Nat → Nat → Nat → List (Nat × Nat)
  | 0, _, _, _, _ => []
  | fuel + 1, a, b, p, rem =>
    if rem = 0 then []
    else
      let fits (s : Nat) : Bool := (a + p) % s = 0 && (b + p) % s = 0 && s ≤ rem
      let s := if fits 8 then 8 else if fits 4 then 4 else if fits 2 then 2 else 1
      (p, s) :: blockPieces fuel a b (p + s) (rem - s)

/-- Outcome of the accesses of one unit. -/
inductive UnitRes where
  | ok (same : Bool) (s : State)
  | fault (addr : Nat) (k : SegKind) (cls : Nat) (s : State)
  | stall (s : State)

/-- Accesses of a block function at one position of a unit: `src` and `dst` physical addresses. -/
inductive BlkFn where
  | copy | fill (v : Nat) | cmp
deriving DecidableEq, Repr

def blkChunk (c : Nat) (f : BlkFn) (dst src : Nat) (ps : Nat × Nat) : UnitRes → UnitRes
  | .ok same s =>
    let p := ps.1
    let n := ps.2
    match f with
    | .fill v =>
      match coreStore c (dst + p) n (leNat (List.replicate n (BitVec.ofNat 8 v))) s with
      | .ok _ s => .ok same s
      | .bad cls s => .fault (dst + p) .write cls s
      | .stall s => .stall s
    | .copy =>
      match coreRead c .read (src + p) n s with
      | .ok v s =>
        match coreStore c (dst + p) n v s with
        | .ok _ s => .ok same s
        | .bad cls s => .fault (dst + p) .write cls s
        | .stall s => .stall s
      | .bad cls s => .fault (src + p) .read cls s
      | .stall s => .stall s
    | .cmp =>
      match coreRead c .read (dst + p) n s with
      | .ok v s =>
        match coreRead c .read (src + p) n s with
        | .ok w s => .ok (same && v == w) s
        | .bad cls s => .fault (src + p) .read cls s
        | .stall s => .stall s
      | .bad cls s => .fault (dst + p) .read cls s
      | .stall s => .stall s
  | r => r

/-- One unit of at most 64 bytes. -/
def blkUnit (c : Nat) (f : BlkFn) (down : Bool) (dst src p len : Nat) (s : State) : UnitRes :=
  let cs := blockPieces 64 dst src p len
  (if down then cs.reverse else cs).foldl (fun r ps => blkChunk c f dst src ps r) (.ok true s)

/-- Outcome of the units done before a boundary: bytes completed. -/
inductive BlkRes where
  | part (bytes : Nat) (same : Bool) (s : State)
  | fault (bytes : Nat) (addr : Nat) (k : SegKind) (cls : Nat) (same : Bool) (s : State)

/-- Do up to `units` units from `bytes` completed. -/
def blkRun (c : Nat) (f : BlkFn) (down : Bool) (dst src n : Nat) : Nat → Nat → Bool → State → BlkRes
  | 0, bytes, same, s => .part bytes same s
  | units + 1, bytes, same, s =>
    if n ≤ bytes then .part bytes same s
    else
      let len := Nat.min 64 (n - bytes)
      let p := if down then n - bytes - len else bytes
      match blkUnit c f down dst src p len s with
      | .ok ok s => blkRun c f down dst src n units (bytes + len) (same && ok) s
      | .fault a k cls s => .fault bytes a k cls same s
      | .stall s => .part bytes same s

/-- The check of a whole range (R334), with s = 1 at its first and at its last offset; a range that
crosses the segment's end at a length that is no multiple of 8 is the alignment fault (log 13). -/
def rangeCheck (k : Core) (seg : BitVec 3) (kind : SegKind) (off n : Nat) : Option Exc :=
  match segCheck k seg kind off 1 with
  | .fail i => some (excSegment seg kind off i)
  | .misaligned => some (excAlign seg kind off)
  | .ok _ =>
    match segCheck k seg kind (off + n - 1) 1 with
    | .ok _ => none
    | .misaligned => some (excAlign seg kind off)
    | .fail i => if i = 4 ∧ n % 8 ≠ 0 then some (excAlign seg kind off) else some (excSegment seg kind (off + n - 1) i)

/-- Physical address of an offset whose checks passed. -/
def physOf (k : Core) (seg : BitVec 3) (off : Nat) : Nat :=
  if k.exc.onFs && seg = 6 then fsAddr + off else sgBase (k.seg seg) + off

/-- Key of a physical address, the same for the alias and the window of a channel's SRAM. -/
def overlapKey (c a : Nat) (s : State) : Nat := if fsAddr ≤ a then a else memKey (resolve s c a)

/-- Cycles of a block instruction (Table 09-16). -/
def blkCycles (sameAlign : Bool) (bytes : Nat) : Nat := 4 + (if sameAlign then (bytes + 7) / 8 else (bytes + 3) / 4)

/-- The common form: `pd` is the predicate of BCMPEQ. -/
def blkOp (c : Nat) (q : Pred) (rd ra rb : BitVec 5) (sd sa : BitVec 3) (f : Word → BlkFn) (pd : BitVec 3)
    (units : Nat) (s : State) : Res :=
  .next (runInsn c q [rd.toNat, ra.toNat, rb.toNat] (fun s =>
    let k := s.core c
    let n := (k.gr rb).toNat
    let fn := f (k.gr ra)
    let isCmp : Bool := fn = .cmp
    let isFill : Bool := match fn with | .fill _ => true | _ => false
    if n = 0 then .next (if isCmp then s.modCore c (fun k => k.setP pd true) else s) (blkCycles true 0)
    else
      let d := (k.gr rd).toNat
      let o := (k.gr ra).toNat
      match rangeCheck k sd (if isCmp then .read else .write) d n with
      | some e => .exc e s
      | none =>
      match if isFill then none else rangeCheck k sa .read o n with
      | some e => .exc e s
      | none =>
        let dst := physOf k sd d
        let src := if isFill then dst else physOf k sa o
        let dk := overlapKey c dst s
        let sk := overlapKey c src s
        let down : Bool := fn = .copy && sk < dk && dk < sk + n
        let start := k.status.bprog.toNat
        let same0 : Bool := start = 0 || k.pr pd
        match blkRun c fn down dst src n units start same0 s with
        | .fault bytes a kind cls same s =>
          let s := s.modCore c (fun k => { k with status := { k.status with bprog := BitVec.ofNat 32 bytes } })
          let s := if isCmp && decide (start < bytes) then s.modCore c (fun k => k.setP pd same) else s
          .exc (excMemory a kind cls) s
        | .part bytes same s =>
          let s := if isCmp then s.modCore c (fun k => k.setP pd same) else s
          let cyc := blkCycles (isFill || d % 8 == o % 8) (bytes - start)
          if n ≤ bytes then .next s cyc
          else .hold (s.modCore c (fun k => { k with
            status := { k.status with bprog := BitVec.ofNat 32 bytes }, cycle := k.cycle + cyc }))) s)

def execBcopy (c : Nat) (q : Pred) (rd ra rb : BitVec 5) (sd sa : BitVec 3) (units : Nat) (s : State) : Res :=
  blkOp c q rd ra rb sd sa (fun _ => .copy) 0 units s
def execBfill (c : Nat) (q : Pred) (rd ra rb : BitVec 5) (sd : BitVec 3) (units : Nat) (s : State) : Res :=
  blkOp c q rd ra rb sd 0 (fun a => .fill (a.toNat % 256)) 0 units s
def execBcmpeq (c : Nat) (q : Pred) (rd ra rb : BitVec 5) (sd sa pd : BitVec 3) (units : Nat) (s : State) : Res :=
  blkOp c q rd ra rb sd sa (fun _ => .cmp) pd units s

end Sys2Proof.Machine
end

