-- ==== Sys2Proof/Machine/Frac.lean ====
section
/-! DEFINITION. The multiplier and fractional arithmetic (R320 to R325, Tables 09-10, 09-11). -/

namespace Sys2Proof.Machine

/-- Start a multiplication: the product is read from `L` cycles after issue (R321). -/
def mulOp (c : Nat) (q : Pred) (md : BitVec 2) (ra rb : BitVec 5) (l : Nat) (f : Word → Word → BitVec 128)
    (s : State) : Res :=
  .next (runInsn c q [ra.toNat, rb.toNat] (fun s =>
    .next (s.modCore c (fun k => { k with
      muls := insertMul { m := md.toNat, product := f (k.gr ra) (k.gr rb), ready := k.cycle + l } k.muls })) 1) s)

def execMuls32 (c : Nat) (q : Pred) (md : BitVec 2) (ra rb : BitVec 5) (s : State) : Res :=
  mulOp c q md ra rb 3 (fun a b => BitVec.ofInt 128 ((a.setWidth 32).toInt * (b.setWidth 32).toInt)) s
def execMulu32 (c : Nat) (q : Pred) (md : BitVec 2) (ra rb : BitVec 5) (s : State) : Res :=
  mulOp c q md ra rb 3 (fun a b => BitVec.ofNat 128 ((a.setWidth 32).toNat * (b.setWidth 32).toNat)) s
def execMuls64 (c : Nat) (q : Pred) (md : BitVec 2) (ra rb : BitVec 5) (s : State) : Res :=
  mulOp c q md ra rb 5 (fun a b => BitVec.ofInt 128 (a.toInt * b.toInt)) s
def execMulu64 (c : Nat) (q : Pred) (md : BitVec 2) (ra rb : BitVec 5) (s : State) : Res :=
  mulOp c q md ra rb 5 (fun a b => BitVec.ofNat 128 (a.toNat * b.toNat)) s

/-- The next multiplication due completes: the core's cycles pass to the end of its latency (R321). -/
def execMulComplete (c : Nat) (s : State) : Res :=
  match (s.core c).muls with
  | [] => .next s
  | m :: _ => .next (s.modCore c (fun k =>
      { (k.settle (Nat.max k.cycle m.ready)) with cycle := Nat.max k.cycle m.ready }))

/-- A MOVM while a multiplication to its register is in flight sets EARLY_READ, and at its first setting
records the PC and level (R322). -/
def Core.noteEarly (k : Core) (ms : BitVec 2) : Core :=
  if k.muls.any (fun m => m.m = ms.toNat) && k.earlyRead.isNone then
    { k with earlyRead := some (k.pc, k.status.pl) }
  else k

def execMovml (c : Nat) (q : Pred) (rd : BitVec 5) (ms : BitVec 2) (s : State) : Res :=
  .next (runInsn c q [] (fun s =>
    .next (s.modCore c (fun k => (k.noteEarly ms).setG rd ((k.mr ms).setWidth 64))) 1) s)
def execMovmh (c : Nat) (q : Pred) (rd : BitVec 5) (ms : BitVec 2) (s : State) : Res :=
  .next (runInsn c q [] (fun s =>
    .next (s.modCore c (fun k => (k.noteEarly ms).setG rd ((k.mr ms).extractLsb' 64 64))) 1) s)

/-- P of a product function by FMT (R324). -/
def fxProduct (fmt rnd : BitVec 2) (a b : Word) : Int :=
  match fmt.toNat with
  | 0 => (a.setWidth 16).toInt * (b.setWidth 16).toInt * 2 ^ 33
  | 1 => (a.setWidth 16).toInt * (b.setWidth 32).toInt * 2 ^ 17
  | 2 => (a.setWidth 32).toInt * (b.setWidth 32).toInt * 2
  | _ => roundK (Rnd.ofBits rnd) (a.toInt * b.toInt) 63

/-- L of a product function. -/
def fxLatency (fmt : BitVec 2) : Nat := if fmt = 3 then 5 else 3

/-- RND must be zero except with FMT 3 (R324). -/
def fxFieldsOk (fmt rnd : BitVec 2) : Bool := fmt = 3 || rnd = 0

/-- a[AD] = acc(x), ready `l` cycles after issue. -/
def fxWrite (c : Nat) (ad : BitVec 2) (sat : Bool) (x : Int) (l : Nat) (s : State) : State :=
  s.modCore c (fun k => ((k.setAcc ad (accVal sat x)).orSatf (accSat sat x)).result (32 + ad.toNat) l)

/-- A product function: `f` combines the accumulator and P. -/
def fxMul (c : Nat) (q : Pred) (i : Instr) (ad : BitVec 2) (ra rb : BitVec 5) (fmt rnd : BitVec 2) (sat : Bool)
    (f : Int → Int → Int) (s : State) : Res :=
  if fxFieldsOk fmt rnd then
    .next (runInsn c q [ra.toNat, rb.toNat] (fun s =>
      let k := s.core c
      .next (fxWrite c ad sat (f (k.acc ad).toInt (fxProduct fmt rnd (k.gr ra) (k.gr rb))) (fxLatency fmt) s) 1) s)
  else .next (trapWord c i s)

def execFmac (c : Nat) (q : Pred) (ad : BitVec 2) (ra rb : BitVec 5) (fmt rnd : BitVec 2) (sat : Bool)
    (s : State) : Res :=
  fxMul c q (.fmac c q ad ra rb fmt rnd sat) ad ra rb fmt rnd sat (· + ·) s
def execFmsu (c : Nat) (q : Pred) (ad : BitVec 2) (ra rb : BitVec 5) (fmt rnd : BitVec 2) (sat : Bool)
    (s : State) : Res :=
  fxMul c q (.fmsu c q ad ra rb fmt rnd sat) ad ra rb fmt rnd sat (· - ·) s
def execFmul (c : Nat) (q : Pred) (ad : BitVec 2) (ra rb : BitVec 5) (fmt rnd : BitVec 2) (sat : Bool)
    (s : State) : Res :=
  fxMul c q (.fmul c q ad ra rb fmt rnd sat) ad ra rb fmt rnd sat (fun _ p => p) s

def execFlda (c : Nat) (q : Pred) (ad : BitVec 2) (ra : BitVec 5) (sat : Bool) (k : BitVec 6) (s : State) : Res :=
  .next (runInsn c q [ra.toNat] (fun s =>
    .next (fxWrite c ad sat (((s.core c).gr ra).toInt * 2 ^ k.toNat) 1 s) 1) s)
def execFaddg (c : Nat) (q : Pred) (ad : BitVec 2) (ra : BitVec 5) (sat : Bool) (k : BitVec 6) (s : State) : Res :=
  .next (runInsn c q [ra.toNat] (fun s =>
    .next (fxWrite c ad sat (((s.core c).acc ad).toInt + ((s.core c).gr ra).toInt * 2 ^ k.toNat) 1 s) 1) s)

/-- Result width of FEXT's format. -/
def qWidth : QFmt → Nat
  | .q15 => 16 | .q31 => 32 | .q63 => 64

/-- FEXT (Table 09-11): the saturation always applies. -/
def execFext (c : Nat) (q : Pred) (rd : BitVec 5) (ad : BitVec 2) (fmt : QFmt) (rnd : BitVec 2) (_sat : Bool)
    (k : BitVec 6) (s : State) : Res :=
  .next (runInsn c q [32 + ad.toNat] (fun s =>
    let x := roundK (Rnd.ofBits rnd) ((s.core c).acc ad).toInt k.toNat
    .next (s.modCore c (fun u =>
      ((u.setG rd (BitVec.ofInt 64 (satW (qWidth fmt) x))).orSatf (satChanged (qWidth fmt) x)).result rd.toNat 2)) 1) s)

def execFrawl (c : Nat) (q : Pred) (rd : BitVec 5) (ad : BitVec 2) (s : State) : Res :=
  .next (runInsn c q [32 + ad.toNat] (fun s =>
    .next (s.modCore c (fun u => (u.setG rd ((u.acc ad).setWidth 64)).result rd.toNat 2)) 1) s)
def execFrawh (c : Nat) (q : Pred) (rd : BitVec 5) (ad : BitVec 2) (s : State) : Res :=
  .next (runInsn c q [32 + ad.toNat] (fun s =>
    .next (s.modCore c (fun u => (u.setG rd (((u.acc ad).extractLsb' 64 8).signExtend 64)).result rd.toNat 2)) 1) s)
def execFraws (c : Nat) (q : Pred) (ad : BitVec 2) (ra rb : BitVec 5) (s : State) : Res :=
  .next (runInsn c q [ra.toNat, rb.toNat] (fun s =>
    .next (s.modCore c (fun u =>
      (u.setAcc ad (((u.gr rb).setWidth 8).append (u.gr ra))).result (32 + ad.toNat) 1)) 1) s)

end Sys2Proof.Machine
end

