-- ==== Sys2Proof/Machine/LoadStore.lean ====
section
/-! DEFINITION. Loads, stores and atomics (R327 to R330), and branches (R332). -/

namespace Sys2Proof.Machine

/-- Bytes of SIZE (R328). -/
def sizeBytes (size : BitVec 2) : Nat := 2 ^ size.toNat

/-- The value that LD writes (R328). -/
def extendLoad (n : Nat) (sx : Bool) (v : Nat) : Word :=
  if sx && decide (2 ^ (8 * n - 1) ≤ v) then BitVec.ofInt 64 ((v : Int) - 2 ^ (8 * n)) else BitVec.ofNat 64 v

/-- Cycles from issue to the use of a loaded value (Table 09-16, Table 12-5). Where the table gives only a
bound, the time is a free value within it (log 12). -/
def loadCycles (c a : Nat) (s : State) : Nat × State :=
  if fsAddr ≤ a then (4, s)
  else
    match resolve s c a with
    | .sram n _ => if c < 72 ∧ n = c / 8 then (4, s) else (1 + freeNat 48 s, useFree s)
    | .localMem _ _ => (4, s)
    | .dev _ => (1 + freeNat 16 s, useFree s)
    | .ddr _ => (1 + freeNat 3200 s, useFree s)
    | .flash _ => (s.flash.cfg % 16 + 3 + freeNat 16 s, useFree s)
    | t => if ownTarget c t then (8, s) else (1 + freeNat 48 s, useFree s)

/-- A read of ACL_EPOCH by the supervisor waits for its earlier access-table writes (R402). -/
def epochReadBack (c a : Nat) (s : State) : State :=
  if c = 0x50 ∧ a = 0x200000018 then (drainAll c s).modCore c (fun k => { k with aclPending := false }) else s

def execLd (c : Nat) (q : Pred) (rd ra : BitVec 5) (seg : BitVec 3) (size : BitVec 2) (sx : Bool)
    (disp : BitVec 32) (s : State) : Res :=
  .next (runInsn c q [ra.toNat] (fun s =>
    let k := s.core c
    let off := k.effOff ra disp
    match segCheck k seg .read off (sizeBytes size) with
    | .fail n => .exc (excSegment seg .read off n) s
    | .misaligned => .exc (excAlign seg .read off) s
    | .ok a =>
      match coreRead c .read a (sizeBytes size) (epochReadBack c a s) with
      | .ok v s =>
        let (lat, s) := loadCycles c a s
        .next (s.modCore c (fun k => (k.setG rd (extendLoad (sizeBytes size) sx v)).result rd.toNat lat)) 1
      | .bad cls s => .exc (excMemory a .read cls) s
      | .stall s => .hold s) s)

def execSt (c : Nat) (q : Pred) (rd ra : BitVec 5) (seg : BitVec 3) (size : BitVec 2) (disp : BitVec 32)
    (s : State) : Res :=
  .next (runInsn c q [ra.toNat, rd.toNat] (fun s =>
    let k := s.core c
    let off := k.effOff ra disp
    match segCheck k seg .write off (sizeBytes size) with
    | .fail n => .exc (excSegment seg .write off n) s
    | .misaligned => .exc (excAlign seg .write off) s
    | .ok a =>
      match coreStore c a (sizeBytes size) ((k.gr rd).toNat % 2 ^ (8 * sizeBytes size)) s with
      | .ok _ s => .next s 1
      | .bad cls s => .exc (excMemory a .write cls) s
      | .stall s => .hold s) s)

/-- ATOM (R329): `f` gives the new value from the old one and g[RD]. -/
def atomOp (c : Nat) (q : Pred) (rd ra : BitVec 5) (seg : BitVec 3) (dword : Bool) (disp : BitVec 32)
    (f : Nat → Nat → Nat) (s : State) : Res :=
  .next (runInsn c q [ra.toNat, rd.toNat] (fun s =>
    let k := s.core c
    let n := if dword then 8 else 4
    let off := k.effOff ra disp
    match segCheck k seg .atomic off n with
    | .fail i => .exc (excSegment seg .atomic off i) s
    | .misaligned => .exc (excAlign seg .atomic off) s
    | .ok a =>
      if fsAddr ≤ a ∨ !atomTarget c (resolve s c a) then
        .exc { vector := 5, faddr := off % 2 ^ 64, detail := seg.toNat } s
      else
        let s := drainAll c s
        match coreRead c .atomic a n s with
        | .ok old s =>
          match storeAt c a n (f old ((k.gr rd).toNat % 2 ^ (8 * n)) % 2 ^ (8 * n)) s with
          | .ok _ s => .next (s.modCore c (fun k => (k.setG rd (BitVec.ofNat 64 old)).result rd.toNat 6)) 6
          | .bad cls s => .exc (excMemory a .atomic cls) s
          | .stall s => .hold s
        | .bad cls s => .exc (excMemory a .atomic cls) s
        | .stall s => .hold s) s)

def execXchg (c : Nat) (q : Pred) (rd ra : BitVec 5) (seg : BitVec 3) (dword : Bool) (disp : BitVec 32)
    (s : State) : Res :=
  atomOp c q rd ra seg dword disp (fun _ v => v) s
def execFadd (c : Nat) (q : Pred) (rd ra : BitVec 5) (seg : BitVec 3) (dword : Bool) (disp : BitVec 32)
    (s : State) : Res :=
  atomOp c q rd ra seg dword disp (fun old v => old + v) s

/-- PC + 8 × DISP32 (R332). -/
def branchTarget (pc disp : BitVec 32) : BitVec 32 := pc + disp * 8

def execBr (c : Nat) (q : Pred) (disp : BitVec 32) (s : State) : Res :=
  .next (runInsn c q [] (fun s => .jump s (branchTarget (s.core c).pc disp) 2) s)

def execBrl (c : Nat) (q : Pred) (rl : BitVec 5) (disp : BitVec 32) (s : State) : Res :=
  .next (runInsn c q [] (fun s =>
    let k := s.core c
    .jump (s.putG c rl ((k.pc + 8).setWidth 64)) (branchTarget k.pc disp) 2) s)

/-- JR: a target that is not a multiple of 8 raises the alignment fault and changes neither PC nor
g[RL]. -/
def execJr (c : Nat) (q : Pred) (rl ra : BitVec 5) (s : State) : Res :=
  .next (runInsn c q [ra.toNat] (fun s =>
    let k := s.core c
    let t := k.gr ra
    if t.toNat % 8 ≠ 0 then .exc (excAlign 7 .fetch t.toNat) s
    else .jump (s.putG c rl ((k.pc + 8).setWidth 64)) (t.setWidth 32) 3) s)

end Sys2Proof.Machine
end

