-- ==== Sys2Proof/Machine/Isa.lean ====
section
/-! DEFINITION. One instruction of a core as the debug port's STEP executes it: the word at PC, decoded,
through the meaning of its own command (R407). -/

namespace Sys2Proof.Machine

/-- The meaning of an Ortan instruction; no other command is one. -/
def isaRun (i : Instr) (s : State) : Res :=
  match i with
  | .add c q rd ra b w => execAdd c q rd ra b w s
  | .sub c q rd ra b w => execSub c q rd ra b w s
  | .adds c q rd ra b w => execAdds c q rd ra b w s
  | .subs c q rd ra b w => execSubs c q rd ra b w s
  | .and c q rd ra b => execAnd c q rd ra b s
  | .or c q rd ra b => execOr c q rd ra b s
  | .xor c q rd ra b => execXor c q rd ra b s
  | .andn c q rd ra b => execAndn c q rd ra b s
  | .min c q rd ra b => execMin c q rd ra b s
  | .max c q rd ra b => execMax c q rd ra b s
  | .minu c q rd ra b => execMinu c q rd ra b s
  | .maxu c q rd ra b => execMaxu c q rd ra b s
  | .shl c q rd ra b w => execShl c q rd ra b w s
  | .shr c q rd ra b w => execShr c q rd ra b w s
  | .sar c q rd ra b w => execSar c q rd ra b w s
  | .ror c q rd ra b w => execRor c q rd ra b w s
  | .extu c q rd ra b => execExtu c q rd ra b s
  | .exts c q rd ra b => execExts c q rd ra b s
  | .ins c q rd ra b => execIns c q rd ra b s
  | .clz c q rd ra w i => execClz c q rd ra w i s
  | .popc c q rd ra w i => execPopc c q rd ra w i s
  | .bswap c q rd ra w i => execBswap c q rd ra w i s
  | .movi c q rd v => execMovi c q rd v s
  | .cmp c q pd pd2 ra b cond w => execCmp c q pd pd2 ra b cond w s
  | .pand c q pd pa pb => execPand c q pd pa pb s
  | .por c q pd pa pb => execPor c q pd pa pb s
  | .pxor c q pd pa pb => execPxor c q pd pa pb s
  | .pandn c q pd pa pb => execPandn c q pd pa pb s
  | .pget c q rg => execPget c q rg s
  | .pset c q rg => execPset c q rg s
  | .muls32 c q md ra rb => execMuls32 c q md ra rb s
  | .mulu32 c q md ra rb => execMulu32 c q md ra rb s
  | .muls64 c q md ra rb => execMuls64 c q md ra rb s
  | .mulu64 c q md ra rb => execMulu64 c q md ra rb s
  | .movml c q rd ms => execMovml c q rd ms s
  | .movmh c q rd ms => execMovmh c q rd ms s
  | .ld c q rd ra seg size sx disp => execLd c q rd ra seg size sx disp s
  | .st c q rd ra seg size disp => execSt c q rd ra seg size disp s
  | .xchg c q rd ra seg dw disp => execXchg c q rd ra seg dw disp s
  | .fadd c q rd ra seg dw disp => execFadd c q rd ra seg dw disp s
  | .br c q disp => execBr c q disp s
  | .brl c q rl disp => execBrl c q rl disp s
  | .jr c q rl ra => execJr c q rl ra s
  | .fmac c q ad ra rb fmt rnd sat => execFmac c q ad ra rb fmt rnd sat s
  | .fmsu c q ad ra rb fmt rnd sat => execFmsu c q ad ra rb fmt rnd sat s
  | .fmul c q ad ra rb fmt rnd sat => execFmul c q ad ra rb fmt rnd sat s
  | .flda c q ad ra sat k => execFlda c q ad ra sat k s
  | .faddg c q ad ra sat k => execFaddg c q ad ra sat k s
  | .fext c q rd ad fmt rnd sat k => execFext c q rd ad fmt rnd sat k s
  | .frawl c q rd ad => execFrawl c q rd ad s
  | .frawh c q rd ad => execFrawh c q rd ad s
  | .fraws c q ad ra rb => execFraws c q ad ra rb s
  | .bcopy c q rd ra rb sd sa u => execBcopy c q rd ra rb sd sa u s
  | .bfill c q rd ra rb sd u => execBfill c q rd ra rb sd u s
  | .bcmpeq c q rd ra rb sd sa pd u => execBcmpeq c q rd ra rb sd sa pd u s
  | .calls c q g => execCalls c q g s
  | .retx c q => execRetx c q s
  | .fence c q => execFence c q s
  | .fenceAcl c q => execFenceAcl c q s
  | .fenceI c q => execFenceI c q s
  | .movcr c q ra cr => execMovcr c q ra cr s
  | .movrc c q rd cr => execMovrc c q rd cr s
  | .sgld c q ra t g => execSgld c q ra t g s
  | .sgst c q ra t g => execSgst c q ra t g s
  | .rdst c q rd => execRdst c q rd s
  | .clrsat c q => execClrsat c q s
  | .wait c q => execWait c q s
  | .brk c q => execBrk c q s
  | .udf c w => execUdf c w s
  | .reservedEncoding c w => execReservedEncoding c w s
  | _ => .next s

/-- The word at PC; where the fetch fails, any instruction meets that failure at its boundary, and the
no-operation stands for it. -/
def wordAtPc (c : Nat) (s : State) : BitVec 64 :=
  match segCheck (s.core c) 7 .fetch (s.core c).pc.toNat 8 with
  | .ok a =>
    match coreRead c .fetch a 8 s with
    | .ok v _ => BitVec.ofNat 64 v
    | _ => 0x0040000000000000
  | _ => 0x0040000000000000

/-- Execute one instruction on a halted core; it halts again unless it locked up. -/
def stepCore (c : Nat) (s : State) : Res :=
  match isaRun (Ortan.decode c (wordAtPc c s)) (s.modCore c (fun k => { k with run := .running })) with
  | .next s =>
    .next (s.modCore c (fun k =>
      if k.run = .lockedUp then k
      else { k with run := .halted, haltedFrom := if k.run = .halted then .running else k.run }))
  | r => r

end Sys2Proof.Machine
end

