-- ==== Sys2Proof/Machine/AclDbg.lean ====
section
/-! DEFINITION. The commands of chapter 12: the access table, the memory protection engine, the patrol
scrubs, the debug protocol, and the test access port (19_balls_power_and_electrical.md R626). -/

namespace Sys2Proof.Machine

def execAclCheck (s : State) : Res := .next (aclStartCheck s)
def execAclCheckComplete (s : State) : Res := .next (aclEndCheck s)
def execAclCommit (s : State) : Res := .next (aclDoCommit s)
def execAclShadowWrite (off size value : Nat) (s : State) : Res := .next (aclShadowPut off size value s)

/-- A read of ACL_EPOCH by the supervisor (R402). -/
def execAclEpoch (s : State) : Res :=
  let s := epochReadBack 0x50 0x200000018 s
  .next (emit (.value s.acl.epoch) s)

def execAclVpop (s : State) : Res := .next (aclPopViolation s)

-- The memory protection engine and error correction.

/-- Is a unit one of counter lines? -/
def counterUnit (start size : Nat) : Bool := (size = 4096 || size = 262144 || size = 16777216) && start % size = 0

/-- Does a poisoned unit strictly contain another? -/
def parentFails (start size : Nat) (s : State) : Bool :=
  s.mpe.poison.any (fun p => size < p.size && p.start ≤ start && start + size ≤ p.start + p.size)

/-- MPE_ZERO starts on a poisoned counter-line unit whose parent is intact (R413); any other is refused. -/
def execMpeZero (start size : Nat) (s : State) : Res :=
  if counterUnit start size && s.mpe.poison.any (fun p => p.start = start && p.size = size) &&
      !parentFails start size s && !s.mpe.zeroing.contains (start, size) then
    .next { s with mpe := { s.mpe with zeroing := s.mpe.zeroing ++ [(start, size)] } }
  else .next s

/-- The unit reads as zero, and its poison is cleared (R413). -/
def zeroUnit (start size : Nat) (s : State) : State :=
  let lo := 0x1000000000 + start
  { s with
    mem := s.mem.filter (fun e => !(lo ≤ e.1 && e.1 < lo + size))
    ecc := s.ecc.filter (fun e => !(lo ≤ e.1 && e.1 < lo + size))
    mpe := { s.mpe with
      minor := s.mpe.minor.filter (fun e => !(start ≤ e.1 * 64 && e.1 * 64 < start + size))
      major := s.mpe.major.map (fun e => if start ≤ e.1 * 4096 ∧ e.1 * 4096 < start + size then (e.1, e.2 + 1) else e)
      poison := s.mpe.poison.filter (fun p => !(start ≤ p.start && p.start + p.size ≤ start + size)) } }

def execMpeZeroComplete (s : State) : Res :=
  match s.mpe.zeroing with
  | [] => .next s
  | (a, n) :: t => .next (zeroUnit a n { s with mpe := { s.mpe with zeroing := t } })

def execReencryptionComplete (group : Nat) (s : State) : Res :=
  .next { s with mpe := { s.mpe with reencrypting := s.mpe.reencrypting.filter (fun g => !(g == group)) } }

/-- A corrected word of channel SRAM (R416, R418). -/
def sramCorrected (n : Nat) (s : State) : State :=
  let (s, lasting) := countFault 1 n 0 (bump 0x9065 6 0 (raiseLine n 0x2B s))
  if lasting then quarantineChannel n s else s

/-- An uncorrectable word of channel SRAM (R416, R418). -/
def sramUncorrectable (n word : Nat) (s : State) : State :=
  let s := { s with ecc := tset 0 s.ecc (memKey (.sram n (8 * word))) 4 }
  let (s, lasting) := countFault 2 n 0 (bump 0x9065 8 0 (raiseLine n 0x2C s))
  if lasting then quarantineChannel n s else s

/-- The patrol scrub reads channel SRAM while the channel is IN_SERVICE. -/
def execSramPatrolScrub (n word : Nat) (f : EccFinding) (s : State) : Res :=
  if (s.chan n).data = .inService ∧ n < 9 ∧ word < 524288 then
    match f with
    | .clean => .next s
    | .corrected => .next (sramCorrected n s)
    | .uncorrectable => .next (sramUncorrectable n word s)
  else .next s

/-- DDR controller and 256 KiB unit of a protected DDR offset (R392). -/
def ddrController (off : Nat) : Nat := off / 4096 % 8
def ddrUnit (off : Nat) : Nat := ddrController off * 2 ^ 20 + (4096 * (off / 32768) + off % 4096) / 262144

/-- REMAP (R418): the unit goes to a spare unit of its controller; with none left, response L2. -/
def remapUnit (unit : Nat) (s : State) : State :=
  let k := unit / 2 ^ 20
  let used := tget 0 s.ddr.spareUsed k
  if used < ddrSpares s then
    { s with
      ddr := { s.ddr with spareUsed := tset 0 s.ddr.spareUsed k (used + 1), remap := tput s.ddr.remap unit used,
                          copying := s.ddr.copying ++ [unit] } }
  else raiseLasting 3 2 s

/-- A corrected burst (R417, R418): the raise of a lasting fault carries L2 when no spare is left. -/
def ddrCorrected (off : Nat) (s : State) : State :=
  let (s, lasting) := countFault 3 (ddrUnit off) 0 (bump 0x9065 7 0 s)
  if lasting then remapUnit (ddrUnit off) s else s

/-- An uncorrectable burst: the line is poisoned (Table 12-15), and counted (R419, source 0x04). -/
def ddrUncorrectable (off : Nat) (s : State) : State :=
  let s := addPoison { start := off / 64 * 64, size := 64, cls := 4 } s
  (countFault 4 (ddrController off) 2 (bump 0x9065 9 0 s)).1

def execDdrPatrolScrub (line : Nat) (f : EccFinding) (s : State) : Res :=
  if 64 * line < ddrUsable s then
    match f with
    | .clean => .next s
    | .corrected => .next (ddrCorrected (64 * line) s)
    | .uncorrectable => .next (ddrUncorrectable (64 * line) s)
  else .next s

def execRemapCopyComplete (unit : Nat) (s : State) : Res :=
  .next { s with ddr := { s.ddr with copying := s.ddr.copying.filter (fun u => !(u == unit)) } }

-- The debug protocol (R406 to R408).

/-- Shift a request into DBGREQ (R407). -/
def dbgRequest (op size target addr data : Nat) (s : State) : State :=
  { s with dbg := { s.dbg with
    req := BitVec.ofNat 136 (op % 256 + size % 256 * 2 ^ 8 + target % 256 * 2 ^ 16 + addr % 2 ^ 48 * 2 ^ 24 + data % 2 ^ 64 * 2 ^ 72) } }

/-- The result in DBGRSP. -/
def dbgAnswer (status data : Nat) (s : State) : State :=
  emit (.dbg status data) { s with dbg := { s.dbg with rsp := BitVec.ofNat 80 (status % 256 + data % 2 ^ 64 * 2 ^ 16) } }

/-- Is a sealed refusal still on its way to the buffer (R406)? -/
def dbgBusy (s : State) : Bool := s.pat.queue.any (fun e => e.source = 0x300)

/-- An operation of the protocol: busy, not permitted in the lifecycle state, or its own effect. -/
def dbgOp (permitted : Bool) (go : State → State) (s : State) : Res :=
  if dbgBusy s then .next (dbgAnswer 1 0 s)
  else if s.life.halted || !permitted then .next (dbgAnswer 4 0 s)
  else .next (go s)

/-- A refused debug access (R404, R406): sealed regions write a Patina entry. -/
def dbgRefused (k : AccKind) (a : Nat) (v : Viol) (s : State) : State :=
  let s := logViolation 0x7E k a v s
  if v.sealed then
    dbgAnswer 3 0 (bump 0x9066 5 0 (logEntry 0x300 1
      (leBytes 6 a ++ leBytes 1 (b2n (k = .debugWrite)) ++ leBytes 2 v.rule) s))
  else dbgAnswer 2 0 s

/-- Sizes of a debug access. -/
def dbgSizeOk (size : Nat) : Bool := size = 1 || size = 2 || size = 4 || size = 8

def dbgMemRd (size addr : Nat) (s : State) : State :=
  if !dbgSizeOk size then dbgAnswer 6 0 s
  else
    match accessVerdict s 0x7E .debugRead addr size with
    | some v => dbgRefused .debugRead addr v s
    | none =>
      let t := resolve s 0x7E addr
      if isReg t then
        match regRead t size s with
        | .val v s => dbgAnswer 0 v s
        | .err => dbgAnswer 6 0 s
        | .ecc s => dbgAnswer 6 0 s
      else
        match readError s t size with
        | some _ => dbgAnswer 6 0 s
        | none => dbgAnswer 0 (leNat (s.memRead (memKey t) size)) s

def dbgMemWr (size addr data : Nat) (s : State) : State :=
  if !dbgSizeOk size then dbgAnswer 6 0 s
  else
    match accessVerdict s 0x7E .debugWrite addr size with
    | some v => dbgRefused .debugWrite addr v s
    | none =>
      let t := resolve s 0x7E addr
      if isReg t then
        match regWrite 0x7E t size data s with
        | .done s => dbgAnswer 0 0 s
        | .stall s => dbgAnswer 6 0 s
        | .err => dbgAnswer 6 0 s
      else
        match readError s t size with
        | some _ => dbgAnswer 6 0 s
        | none => dbgAnswer 0 0 (putTarget t (leBytes size data) s)

/-- MEM_RD; in BOOT_HALT the port answers it for the boot record alone (R541). -/
def execMemRd (size addr : Nat) (s : State) : Res :=
  let s := dbgRequest 0x01 size 0 addr 0 s
  if s.life.halted ∧ 0x30000000 ≤ addr ∧ addr + size ≤ 0x30000040 ∧ dbgSizeOk size then
    .next (dbgAnswer 0 (leAt s.life.bootRecord (addr - 0x30000000) size) s)
  else dbgOp (debugEnabled s) (dbgMemRd size addr) s

def execMemWr (size addr data : Nat) (s : State) : Res :=
  dbgOp (debugEnabled s) (dbgMemWr size addr data) (dbgRequest 0x02 size 0 addr data s)

/-- Can the core be halted at a boundary: it runs or sleeps? -/
def canHalt (k : Core) : Bool := k.run = .running || k.run = .lightSleep || k.run = .deepSleep

def execHalt (target : Nat) (s : State) : Res :=
  dbgOp (debugHaltable target s && canHalt (s.core target)) (fun s =>
    dbgAnswer 0 0 (s.modCore target (fun k => { k with run := .halted, haltedFrom := k.run })))
    (dbgRequest 0x10 0 target 0 0 s)

def execDebugResume (target : Nat) (s : State) : Res :=
  dbgOp (debugEnabled s) (fun s =>
    if (s.core target).run = .halted then
      dbgAnswer 0 0 (s.modCore target (fun k => { k with run := k.haltedFrom }))
    else dbgAnswer 5 0 s) (dbgRequest 0x11 0 target 0 0 s)

def execStep (target : Nat) (s : State) : Res :=
  dbgOp (debugEnabled s) (fun s =>
    if (s.core target).run = .halted then
      match stepCore target s with
      | .next s => dbgAnswer 0 0 s
      | _ => dbgAnswer 6 0 s
    else dbgAnswer 5 0 s) (dbgRequest 0x12 0 target 0 0 s)

/-- The value of a named register. -/
def dbgRegValue (c : Nat) (r : DbgReg) (s : State) : Nat :=
  let k := s.core c
  match r with
  | .g n => (k.gr n).toNat
  | .p => k.predByte.toNat
  | .a n hi => if hi then (k.acc n).toNat / 2 ^ 64 else (k.acc n).toNat % 2 ^ 64
  | .m n hi => if hi then (k.mr n).toNat / 2 ^ 64 else (k.mr n).toNat % 2 ^ 64
  | .sg n hi => if hi then (k.seg n).toNat / 2 ^ 64 else (k.seg n).toNat % 2 ^ 64
  | .pc => k.pc.toNat
  | .status => k.status.toNat
  | .cr n => if n = 0x21 then b2n ((bestRecord k.ev.erq).isSome) else (crRead c n s).1
  | .fsWord n => leNat (memBytes k.exc.faultStack (8 * (n % 128)) 8)

/-- REG_RD; the numbers that name registers in ADDR are not in the spec, so DBGREQ's are free (log 14). -/
def execRegRd (target : Nat) (reg : DbgReg) (s : State) : Res :=
  dbgOp (debugEnabled s) (fun s =>
    if (s.core target).run = .halted ∨ (s.core target).run = .lockedUp then dbgAnswer 0 (dbgRegValue target reg s) s
    else dbgAnswer 5 0 s) (useFree (dbgRequest 0x13 0 target (freeNat 256 s) 0 s))

def execArmBrk (target : Nat) (s : State) : Res :=
  dbgOp (debugHaltable target s) (fun s => dbgAnswer 0 0 (s.modCore target (fun k => { k with armed := true })))
    (dbgRequest 0x14 0 target 0 0 s)

/-- DSTAT_RD answers in every lifecycle state in which the port answers, and clears what it read (R322,
R536). Its layout in DATA is the model's (log 14). -/
def execDstatRd (target : Nat) (s : State) : Res :=
  dbgOp true (fun s =>
    let k := s.core target
    let v := match k.earlyRead with
      | some (pc, pl) => 2 ^ 63 + pl.toNat * 2 ^ 32 + pc.toNat
      | none => 0
    dbgAnswer 0 v (s.modCore target (fun k => { k with earlyRead := none }))) (dbgRequest 0x20 0 target 0 0 s)

-- The test access port.

/-- Select a TAP instruction: its data register and whether it drives balls. -/
def tapSelect (ir reg : Nat) (drives : Bool) (s : State) : State :=
  emit (.tap reg drives) { s with pins := { s.pins with tapIr := ir } }

/-- EXTEST, CLAMP and HIGHZ act as BYPASS while SYS_RST_N is high (R626). -/
def tapDriven (ir reg : Nat) (s : State) : State :=
  if s.pins.sysRst then tapSelect ir reg true s else tapSelect 0xF 1 false s

def execExtest (s : State) : Res := .next (tapDriven 0x0 2 s)
def execIdcode (s : State) : Res := .next (emit (.value 0x19640E1D) (tapSelect 0x1 0 false s))
def execSamplePreload (s : State) : Res := .next (tapSelect 0x2 2 false s)
def execClamp (s : State) : Res := .next (tapDriven 0x3 1 s)
def execHighz (s : State) : Res := .next (tapDriven 0x4 1 s)
def execBypass (s : State) : Res := .next (tapSelect 0xF 1 false s)

/-- A TAP reset selects IDCODE. -/
def execTapReset (s : State) : Res := .next { s with pins := { s.pins with tapIr := 0x1 } }

end Sys2Proof.Machine
end

