-- ==== Sys2Proof/Machine/Boot.lean ====
section
/-! DEFINITION. Reset and loss of main power (19, R611 to R614; 16, R524), the boot steps with their failure exits (16,
R538 to R542, R550) and what a power-up restores (08, R299; 13, R447; 15, R499 to R501, R515). -/

namespace Sys2Proof.Machine

-- What a reset takes away.

/-- A PROGRAM or ERASE that loses power leaves its page or block with unspecified content (R524). -/
def flashStop (s : State) : State :=
  match s.flash.running with
  | some (1, p, _) =>
    let data := freeBytes 256 s
    let s := useFree s
    let s := s.modFlash (fun f => f.putPage p data)
    (List.range 4).foldl (fun s i =>
      let c := freeNat 26 s
      (useFree s).modFlash (fun f => { f with units := tset 0 f.units (p * 4 + i) (if c = 25 then 60 else c) })) s
  | some (2, b, _) => s.modFlash (fun f => f.modBlock b (fun k => { k with unspecified := true }))
  | _ =>
    if s.flash.suspended then s.modFlash (fun f => f.modBlock s.flash.sblock (fun k => { k with unspecified := true })) else s

/-- The flash array keeps its content; the controller starts from its reset values. -/
def Flash.restart (f : Flash) : Flash :=
  { units := f.units, pages := f.pages, blocks := f.blocks.map (fun e => (e.1, { e.2 with locked := false })), map := f.map,
    spares := f.spares, retired := f.retired }

/-- The battery domain, the fuses, flash, the anchor and the host's image buffers outlive the reset; all else is at its
reset value (R295, R414, R506, R612). `keepLog`: entries in transit are written before a reset that the part makes
itself. -/
def lost (keepLog : Bool) (s : State) : State :=
  let acting := s.alarms.filter (fun e => e.2.state = .active && sampled s e.1)
  let batt := { s.batt with reporting := acting.map (fun e => e.1), rtc := rtcNow s, rtcAt := s.time, failRtc := rtcNow s }
  { pending := s.pending, time := s.time, free := s.free, out := s.out, pins := s.pins, alarms := s.alarms, batt := batt
    od := s.od, odb := s.odb, flash := s.flash.restart
    pcie := { perst := s.pcie.perst, training := !s.pcie.perst }
    arm := { baseR := s.arm.baseR, baseC := s.arm.baseC, trained := s.arm.trained }
    pat := { s.pat with queue := if keepLog then s.pat.queue else [], suppressed := [], readCps := [] }
    health := { charge := s.health.charge }
    life := { s.life with unlocked := false, halted := false, step := 0, wait := .no, fwRestart := false, olds := [] }
    ks := { w0 := s.ks.w0, w1 := s.ks.w1, w2 := s.ks.w2, w3 := s.ks.w3, mkid := s.ks.mkid, mkgen := s.ks.mkgen,
            rollover := s.ks.rollover, zeroized := s.ks.zeroized, anchor := s.ks.anchor, nextBuffer := s.ks.nextBuffer,
            bufferA := s.ks.bufferA, bufferB := s.ks.bufferB }
    svc := { images := s.svc.images, bindings := s.svc.bindings, disabled := s.svc.disabled, models := s.svc.models }
    mgmt := { nextTxn := s.mgmt.nextTxn, nextDomain := s.mgmt.nextDomain, storeA := s.mgmt.storeA, storeB := s.mgmt.storeB }
    frz := { ownAlarm := s.frz.ownAlarm, topoSeq := s.frz.topoSeq }
    cards := { rosterM := s.cards.rosterM, roster := s.cards.roster, cer := s.cards.cer, cnum := s.cards.cnum } }

/-- The part is held in reset, until its release; ALM_N low, or released on the backup cell (R496). -/
def holdReset (power keepLog : Bool) (s : State) : State :=
  let s := lost keepLog (flashStop (endCer 7 s))
  { s with
    batt := { s.batt with mainPower := power }
    pins := { s.pins with held := true, almForced := true, alm0 := power, alm1 := power, coreLock := false, tapIr := if power then s.pins.tapIr else 1 } }

/-- MAIN_POWER_FAIL (R614): no alarm and no entry. -/
def execMainPowerFail (s : State) : Res := .next (if s.batt.mainPower then holdReset false false s else s)

/-- SYS_RST_ASSERT: a low pulse of `ns` on SYS_RST_N; from 1 to 10 µs the part may ignore it (R612). -/
def execSysRstAssert (ns : Nat) (s : State) : Res :=
  .next (
    let s := { s with pins := { s.pins with sysRst := true } }
    if !s.batt.mainPower || s.pins.held then s
    else if 10000 ≤ ns then holdReset true false s
    else if ns < 1000 || freeNat 2 s = 0 then { (if ns < 1000 then s else useFree s) with pins := { s.pins with sysRst := false } }
    else holdReset true false (useFree s))

-- Exits.

/-- BOOT_HALT (R541). -/
def bootHalt (result : Nat) (s : State) : State :=
  let s := s.modLife (fun l => { l with halted := true, wait := if result = 0x0302 then .sdCard else .no })
  bootExit result { s with pins := { s.pins with almForced := true, alm0 := true, alm1 := true } }

/-- The TRIAL bank fails its boot: the trial ends as a reversion, and the part resets into the confirmed bank (R550). -/
def trialFails (s : State) : State :=
  let s := beginRevert (bootExit 0x0303 s)
  holdReset true true (s.modLife (fun l => { l with act := 0, trialBooted := false, trialFailed := true }))

/-- A failure that halts boot, unless it belongs to a trial. -/
def linkFails (result : Nat) (s : State) : State :=
  let s := raiseAlarm 0x17 [] s
  if inTrial s then trialFails s else bootHalt result s

-- Step 1.

/-- The ROM blows the third bit of any triplet that has exactly two (R532). -/
def blowThird (n : Nat) : Nat := if n = 2 then 3 else n

def loadFuses (s : State) : State :=
  s.modLife (fun l => { l with fuses := { l.fuses with
    shipped := blowThird l.fuses.shipped, decommissioned := blowThird l.fuses.decommissioned, reinit := l.fuses.reinit.map blowThird } })

/-- The lifecycle as the fuses and the register give it (R534). -/
def loadLife (s : State) : State :=
  if 2 ≤ s.life.fuses.decommissioned then s.modLife (fun l => { l with state := .decommissioned })
  else if s.life.fuses.shipped < 2 then s.modLife (fun l => { l with state := .manufacture })
  else s

/-- Zeroization found at power-up, with its lifecycle entry. -/
def zeroizedAt (cause : Nat) (s : State) : State :=
  match s.life.state with
  | .initial | .operational | .recovery => setLife .zeroized cause s
  | _ => s

/-- A battery domain found invalid (R515): the head is the last entry that verifies in flash. -/
def batteryLost (s : State) : State :=
  let s := eraseMaster { s with
    alarms := s.alarms.map (fun e => (e.1, { e.2 with state := .clear, raised := 0 })),
    batt := { s.batt with valid := true, entries := [], lost := 0, lostMask := 0, onset := [], levels := [], flags := [], interval := 4,
                          reporting := [], erased := false, eraseBad := false } }
  let s := s.modPat (fun p => { p with headSeq := p.progSeq, headLink := p.progLink, buffer := [], lost := 0, lostMask := 0 })
  let s := logEntry 0 7 (leBytes 8 s.pat.headSeq ++ padTo 16 (headLink s)) s
  bootExit 0x0102 (zeroizedAt 2 s)

/-- The next-page table of a block: its first erased page (R523). -/
def firstBlank (f : Flash) (b : Nat) : Nat := ((List.range 512).find? (fun i => f.blank (b * 512 + i))).getD 512

/-- The next-page table is rebuilt, and the calibration area locked (R519, R523). -/
def prepareFlash (s : State) : State :=
  s.modFlash (fun f =>
    let f := f.blocks.foldl (fun f e => f.modBlock e.1 (fun k => { k with nextPage := firstBlank f e.1 })) f
    [228, 229].foldl (fun f l => f.modBlock (f.phys l) (fun k => { k with locked := true })) f)

/-- Charge drawn without main power, in tenths of a nAh: 0.9 µA + 6.4 µA × ms / interval (R498, R600). -/
def unpoweredCharge (counts interval : Nat) : Nat :=
  (9 * interval + 64) * counts * 1000 / (interval * 32768 * 3600)

/-- The release of the part's reset (R611): the battery domain hands over, and device time starts from the real-time
counter (R467). -/
def release (b : BootIn) (s : State) : State :=
  let count := if s.batt.rtcRuns then Nat.max b.rtc s.batt.rtc else s.batt.rtc
  let now := rtcTicks count
  let drawn := if s.batt.mainPower then 0 else unpoweredCharge (count - s.batt.failRtc) s.batt.interval
  { s with
    time := now
    pins := { s.pins with held := false, sysRst := false, almForced := true, alm0 := true, alm1 := true }
    health := { s.health with charge := s.health.charge + drawn }
    batt := { s.batt with mainPower := true, rtc := count, rtcAt := now }
    life := { s.life with bootAt := now, bootRecord := zeros 64, result := if s.life.trialFailed then 0x0303 else 0, trialFailed := false
                          act := if s.life.act = 3 then 0 else s.life.act } }

-- Step 2.

/-- Is a raise of the alarm in the log: since the last power-up, or not yet ended? -/
def raiseLogged (s : State) (a : Nat) : Bool :=
  let es := (retained s ++ s.batt.entries).filter (fun e => e.source = 0x0100 + a && (e.code = 1 || e.code = 3))
  es.any (fun e => e.code = 1 && s.pat.bootSeq < e.seq) || (match es.getLast? with | some e => e.code = 1 | none => false)

/-- Link the entries that the battery domain formed, in SEQ order (R501). -/
def linkUnpowered (s : State) : State :=
  let s := s.batt.entries.foldl (fun s e =>
    let e := { e with link := linkAfter (headLink s) e, entered := s.time }
    s.modPat (fun p => { p with headLink := e.link, buffer := p.buffer ++ [e], sinceCp := p.sinceCp + 1 })) s
  { s with batt := { s.batt with entries := [] } }

/-- OVERFLOW for what the battery domain could not keep. -/
def unpoweredLost (s : State) : State :=
  if s.batt.lost = 0 then s
  else
    let n := s.batt.lost
    bumpBy 0x9070 1 0 n (logEntry 0 5 (leBytes 4 n ++ leBytes 8 s.batt.lostMask) { s with batt := { s.batt with lost := 0, lostMask := 0 } })

/-- A raise entry with RESTORED set for an onset latch that no entry matches (R501); its alarm is HELD. The spec gives no
SDATA for it. -/
def restoreOnset (logged : Nat → Bool) (a count : Nat) (s : State) : State :=
  if logged a then s
  else
    let l := alarmLevel s a
    let e := raiseEntry a l 1 0 (rtcTicks count) (freeBytes 16 s) l 0
    let s := logPush { e with eflags := 4 } (useFree s)
    if (s.alarm a).state = .clear then s.setAlarm a { s.alarm a with state := .held, raised := l, leftAt := s.time } else s

/-- The held states at power-up (R499): an alarm that was ACTIVE is HELD. -/
def restoreHeld (s : State) : State :=
  (s.alarms.filter (fun e => e.2.state = .active)).foldl (fun s e => leaveActive e.1 s) s

/-- The last entry in flash and the buffer end at the head registers (R515). -/
def headAgrees (s : State) : Bool :=
  match (retained s).getLast? with
  | some e => e.seq + s.batt.entries.length = s.pat.headSeq && e.link = s.pat.headLink
  | none => s.pat.headSeq = s.batt.entries.length

/-- What level the alarms hold at power-up brings the part up with (R499): zeroized, or with working keys cleared. -/
def takeHeld (s : State) : State :=
  let s := if s.batt.erased then zeroizedAt 1 { s with batt := { s.batt with erased := false } } else s
  let s := if levelHeld s = 4 then zeroizedAt 1 (eraseMaster s) else s
  if 3 ≤ levelHeld s then setClearLines true s else s

/-- The log and the alarms as the battery domain held them. -/
def restoreBattery (s : State) : State :=
  let s := if headAgrees s then s else raiseAlarm 0x21 (leBytes 8 s.pat.headSeq) s
  let logged := raiseLogged s
  let onset := s.batt.onset
  let s := unpoweredLost (linkUnpowered s)
  let s := onset.foldl (fun s e => restoreOnset logged e.1 e.2 s) { s with batt := { s.batt with onset := [], reporting := [] } }
  let s := takeHeld (restoreHeld (s.modPat (fun p => { p with bootSeq := p.headSeq })))
  updatePins { s with pins := { s.pins with almForced := false } }

-- Step 6.

/-- The copy that boot restores: the newer good one whose digest verifies, with OD 0x1101.06. -/
def chosenCopy (b : BootIn) (m : Mgmt) : Option StoreCopy × Nat :=
  let okA := m.storeA.good && b.storeA
  let okB := m.storeB.good && b.storeB
  let newerA := m.storeB.good = false || (m.storeA.good && m.storeB.cgen ≤ m.storeA.cgen)
  if newerA then
    (if okA then (some m.storeA, 0) else if okB then (some m.storeB, 1) else (none, 2))
  else
    (if okB then (some m.storeB, 0) else if okA then (some m.storeA, 1) else (none, 2))

def persists {α : Type} (e : Nat × α) : Bool := match odFind (e.1 / 256) (e.1 % 256) with | some d => d.persist | none => false

/-- Every persisted entry takes its value from the copy, any other its default (R447). -/
def applyCopy (c : StoreCopy) (s : State) : State :=
  let s : State := { s with
    od := c.values.filter persists, odb := c.octets.filter persists
    svc := { s.svc with models := c.models, approvals := c.approvals }
    mgmt := { s.mgmt with cgen := c.cgen, domVer := c.domVer, principals := c.principals }
    qm := { s.qm with adm := c.adm } }
  let s := c.records.foldl (fun s r =>
    if bit r.qctl 7 then r.queues.foldl (fun s q => configureQueue r q s) s else s) s
  let s : State := { s with qm := { s.qm with
    records := c.records, adm := s.qm.adm.map (fun e => (e.1, { e.2 with level := e.2.c0Depth * 65536, last := s.time })) } }
  let s := s.alarms.foldl (fun s e => s.setAlarm e.1 { s.alarm e.1 with level := none, flags := none }) s
  c.alarms.foldl (fun s e => s.setAlarm e.1 { s.alarm e.1 with level := e.2.1, flags := e.2.2 }) s

/-- What takes its value in force at boot from the restored entries. -/
def inForce (s : State) : State :=
  let s : State := { s with
    flash := { s.flash with cfg := s.flash.cfg % 2 ^ 16 + s.cfg 0x8000 1 % 32 * 65536 }
    svc := { s.svc with tries := [], tryEntries := s.cfg 0x4120 2 }
    frz := { s.frz with addr := s.cfg 0x6000 1 } }
  copyBattery s

/-- The configuration store is restored, or is LOST. -/
def restoreStore (b : BootIn) (s : State) : State :=
  let r := chosenCopy b s.mgmt
  let s := s.modMgmt (fun m => { m with lost := r.2 })
  match r.1 with
  | some c => inForce (applyCopy c s)
  | none =>
    let s := bootExit 0x0601 (logEntry 0x0600 1 [] (inForce (applyCopy {} s)))
    if s.life.state = .operational then setLife .recovery 3 s else s

/-- Draw keys from the entropy source: a free value of 256 bits. -/
def drawWord (s : State) : BitVec 256 := BitVec.ofNat 256 (Config.freeValue s.free)

/-- The protection engine's keys and version tree (R410, R414). -/
def initMpe (s : State) : State :=
  let kenc := drawWord s
  let s := useFree s
  useFree { s with mpe := { kenc := kenc, kmac := drawWord s } }

/-- Does the buffer that the anchor names hold an acceptable image (R299)? -/
def acceptable (b : BootIn) (s : State) : Option KsImage :=
  match s.ks.anchor with
  | none => none
  | some a =>
    (if s.ks.nextBuffer = 0 then s.ks.bufferB else s.ks.bufferA).filter
      (fun i => b.image = 1 && i.gen = a.gen && padTo 8 i.mkid = padTo 8 s.ks.mkid && i.macOk)

/-- The image loaded: its pinned entries are filled, and a slot under a limit calls for a new image (R284, R300). -/
def loadImage (i : KsImage) (s : State) : State :=
  let s := installImage i s
  let s := if s.ks.rootsPresent then
      (s.ks.slots.filter (fun e => e.2.pinned)).foldl (fun s e => (fillEntry e.1 s).1) s
    else s
  if s.ks.slots.any (fun e => e.2.useLimit != 0) then startImage false (ksChanged s) else s

-- The steps in order.

/-- Step 8: the Frieze ports come up, and boot waits for a partner. -/
def step8 (s : State) : State :=
  let s := (List.range 3).foldl (fun s p => portEnable p (s.cfgB (0x6010 + p) 1) s) s
  s.modLife (fun l => { l with wait := .partner, waitSince := s.time })

/-- Every instance of the twelve generators takes a seed (R225). -/
def seedAll (s : State) : State :=
  let seeded (n : Nat) (s : State) : Generator :=
    { state := .running, inst := (List.range n).map (fun i => (i, { seeded := true, seed := leBytes 48 (Config.freeValue (s.free + i)) })) }
  (List.range 12).foldl (fun s g => { setGen g (seeded (genInstances g) s) s with free := s.free + genInstances g }) s

/-- Step 7: generators seeded, and the boot self-tests of all nine channels (R30). -/
def step7 (b : BootIn) (s : State) : State :=
  let s := seedAll s
  let s := (List.range 9).foldl (fun s n => startTest n (setChanState n .bootTest (resetChannel n s))) s
  let s := (List.range 9).foldl (fun s n =>
    match b.tests.find? (fun t => t.chan = n) with
    | some t => selfTestEnd n t.failPhase t.spares t.cells t.digests t.pks s
    | none => selfTestEnd n 0 0 [] [] [] s) s
  let s := stepDone 7 (b.t.getD 6 0) s
  if (List.range 9).any (fun n => (s.chan n).data = .quarantine) then
    (if inTrial s then trialFails s else step8 (bootExit 0x0701 s))
  else step8 s

/-- Step 6 ends: the endpoint answers configuration requests. -/
def step6End (b : BootIn) (s : State) : State :=
  step7 b (stepDone 6 (b.t.getD 5 0) { s with pcie := { s.pcie with crs := false }, life := { s.life with wait := .no } })

/-- The key-store image (R299, R539): loaded, awaited, or none acceptable. -/
def step6Image (b : BootIn) (s : State) : State :=
  if s.ddr.cap = 0 then step6End b s
  else if s.ks.anchor.isNone then step6End b s
  else
    match acceptable b s with
    | some i => step6End b (loadImage i s)
    | none =>
      if b.image = 0 && decide (s.time < s.life.waitSince + s.cfg 0x8010 1 * 1000000000) then
        s.modLife (fun l => { l with wait := .keyStore })
      else
        let s := bootExit 0x0602 (s.updKs (fun k => { k with missing := true }))
        step6End b (if s.life.state = .operational then setLife .recovery 3 s else s)

/-- Step 6. A zeroized part voids its anchor (R303). -/
def step6 (b : BootIn) (s : State) : State :=
  let s := restoreStore b (if s.ddr.cap = 0 then s else initMpe s)
  let s := if s.ks.zeroized then s.updKs (fun k => { k with anchor := none }) else s
  let s := if levelHeld s < 3 then deriveRoots s else s
  step6Image b (s.modLife (fun l => { l with waitSince := s.time }))

/-- Step 5: DDR trained and measured (R391). -/
def step5 (b : BootIn) (s : State) : State :=
  if b.ddr = 8 ∨ b.ddr = 16 ∨ b.ddr = 32 then
    step6 b (stepDone 5 (b.t.getD 4 0) { s with ddr := { cap := b.ddr }, health := { s.health with ddrDevices := b.devices } })
  else
    let s := bootExit 0x0501 s
    step6 b (stepDone 5 (b.t.getD 4 0) (if s.life.state = .operational then setLife .recovery 3 s else s))

/-- Step 4: the Plinth link up and keyed (R18); the main die runs. -/
def step4 (b : BootIn) (s : State) : State :=
  if b.link = 1 then linkFails 0x0401 s
  else if b.link ≠ 0 then linkFails 0x0402 { s with plink := { s.plink with state := .failed } }
  else
    let s : State := useFree { s with plink := { state := .up, linkKey := drawWord s } }
    step5 b (stepDone 4 (b.t.getD 3 0) (startCore 0x50 s))

/-- Does a bank pass R546 at boot? -/
def bankPasses (ok : Bool) (k : Bank) (s : State) : Bool :=
  ok && k.state != .empty && k.state != .invalid && decide (s.life.fuses.rollback ≤ k.secver)

/-- The Plinth firmware starts from the selected bank; a reset during the trial boots the TRIAL bank once (R550). -/
def firmwareUp (b : BootIn) (s : State) : State :=
  step4 b (stepDone 3 (b.t.getD 2 0) (startCore 0x51 (s.modLife (fun l => { l with trialBooted := l.act = 1 || l.act = 2 }))))

/-- Step 3: the pair of the selected bank verified. -/
def step3 (b : BootIn) (s : State) : State :=
  if b.romFault = 3 then bootHalt 0x0001 s
  else
    let ok := bankPasses (if s.life.selB then b.bankB else b.bankA) (selectedBank s) s
    let other := bankPasses (if s.life.selB then b.bankA else b.bankB) (otherBank s) s
    if ok then firmwareUp b s
    else if inTrial s then trialFails s
    else
      let s := setSelected (if (selectedBank s).state = .empty then selectedBank s else { selectedBank s with state := .invalid }) s
      if other then
        let s := s.modLife (fun l => { l with selB := !l.selB })
        firmwareUp b (bootExit 0x0301 (setSelected { selectedBank s with state := .confirmed } s))
      else bootHalt 0x0302 s

/-- Step 2: held at an absent reference clock (R611). -/
def step2 (b : BootIn) (s : State) : State :=
  if b.romFault = 2 then bootHalt 0x0001 s
  else if !b.clock then s.modLife (fun l => { l with wait := .clock })
  else
    let s := restoreBattery (s.modLife (fun l => { l with wait := .no }))
    let s := b.armature.foldl (fun s a => if a ≤ 1 then sensorReport a (armSdata (freeNat 32 s) (freeNat 256 s) s) false (useFree s) else s) s
    let s := if (s.alarm 0).state = .active || (s.alarm 1).state = .active then closeWindow s else s
    step3 b (stepDone 2 (b.t.getD 1 0) { s with flash := { s.flash with mhz := 400 } })

/-- Step 1: held while a rail is out of range. A trial bank that has had its one boot gives way to the confirmed one. -/
def step1 (b : BootIn) (s : State) : State :=
  if b.romFault = 1 then bootHalt 0x0001 s
  else if !b.rails then s.modLife (fun l => { l with wait := .supply })
  else
    let s := loadFuses (s.modLife (fun l => { l with wait := .no }))
    if !b.checkOk then bootHalt 0x0101 s
    else
      let s := loadLife s
      let s := if s.batt.valid then s else batteryLost s
      let s := if inTrial s && s.life.trialBooted then
          (beginRevert s).modLife (fun l => { l with act := 0, fwRestart := false, trialBooted := false })
        else s
      step2 b (stepDone 1 (b.t.getD 0 0) (prepareFlash s))

-- The commands.

/-- RESET_RELEASE: the boot ROM runs the steps of Table 16-11. -/
def execResetRelease (b : BootIn) (s : State) : Res :=
  .next (if s.pins.held then step1 b (startCore 0x51 (release b s)) else s)

/-- SUPPLY_RECHECK: step 1 repeats, every 10 ms while a rail is out of range. -/
def execSupplyRecheck (b : BootIn) (s : State) : Res := .next (if s.life.wait = .supply then step1 b s else s)

/-- REFERENCE_CLOCK_PRESENT: boot held at step 2 goes on. -/
def execReferenceClockPresent (b : BootIn) (s : State) : Res :=
  .next (if s.life.wait = .clock then step2 { b with clock := true } s else s)

/-- KEYSTORE_WAIT_RETRY: the image is read again; after boot, an acceptable image ends MISSING (R299). -/
def execKeystoreWaitRetry (b : BootIn) (s : State) : Res :=
  .next (
    if s.life.wait = .keyStore then step6Image b s
    else if s.ks.missing then
      match acceptable b s with
      | some i => endRecovery (loadImage i s)
      | none => s
    else s)

/-- PARTNER_WAIT_EXPIRY: no partner in 400 ms; the part stands alone. -/
def execPartnerWaitExpiry (s : State) : Res :=
  .next (if s.life.wait = .partner && decide (s.life.waitSince + 400000000 ≤ s.time) then enterService s else s)

/-- The ROM looks for a recovery set whose pair passes R546, writes it to bank A and resets the part (R542). `fail` 7: the
card is removed while it writes; other values: the card does not identify. -/
def sdRecover (card : SdCard) (fail : Nat) (s : State) : State :=
  let pair := card.sets.findSome? (fun x => match x.body with
    | .recovery p passes => if x.committed && passes && decide (s.life.fuses.rollback ≤ p.secver) then some p else none
    | _ => none)
  match pair with
  | none => s
  | some p =>
    if fail = 7 then s.modLife (fun l => { l with bankA := { p with state := .invalid }, act := 0 })
    else if fail ≠ 0 ∨ !card.sdhc ∨ card.locked then s
    else
      let s := s.modLife (fun l => { l with bankA := { p with state := .confirmed }, selB := false, act := 0, trialBooted := false })
      holdReset true true (bankEntry 1 false s)

/-- SD_CARD_INSERT: the card is identified (R555), or serves the ROM in BOOT_HALT. -/
def execSdCardInsert (card : SdCard) (fail : Nat) (s : State) : Res :=
  .next (if s.life.halted then (if s.life.wait = .sdCard then sdRecover card fail s else s) else sdInsert card fail s)

end Sys2Proof.Machine
end

