-- ==== Sys2Proof/Machine/KsOps.lean ====
section
/-! DEFINITION. The key store's own commands: claims, write-back, images on interval and on demand,
rollover, scrub and zero-fill (chapter 08). -/

namespace Sys2Proof.Machine

/-- Each second the key fetch unit writes changed USES, STATE and CNT_OVF back (R285). -/
def execUsesWriteback (s : State) : Res := .next (s.updKs (fun k => { k with dirty := [] }))

/-- A rollover ends (R264): every record under the new generation, W2 and W3 become W0 and W1, MKGEN
advances, and an image is taken. -/
def execRolloverComplete (s : State) : Res :=
  if !s.ks.rollover then .next s
  else
    let s := s.updKs (fun k => { k with
      rollover := false, w0 := k.w2, w1 := k.w3, w2 := 0, w3 := 0, mkgen := k.mkgen + 1,
      tenants := k.tenants.map (fun t => (t.1, { t.2 with mkg := !t.2.mkg, mkgen := k.mkgen + 1 })),
      slots := k.slots.map (fun e => (e.1, { e.2 with mkg := !e.2.mkg })) })
    .next (startImage false (deriveRoots (ksChanged s)))

/-- The scrub of a deleted tenant ends (R266): its slots are UNASSIGNED and it is ABSENT. -/
def execTenantScrubComplete (t : Nat) (s : State) : Res :=
  if !s.ks.scrubs.contains t then .next s
  else
    .next (ksChanged (s.updKs (fun k => { k with
      scrubs := k.scrubs.filter (fun x => !(x = t)), tenants := tdel k.tenants t,
      slots := k.slots.filter (fun e => !(e.2.tenant = t && e.2.state != .unassigned)) })))

/-- A claim or release by core `c` (R288). -/
def execSlotclaimClaim (c index polOff : Nat) (s : State) : Res :=
  .next (slotclaimWrite c (2 ^ 30 + index % 8 * 2 ^ 27 + polOff / 8 % 2 ^ 19) s)
def execSlotclaimRelease (c index : Nat) (s : State) : Res := .next (slotclaimWrite c (2 ^ 31 + index % 8 * 2 ^ 27) s)

/-- The image interval has passed after a change (R297). -/
def execImageIntervalExpiry (s : State) : Res :=
  .next (if s.ks.changed && decide (s.ks.lastImage + s.cfg 0x5008 2 * 1000000000 ≤ s.time) then startImage false s else s)

/-- After L4 the tables in protected DDR are zero and the anchor is void (R303). -/
def execZeroFillComplete (s : State) : Res :=
  if !s.ks.zeroized then .next s
  else .next (s.updKs (fun k => { k with
    tenants := [], slots := [], scrubs := [], dirty := [], changed := false, image := none, anchor := none }))

end Sys2Proof.Machine
end

