-- ==== Sys2Proof/Machine/Payment.lean ====
section
/-! DEFINITION. The payment services (chapter 03): the order of checks of R94, the keys of a service, and the
meaning of each service's row. A service row names the request by its index in the request table; it does
nothing unless that request runs on a channel, names the service and has no response yet. -/

namespace Sys2Proof.Machine

/-- Result of a step of a service: a value, or the status and DETAIL that end the request. -/
inductive Stp (α : Type) where
  | ok (a : α) (s : State)
  | fail (status detail : Nat) (s : State)

/-- Go on with the value. -/
def Stp.bind {α β : Type} (x : Stp α) (f : α → State → Stp β) : Stp β :=
  match x with
  | .ok a s => f a s
  | .fail st d s => .fail st d s

/-- Stage 1 of R94: the total length (R93), then reserved bytes and padding. `vars`: lengths of the variable
parts; `resv`: offset and length of each reserved field of the fixed part. -/
def layoutFail (p : Bytes) (fixed : Nat) (vars : List Nat) (resv : List (Nat × Nat)) : Option Nat :=
  let total := fixed + (vars.map pad8).sum
  let pads := (vars.foldl (fun (a : Nat × List (Nat × Nat)) v => (a.1 + pad8 v, a.2 ++ [(a.1 + v, pad8 v - v)])) (fixed, [])).2
  if p.length != total then some 0x0405
  else if (resv ++ pads).any (fun e => !allZero (slice p e.1 e.2)) then some 0x0103
  else none

/-- Run a step once both stages pass. -/
def checked {α : Type} (stage1 : Option Nat) (stage2 : List (Bool × Nat)) (s : State) (f : State → Stp α) : Stp α :=
  match stage1 with
  | some st => .fail st 0 s
  | none => match firstFail stage2 with | some st => .fail st 0 s | none => f s

/-- A key by slot reference (stage 3 of R94): DETAIL names the reference; an index at or above NSLOT gives
0x0106. `group` is the offset in a key group (R133). -/
def withKey {α : Type} (n : Nat) (q : Request) (ref group usage : Nat) (suits : Nat → Bool) (s : State) (f : Slot → State → Stp α) : Stp α :=
  if q.hdr.nslot ≤ ref then .fail 0x0106 0 s
  else
    match fetchSlot n q.ctx (q.hdr.slotRef ref + group) q.hdr.tenant usage suits s with
    | .ok k s => f k s
    | .fail st s => .fail st ref s

/-- Note the outcome of a service: the response is ready for the egress assembler (R35). -/
def finish (r : Nat) (x : Stp Bytes) : State :=
  match x with
  | .ok p s => s.modReq r (fun q => { q with status := 0, detail := 0, response := p, ready := true })
  | .fail st d s => s.modReq r (fun q => { q with status := st, detail := d, response := [], ready := true })

/-- Run a service on a running request of the code. -/
def serve (r code : Nat) (f : Nat → Request → State → Stp Bytes) (s : State) : Res :=
  match s.req? r with
  | none => .next s
  | some q =>
    match q.stage with
    | .running n _ => if q.hdr.service = code && !q.ready then .next (finish r (f n q s)) else .next s
    | _ => .next s

/-- 16 bytes of the channel's generator, a free value. -/
def drawRnd (s : State) : Bytes × State := (freeBytes 16 s, useFree s)

-- Keys of services.

/-- A key as a service uses it. -/
structure SKey where
  alg : Nat
  key : Bytes

/-- Is a working key code's algorithm one that a PIN format takes (R98, R116)? -/
def wkPinOk (fmt wk : Nat) : Bool := if fmt = 4 then wk = 0 || (3 ≤ wk && wk ≤ 5) else wk = 1 || wk = 2

/-- A source key: the slot's own, or the AES DUKPT working key of a KSN (R115, R116). `wkUse`: X9.24-3 use. -/
def sourceKey {α : Type} (n : Nat) (q : Request) (ref group usage : Nat) (dk : Bool) (wk wkUse : Nat) (ksn : Bytes)
    (suits : Nat → Bool) (s : State) (f : SKey → State → Stp α) : Stp α :=
  if dk then
    withKey n q ref group 0x800 (fun a => isAes a && (keyStrength a < keyStrength (dukptAlg a wk) || suits (dukptAlg a wk))) s
      (fun k s =>
        if keyStrength k.alg < keyStrength (dukptAlg k.alg wk) then .fail 0x0404 0 s
        else f { alg := dukptAlg k.alg wk, key := dukpt k.material ksn (dukptAlg k.alg wk) wkUse } s)
  else withKey n q ref group usage suits s (fun k s => f { alg := k.alg, key := k.material } s)

-- PIN services (R98 to R107).

def pinFmtOk (f : Nat) : Bool := f = 0 || f = 1 || f = 3 || f = 4

/-- R101 failures of the tenant. -/
def pinFailed {α : Type} (q : Request) (s : State) : Stp α := .fail 0x0401 0 (bump 0x9050 1 q.hdr.tenant s)

/-- Decrypt and check a PIN block under the source key (R98, R101). -/
def readPin {α : Type} (n : Nat) (q : Request) (ref fmt : Nat) (dk : Bool) (wk : Nat) (ksn : Bytes) (pan : List Nat) (block : Bytes)
    (s : State) (f : List Nat → State → Stp α) : Stp α :=
  sourceKey n q ref 0 0x10 dk wk 3 ksn (pinAlgOk fmt) s (fun k s =>
    match pinOfField fmt (pinFieldOf fmt k.alg k.key pan block) with
    | none => pinFailed q s
    | some pin => f pin s)

/-- Translate a PIN block (R98 to R102): the 16 bytes of the output block. -/
def translatePin (n : Nat) (q : Request) (srcRef dstRef srcFmt dstFmt : Nat) (dk : Bool) (wk : Nat) (ksn : Bytes) (pan : List Nat)
    (block : Bytes) (s : State) : Stp Bytes :=
  readPin n q srcRef srcFmt dk wk ksn pan block s (fun pin s =>
    withKey n q dstRef 0 0x20 (pinAlgOk dstFmt) s (fun k s =>
      let (rnd, s) := drawRnd s
      .ok (padTo 16 (pinBlock dstFmt k.alg k.material pan pin rnd)) s))

/-- Checks of SRC_KIND and SRC_WK (Table 03-6). -/
def srcKindFails (fmt kind wk : Nat) : List (Bool × Nat) :=
  [(2 ≤ kind, 0x0405), (kind = 0 && wk != 0, 0x0405), (kind = 1 && 5 < wk, 0x0405), (kind = 1 && !wkPinOk fmt wk, 0x0404)]

/-- Checks of a KSN field: zero without DUKPT, valid with it (R115). -/
def ksnFails (dk : Bool) (ksn : Bytes) : List (Bool × Nat) := [(!dk && !allZero ksn, 0x0405), (dk && !ksnValid ksn, 0x0407)]

/-- Is a PAN field bad; may it be absent? -/
def panBad (b : Bytes) (mayBeAbsent : Bool) : Bool :=
  match panDigits b with | none => true | some ds => ds.isEmpty && !mayBeAbsent

def panOf (b : Bytes) : List Nat := (panDigits b).getD []

/-- Checks of the pair of formats (R98, R99). -/
def pairFails (sf df : Nat) (down : Bool) : List (Bool × Nat) :=
  [(!pinFmtOk sf, 0x0404), (!pinFmtOk df, 0x0404), (!pinPermitted sf df down, 0x0402)]

/-- PIN_TRANSLATE (R100). -/
def pinTranslate (n : Nat) (q : Request) (s : State) : Stp Bytes :=
  let p := q.payload
  let sf := leAt p 0 1
  let df := leAt p 1 1
  let kind := leAt p 2 1
  let wk := leAt p 3 1
  let ksn := slice p 16 12
  checked (layoutFail p 48 [] [(5, 1), (28, 4)])
    (pairFails sf df (s.cfgB 0x4120 3) ++ srcKindFails sf kind wk ++ [(panBad (slice p 4 12) (sf = 1 && df = 1), 0x0403)] ++
      ksnFails (kind = 1) ksn ++ [(sf != 4 && !allZero (slice p 40 8), 0x0405)]) s (fun s =>
    (translatePin n q 0 1 sf df (kind = 1) wk ksn (panOf (slice p 4 12)) (slice p 32 16) s).bind (fun out s =>
      .ok (out ++ leBytes 1 df ++ zeros 7) s))

/-- Compare a PIN with the reference of a PIN_VERIFY request (stages 3 and 4): does it match? -/
def comparePin (n : Nat) (q : Request) (s : State) : Stp Bool :=
  let p := q.payload
  let pan := panOf (slice p 4 12)
  let len := leAt p 29 1
  let m1 := leAt p 3 1 = 1
  readPin n q 0 (leAt p 0 1) (leAt p 1 1 = 1) (leAt p 2 1) (slice p 16 12) pan (slice p 32 16) s (fun pin s =>
    if m1 && pin.length < len then .fail 0x0405 0 s
    else
      withKey n q 1 0 0x40 (fun a => a = 0x110) s (fun k s =>
        .ok (if m1 then pinOffsetMatch k.material (slice p 48 8) (slice p 72 16) (nibbles (slice p 56 6)) len pin k.alg
             else pinPvvMatch k.material pan (leAt p 30 1) (nibbles (slice p 62 2)) pin k.alg) s))

def tryKey (tenant index : Nat) : Nat := tenant * 2 ^ 32 + index
def State.tryCount (s : State) (k : Nat) : Nat := tget 0 s.svc.tries k
def State.setTry (s : State) (k v : Nat) : State := { s with svc := { s.svc with tries := tset 0 s.svc.tries k v } }

/-- The indivisible step of the try counter (R106): RESULT and TRIES. -/
def tryStep (n : Nat) (q : Request) (k : Nat) (s : State) : Stp (Nat × Nat) :=
  let count := s.tryCount k
  if s.cfg 0x4120 1 ≤ count then .ok (2, count) s
  else
    (comparePin n q s).bind (fun good s =>
      if good then .ok (0, 0) (s.setTry k 0)
      else if count = 0 && s.svc.tryEntries ≤ s.svc.tries.length then .fail 0x0406 0 s
      else .ok (1, count + 1) (s.setTry k (count + 1)))

/-- PIN_VERIFY (R103 to R106). -/
def pinVerify (n : Nat) (q : Request) (s : State) : Stp Bytes :=
  let p := q.payload
  let f := leAt p 0 1
  let kind := leAt p 1 1
  let wk := leAt p 2 1
  let m := leAt p 3 1
  let len := leAt p 29 1
  let dec := slice p 72 16
  let use := bit (leAt p 28 1) 0
  let stage1 := match layoutFail p 88 [] [(5, 1), (31, 1), (68, 4)] with
    | some st => some st
    | none => if 2 ≤ leAt p 28 1 then some 0x0103 else none
  checked stage1
    ([(!pinFmtOk f, 0x0404)] ++ srcKindFails f kind wk ++
      [(m != 1 && m != 2, 0x0404), (panBad (slice p 4 12) (f = 1 && m = 1), 0x0403)] ++ ksnFails (kind = 1) (slice p 16 12) ++
      [(if m = 1 then len < 4 || 12 < len else len != 0, 0x0405), (if m = 1 then leAt p 30 1 != 0 else 9 < leAt p 30 1, 0x0405),
       (f != 4 && !allZero (slice p 40 8), 0x0405), (m = 2 && !allZero (slice p 48 8), 0x0405),
       (if m = 1 then (bcdField (slice p 56 6) 12).isNone else !allZero (slice p 56 6), 0x0405),
       (if m = 1 then !allZero (slice p 62 2) else (bcdField (slice p 62 2) 4).isNone, 0x0405),
       (if m = 1 then dec.any (fun b => 9 < b.toNat) else !allZero dec, 0x0405)]) s (fun s =>
    (if use then tryStep n q (tryKey q.hdr.tenant (leAt p 64 4)) s
     else (comparePin n q s).bind (fun good s => .ok (b2n (!good), 0) s)).bind (fun res s =>
      .ok (leBytes 1 res.1 ++ leBytes 1 res.2 ++ zeros 6) s))

/-- PIN_TRY_RESET (R107). -/
def pinTryReset (q : Request) (s : State) : Stp Bytes :=
  let p := q.payload
  checked (layoutFail p 8 [] [(4, 4)]) [] s (fun s =>
    let k := tryKey q.hdr.tenant (leAt p 0 4)
    .ok (leBytes 1 (s.tryCount k) ++ zeros 7) (s.setTry k 0))

-- Application cryptograms (R108 to R112).

/-- Does a key suit ALG of Table 03-8? -/
def emvAlgOk (alg a : Nat) : Bool := if alg = 1 then a = 0x110 else a = 0x210 || a = 0x220

/-- Is a byte two decimal digits? -/
def bcdByteOk (b : Nat) : Bool := b / 16 ≤ 9 && b % 16 ≤ 9

/-- Verify a cryptogram and form its ARPC (R109 to R111): validity and the ARPC. -/
def arqcCheck (n : Nat) (q : Request) (alg method psn : Nat) (pan : List Nat) (atc arc csu arqc prop txn : Bytes) (s : State) :
    Stp (Bool × Bytes) :=
  withKey n q 0 0 0x80 (emvAlgOk alg) s (fun k s =>
    let sk := cardSession k.alg (cardMaster k.alg k.material pan [psn / 16, psn % 16]) atc
    let good := decide (cardMac k.alg sk txn = arqc)
    .ok (good, if good && method != 0 then cardArpc method k.alg sk arqc arc csu prop else []) s)

/-- ARQC_VERIFY (R108). -/
def arqcVerify (n : Nat) (q : Request) (s : State) : Stp Bytes :=
  let p := q.payload
  let alg := leAt p 0 1
  let method := leAt p 1 1
  let pl := leAt p 3 1
  let len := leAt p 40 2
  let pan := panOf (slice p 4 12)
  checked (layoutFail p 48 [len] [(5, 1), (42, 6)])
    [(alg != 1 && alg != 2, 0x0404), (2 < method, 0x0404), (!bcdByteOk (leAt p 2 1), 0x0405), (8 < pl, 0x0405),
     (panBad (slice p 4 12) false, 0x0403), (alg = 1 && 16 < pan.length, 0x0404), (!allZero (slice p (32 + pl) (8 - pl)), 0x0405),
     (len = 0 || 256 < len, 0x0405)] s (fun s =>
    (arqcCheck n q alg method (leAt p 2 1) pan (slice p 16 2) (slice p 18 2) (slice p 20 4) (slice p 24 8) (slice p 32 pl)
      (slice p 48 len) s).bind (fun e s =>
      .ok (leBytes 1 (b2n (!e.1)) ++ leBytes 1 e.2.length ++ zeros 6 ++ padTo 8 e.2) s))

-- MAC services (R113, R114).

/-- Does a key algorithm suit a MAC method and MAC_LEN (Table 03-10a)? -/
def macAlgOk (method len a : Nat) : Bool :=
  match method with
  | 1 | 4 => isAes a || (isTdes a && len ≤ 8)
  | 3 => a = 0x110
  | 8 => isHmac a && a / 256 = 3
  | 9 => isHmac a && a / 256 = 4
  | 10 => isHmac a && a / 256 = 5
  | _ => false

/-- Checks of METHOD, PADDING and MAC_LEN. -/
def macFieldFails (method pad len : Nat) : List (Bool × Nat) :=
  [(!(method = 1 || method = 3 || method = 4 || method = 8 || method = 9 || method = 10), 0x0404),
   ((method = 1 || method = 3) && (pad = 0 || 3 < pad || (method = 3 && pad = 3)), 0x0404),
   (!(method = 1 || method = 3) && pad != 0, 0x0405),
   (if method = 3 then len < 4 || 8 < len else if 8 ≤ method then len < 8 || 16 < len else len < 4 || 16 < len, 0x0405)]

/-- The MAC of a message, at its full length. -/
def macOf (method pad : Nat) (k : SKey) (m : Bytes) : Bytes :=
  match method with
  | 1 => macAlg1 pad k.alg k.key m
  | 3 => macAlg3 pad k.key m
  | 4 => cmac k.alg k.key m
  | 8 => hmac 1 k.key m
  | 9 => hmac 2 k.key m
  | _ => hmac 3 k.key m

/-- Does a DUKPT working key suit a MAC method (R116)? -/
def wkMacOk (method wk : Nat) : Bool := if method = 3 then wk = 1 else method = 1 || method = 4

/-- MAC_GENERATE and MAC_VERIFY (R113). -/
def macService (verify : Bool) (n : Nat) (q : Request) (s : State) : Stp Bytes :=
  let p := q.payload
  let method := leAt p 0 1
  let pad := leAt p 1 1
  let len := leAt p 2 1
  let kind := leAt p 3 1
  let wk := leAt p 4 1
  let use := leAt p 5 1
  let ml := leAt p 6 2
  let ksn := slice p 8 12
  checked (layoutFail p 48 [ml] [(20, 4), (40, 8)])
    (macFieldFails method pad len ++
      ([(2 ≤ kind, 0x0405), (kind = 0 && wk != 0, 0x0405), (kind = 1 && 5 < wk, 0x0405), (kind = 1 && !wkMacOk method wk, 0x0404),
       (if kind = 1 then 2 < use else use != 0, 0x0405), (decide ((if q.hdr.class = 0 then 2000 else 16000) < ml), 0x0405)] : List (Bool × Nat)) ++
      ksnFails (kind = 1) ksn ++ [(!allZero (if verify then slice p (24 + len) (16 - len) else slice p 24 16), 0x0405)]) s (fun s =>
    sourceKey n q 0 0 (if verify then 8 else 4) (kind = 1) wk use ksn (macAlgOk method len) s (fun k s =>
      let mac := (macOf method pad k (slice p 48 ml)).take len
      if verify then .ok (leBytes 1 (b2n (!decide (mac = slice p 24 len))) ++ zeros 7) s
      else .ok (leBytes 1 len ++ zeros 7 ++ padTo 16 mac) s))

-- Keys out of the part (R117, R124 to R126, R290).

/-- Response of an exported key block: KB_LEN, check value and the block (R117, R126). -/
def blockResponse (kcv : Nat) (kb : Bytes) : Bytes := leBytes 2 kb.length ++ beBytes 3 kcv ++ zeros 3 ++ padTo (pad8 kb.length) kb

/-- Does a protection key wrap keys of an algorithm (R290)? -/
def wrapsAlg (alg a : Nat) : Bool := isAes a && exportStrength alg ≤ exportStrength a

def exportCodeOk (e : Nat) : Bool := e = 0x4E || e = 0x45

/-- DUKPT_IK_EXPORT (R117). -/
def dukptIkExport (n : Nat) (q : Request) (s : State) : Stp Bytes :=
  let p := q.payload
  let ex := leAt p 8 1
  checked (layoutFail p 16 [] [(9, 7)]) [(!exportCodeOk ex, 0x0405)] s (fun s =>
    withKey n q 0 0 0x1000 isAes s (fun b s =>
      withKey n q 1 0 0x4000 (wrapsAlg b.alg) s (fun w s =>
        let ik := dukptInitial b.material (slice p 0 8)
        .ok (blockResponse (kcvOf b.alg ik []) (kbWrap w.material (kbHeader 0x4231 0x41 0x58 ex ik.length) ik (freeBytes 16 s))) (useFree s))))

/-- Usages that KEY_DERIVE does not give (R125). -/
def deriveForbidden : Nat := 0x2000 + 0x4000 + 0x800 + 0x1000 + 0x10000 + 0x100000

/-- Derived material (R109, R125). -/
def derivedKey (p : Bytes) (alg : Nat) (k : Slot) : Bytes :=
  if leAt p 0 1 = 1 then cardMaster k.alg k.material (panOf (slice p 8 12)) [leAt p 20 1 / 16, leAt p 20 1 % 16]
  else kdf108 k.alg k.material (slice p 32 (leAt p 24 2)) (slice p 96 (leAt p 26 2)) (algBytes alg)

/-- Write a derived key into the empty slot of reference 1 (R126, R288, R289). -/
def derivedToSlot (q : Request) (alg usage : Nat) (m : Bytes) (s : State) : Stp Bytes :=
  let i := q.hdr.slotRef 1
  let k := s.slot i
  let pol : Policy := { alg := alg, pflags := 0, rsv := 0, usage := usage, useLimit := 0, notBefore := 0, notAfter := 2 ^ 64 - 1 }
  if q.hdr.nslot ≤ 1 then .fail 0x0106 0 s
  else if k.state = .unassigned then .fail 0x0201 1 s
  else if k.tenant ≠ q.hdr.tenant then .fail 0x0202 1 s
  else if k.state ≠ .empty then .fail 0x040E 0 s
  else if !usageOk usage alg q.hdr.tenant || hasCeremony usage || ((s.tenant q.hdr.tenant).blob && !blobAllowsDirect alg usage) then
    .fail 0x0203 1 s
  else
    let k' := { newKey k pol 3 m [] s with version := 1 }
    .ok (beBytes 3 k'.kcv ++ zeros 5) (ksChanged (s.setSlot i k'))

/-- KEY_DERIVE (R124 to R126). -/
def keyDerive (n : Nat) (q : Request) (s : State) : Stp Bytes :=
  let p := q.payload
  let m := leAt p 0 1
  let out := leAt p 1 1
  let alg := leAt p 2 2
  let usage := leAt p 4 4
  let ex := leAt p 21 1
  let ll := leAt p 24 2
  let cl := leAt p 26 2
  let pan := slice p 8 12
  checked (layoutFail p 160 [] [(9, 1), (22, 2), (28, 4)])
    [(m != 1 && m != 2, 0x0404), (out != 1 && out != 2, 0x0404),
     (if m = 1 then !(alg = 0x110 || alg = 0x210 || alg = 0x220) else !isSym alg, 0x0404),
     (usage &&& deriveForbidden != 0 || (out = 2 && !usageOk usage alg q.hdr.tenant), 0x0404),
     (m = 2 && !allZero pan, 0x0405), (m = 1 && panBad pan false, 0x0403),
     (m = 1 && alg = 0x110 && 16 < (panOf pan).length, 0x0404),
     (if m = 1 then !bcdByteOk (leAt p 20 1) else leAt p 20 1 != 0, 0x0405),
     (if out = 2 then !exportCodeOk ex else ex != 0, 0x0405),
     (m = 2 && 64 < ll, 0x0405), (m = 2 && 64 < cl, 0x0405),
     (m = 2 && !allZero (slice p (32 + ll) (64 - ll)), 0x0405), (m = 2 && !allZero (slice p (96 + cl) (64 - cl)), 0x0405)] s (fun s =>
    withKey n q 0 0 0x2000 (fun a => if m = 1 then a = alg else isAes a) s (fun k s =>
      let key := derivedKey p alg k
      if out = 1 then derivedToSlot q alg usage key s
      else
        withKey n q 1 0 0x4000 (wrapsAlg alg) s (fun w s =>
          let h : Handle := { alg := alg, material := key, usage := usage }
          .ok (blockResponse (kcvOf alg key []) (keyBlockOf { alg := w.alg, material := w.material } h usage ex (freeBytes 16 s))) (useFree s))))

-- Card security codes (R118, R119).

/-- CSC_GENERATE and CSC_VERIFY (R118). -/
def cscService (verify : Bool) (n : Nat) (q : Request) (s : State) : Stp Bytes :=
  let p := q.payload
  let len := leAt p 16 1
  let pan := slice p 0 12
  checked (layoutFail p 24 [] [(1, 1), (17, 3)])
    [(panBad pan false, 0x0403), ((bcdField (slice p 12 2) 4).isNone, 0x0405), ((bcdField (slice p 14 2) 3).isNone, 0x0405),
     (len < 3 || 5 < len, 0x0405),
     (if verify then (bcdField (slice p 20 4) len).isNone else !allZero (slice p 20 4), 0x0405)] s (fun s =>
    withKey n q 0 0 0x100 (fun a => a = 0x110) s (fun k s =>
      let code := cardCode k.material (panOf pan) (nibbles (slice p 12 2)) ((nibbles (slice p 14 2)).take 3) len
      if verify then .ok (leBytes 1 (b2n (!decide (code = (nibbles (slice p 20 4)).take len))) ++ zeros 7) s
      else .ok (leBytes 1 len ++ zeros 3 ++ packNibbles ((code ++ List.replicate 8 0xF).take 8)) s))

-- FF1 (R120 to R123).

/-- Check digit relation of a token (R122): none for CHECK 0. -/
def checkWant (check : Nat) (body : List Nat) : Nat := if check = 2 then (luhnDigit body + 1) % 10 else luhnDigit body

/-- Checks 3 and 4 of R122: a middle of at least 6, then the check digit. -/
def ff1PanFail (tok : Bool) (pan : List Nat) (lead trail check : Nat) : Option Nat :=
  let body := pan.dropLast
  if body.length < lead + trail + 6 then some 0x0408
  else if check != 0 && decide (pan.getLast? ≠ some (if tok then luhnDigit body else checkWant check body)) then some 0x0403
  else none

/-- FF1 in PAN mode under a key: the token or the restored PAN (R122). -/
def ff1Pan (tok : Bool) (key : Bytes) (pan : List Nat) (lead trail check : Nat) (tweak : Bytes) (kept : Bool) : List Nat :=
  let body := pan.dropLast
  let mid := (body.drop lead).take (body.length - lead - trail)
  let head := body.take lead
  let tail := body.drop (body.length - trail)
  let tw := tweak ++ (if kept then (head ++ tail).map (fun d => BitVec.ofNat 8 d) else [])
  let new := (ff1 (!tok) key 10 tw (mid.map (fun d => BitVec.ofNat 8 d))).map (fun b => b.toNat)
  let nb := head ++ new ++ tail
  nb ++ [if check = 0 then pan.getLastD 0 else if tok then checkWant check nb else luhnDigit nb]

def ff1Usage (tok : Bool) : Nat := if tok then 0x200 else 0x400

/-- FF1_TOKENIZE and FF1_DETOKENIZE (R121). -/
def ff1Service (tok : Bool) (n : Nat) (q : Request) (s : State) : Stp Bytes :=
  let p := q.payload
  let mode := leAt p 0 1
  let lead := leAt p 1 1
  let trail := leAt p 2 1
  let check := leAt p 3 1
  let radix := leAt p 4 2
  let tl := leAt p 6 1
  let fl := leAt p 7 1
  let len := leAt p 40 2
  let tweakBad := 32 < tl || !allZero (slice p (8 + tl) (32 - tl))
  let syms := slice p 64 len
  let stage1 := match layoutFail p 64 [len] [(42, 6), (49, 1), (60, 4)] with
    | some st => some st
    | none => if 2 ≤ fl then some 0x0103 else none
  let fails : List (Bool × Nat) :=
    if mode = 1 then
      [(panBad (slice p 48 12) false, 0x0403), (8 < lead || 4 < trail || 2 < check, 0x0405),
       (radix != 10 || tweakBad || len != 0, 0x0405)] ++
      (match ff1PanFail tok (panOf (slice p 48 12)) lead trail check with | some st => [(true, st)] | none => [])
    else
      [(lead != 0 || trail != 0 || check != 0 || radix < 2 || 256 < radix || tweakBad || fl != 0, 0x0405), (len < 2 || 256 < len, 0x0408),
       (radix ^ len < 1000000, 0x0408), (!allZero (slice p 48 12), 0x0405), (syms.any (fun b => radix ≤ b.toNat), 0x0409)]
  checked stage1 ([(mode != 1 && mode != 2, 0x0404)] ++ fails) s (fun s =>
    withKey n q 0 0 (ff1Usage tok) isAes s (fun k s =>
      if mode = 1 then
        .ok (panField (ff1Pan tok k.material (panOf (slice p 48 12)) lead trail check (slice p 8 tl) (bit fl 0)) ++ zeros 4) s
      else
        .ok (leBytes 2 len ++ zeros 6 ++ padTo (pad8 len) (ff1 (!tok) k.material radix (slice p 8 tl) syms)) s))

-- Settlement batches (R127 to R131).

def State.batch? (s : State) (h : Nat) : Option Batch := tfind s.svc.batches h
def State.setBatch (s : State) (h : Nat) (b : Batch) : State := { s with svc := { s.svc with batches := tput s.svc.batches h b } }
def State.delBatch (s : State) (h : Nat) : State := { s with svc := { s.svc with batches := tdel s.svc.batches h } }

/-- A batch of a handle for a tenant's request: 0x040A when it is not the tenant's, 0x040B while another
request uses it. -/
def withBatch {α : Type} (r : Nat) (q : Request) (h : Nat) (s : State) (f : Batch → State → Stp α) : Stp α :=
  match s.batch? h with
  | none => .fail 0x040A 0 s
  | some b =>
    if b.tenant ≠ q.hdr.tenant then .fail 0x040A 0 s
    else if b.busy.isSome && decide (b.busy ≠ some r) then .fail 0x040B 0 s
    else f b s

/-- BATCH_OPEN (R127, R131): the handle is the lowest free number from 1. -/
def batchOpen (r : Nat) (q : Request) (s : State) : Stp Bytes :=
  checked (layoutFail q.payload 16 [] []) [] s (fun s =>
    if 4096 ≤ s.svc.batches.length || s.cfg 0x4121 2 ≤ (s.svc.batches.filter (fun e => e.2.tenant = q.hdr.tenant)).length then
      .fail 0x040D 0 s
    else
      let h := firstFree s.svc.batches 1
      .ok (leBytes 4 h ++ zeros 4 ++ leBytes 8 s.time)
        (s.setBatch h { tenant := q.hdr.tenant, ref := padTo 16 q.payload, tOpen := s.time, last := s.time, busy := some r }))

/-- BATCH_APPEND (R127, R128, R131). -/
def batchAppend (r : Nat) (q : Request) (s : State) : Stp Bytes :=
  let p := q.payload
  let h := leAt p 0 4
  let len := leAt p 8 2
  checked (layoutFail p 16 [len] [(10, 6)]) [(len = 0 || 16368 < len, 0x0405)] s (fun s =>
    withBatch r q h s (fun b s =>
      if leAt p 4 4 ≠ (b.appends + 1) % 2 ^ 32 then .fail 0x040C 0 s
      else if b.appends = 2 ^ 32 - 1 then .fail 0x040D 0 s
      else
        let b := { b with appends := b.appends + 1, bytes := b.bytes + len, data := b.data ++ slice p 16 len, last := s.time, busy := some r }
        .ok (leBytes 4 b.appends ++ zeros 4 ++ leBytes 8 b.bytes) (s.setBatch h b)))

/-- The batch statement (Table 03-13). -/
def batchStatement (s : State) (h sigs : Nat) (b : Batch) : Bytes :=
  [0x41, 0x58, 0x53, 0x42, 1] ++ leBytes 1 sigs ++ leBytes 2 b.tenant ++ leBytes 4 h ++ leBytes 4 b.appends ++ leBytes 8 b.bytes ++
  leBytes 8 b.tOpen ++ leBytes 8 s.time ++ padTo 16 b.ref ++ leBytes 2 (partAddr s % 4096) ++ zeros 6 ++ digest 2 b.data 0 ++
  serialBytes s ++ zeros 8

/-- A signature of the statement by a key (R130). -/
def signStatement (k : Slot) (m rnd : Bytes) : Bytes :=
  let pk := k.alg % 256
  if pk = 1 then pkSign 1 1 k.material (digest 1 m 0) [] rnd
  else if pk = 2 ∨ pk = 0x11 ∨ pk = 0x12 then pkSign pk 2 k.material (digest 2 m 0) [] rnd
  else pkSign pk 0 k.material m [] rnd

def signAlgOk (a : Nat) : Bool := isPrivate a && !(0x30 ≤ a % 256)
def isMldsaKey (a : Nat) : Bool := 0x20 ≤ a % 256 && a % 256 ≤ 0x22

/-- Response of BATCH_CLOSE. -/
def closeResponse (st sig0 sig1 : Bytes) : Bytes :=
  st ++ leBytes 2 sig0.length ++ leBytes 2 sig1.length ++ zeros 4 ++ padTo (pad8 sig0.length) sig0 ++ padTo (pad8 sig1.length) sig1

/-- BATCH_CLOSE (R129, R130). -/
def batchClose (r n : Nat) (q : Request) (s : State) : Stp Bytes :=
  let p := q.payload
  let h := leAt p 0 4
  checked (layoutFail p 16 [] []) [] s (fun s =>
    withBatch r q h s (fun b s =>
      if leAt p 4 4 ≠ b.appends ∨ leAt p 8 8 ≠ b.bytes then .fail 0x040C 0 s
      else
        let s := s.setBatch h { b with last := s.time, busy := some r }
        withKey n q 0 0 0x10000 signAlgOk s (fun k0 s =>
          let (rnd0, s) := (freeBytes 64 s, useFree s)
          if q.hdr.nslot = 2 then
            withKey n q 1 0 0x10000 signAlgOk s (fun k1 s =>
              if isMldsaKey k0.alg = isMldsaKey k1.alg then .fail 0x0404 0 s
              else
                let (rnd1, s) := (freeBytes 64 s, useFree s)
                let st := batchStatement s h 2 b
                .ok (closeResponse st (signStatement k0 st rnd0) (signStatement k1 st rnd1)) (s.delBatch h))
          else
            let st := batchStatement s h 1 b
            .ok (closeResponse st (signStatement k0 st rnd0) []) (s.delBatch h))))

/-- BATCH_ABORT (R127). -/
def batchAbort (r : Nat) (q : Request) (s : State) : Stp Bytes :=
  let p := q.payload
  let h := leAt p 0 4
  checked (layoutFail p 8 [] [(4, 4)]) [] s (fun s => withBatch r q h s (fun _ s => .ok [] (s.delBatch h)))

-- The authorization bundle (R132 to R138).

/-- A step of a bundle: a 0x04xx status carries the R5 position as DETAIL, a 0x02xx status of the key group
the reference 3 (R137). -/
def Stp.step {α : Type} (pos : Nat) (x : Stp α) : Stp α :=
  match x with
  | .ok a s => .ok a s
  | .fail st d s => if st / 256 = 4 then .fail st pos s else .fail st d s

/-- Step 2: PIN_RESULT and PIN_OUT. -/
def bundlePin (n : Nat) (q : Request) (pan : List Nat) (s : State) : Stp (Nat × Bytes) :=
  let p := q.payload
  if bit (leAt p 0 1) 0 then
    let bad (ref : Nat) (s : State) : Option Nat :=
      let k := s.slot (q.hdr.slotRef ref)
      if k.state = .unassigned then some 0x0201 else if k.tenant ≠ q.hdr.tenant then some 0x0202 else none
    match bad 1 s, bad 2 s with
    | some st, _ => .fail st 1 s
    | none, some st => .fail st 2 s
    | none, none => .ok (1, zeros 16) s
  else
    match translatePin n q 1 2 (leAt p 4 1) (leAt p 5 1) (bit (leAt p 0 1) 1) (leAt p 6 1) (slice p 64 12) pan (slice p 48 16) s with
    | .ok out s => .ok (0, out) s
    | .fail st d s => if st = 0x0401 then .ok (2, zeros 16) s else (Stp.fail st d s : Stp (Nat × Bytes)).step 2

/-- A MAC of the bundle under slot s or s + 1 of the key group. -/
def bundleMac (n : Nat) (q : Request) (group usage : Nat) (m : Bytes) (s : State) : Stp Bytes :=
  let p := q.payload
  withKey n q 3 group usage (macAlgOk (leAt p 7 1) (leAt p 9 1)) s (fun k s =>
    .ok ((macOf (leAt p 7 1) (leAt p 8 1) { alg := k.alg, key := k.material } m).take (leAt p 9 1)) s)

/-- Step 4 (R148, R152, R156, R164 to R166): the score. -/
def bundleScore (q : Request) (pan : List Nat) (arqc pin mac : Nat) (fields : Bytes) (s : State) : Stp Int :=
  let p := q.payload
  let s := bump 0x9051 1 0 s
  match tfind s.svc.models (leAt p 14 2) with
  | none => .fail 0x040F 0x6002 (bump 0x9051 3 0 s)
  | some m =>
    if fields.length < m.requiredLen then .fail 0x040F 0x6003 (bump 0x9051 3 0 s)
    else
      let psn := leAt p 3 1 / 16 * 10 + leAt p 3 1 % 16
      let (sc, sat) := m.score (inputRecord pan psn (beNat (slice p 28 2)) arqc pin mac (leAt p 1 1) q.hdr.tenant fields) fields.length
      if sat && m.satFault then .fail 0x040F 0x6004 (bump 0x9051 3 0 s)
      else .ok sc (if sat then bump 0x9051 2 0 s else s)

/-- DECISION (R136). -/
def bundleDecision (arqc pin mac : Nat) (score refer decline : Int) : Nat :=
  if arqc = 1 ∨ mac = 1 ∨ pin = 2 then 1 else if decline ≤ score then 2 else if refer ≤ score then 3 else 0

/-- Two's complement I16 bytes of a score. -/
def i16Bytes (v : Int) : Bytes := leBytes 2 ((v + 65536).toNat % 65536)

/-- BUNDLE (R132 to R138). -/
def bundleService (n : Nat) (q : Request) (s : State) : Stp Bytes :=
  let p := q.payload
  let fl := leAt p 0 1
  let noPin := bit fl 0
  let dk := bit fl 1
  let alg := leAt p 1 1
  let sf := leAt p 4 1
  let df := leAt p 5 1
  let wk := leAt p 6 1
  let method := leAt p 7 1
  let ml := leAt p 9 1
  let pl := leAt p 13 1
  let pan := panOf (slice p 16 12)
  let tl := leAt p 100 2
  let msgLen := leAt p 102 2
  let rl := leAt p 104 2
  let oM := 120 + pad8 tl
  let oR := oM + pad8 msgLen
  let ksn := slice p 64 12
  let stage1 := match layoutFail p 120 [tl, msgLen, rl] [(17, 1), (36, 4), (76, 4), (106, 6)] with
    | some st => some st
    | none => if 4 ≤ fl then some 0x0103 else if q.hdr.nslot ≠ 4 then some 0x0106 else none
  let pinFails : List (Bool × Nat) :=
    if noPin then [(sf != 0, 0x0405), (df != 0, 0x0405)] else pairFails sf df (s.cfgB 0x4120 3)
  let wkFails : List (Bool × Nat) :=
    [(!dk && wk != 0, 0x0405), (dk && 5 < wk, 0x0405), (dk && !noPin && !wkPinOk sf wk, 0x0404)]
  let fails : List (Bool × Nat) :=
    [(alg != 1 && alg != 2, 0x0404), (2 < leAt p 2 1, 0x0404), (!bcdByteOk (leAt p 3 1), 0x0405)] ++ pinFails ++ wkFails ++
    [(method != 1 && method != 3 && method != 4, 0x0404)] ++ macFieldFails method (leAt p 8 1) ml ++
    ([(8 < leAt p 10 1, 0x0405), (4 < leAt p 11 1, 0x0405), (2 < leAt p 12 1, 0x0405), (8 < pl, 0x0405),
     (panBad (slice p 16 12) false, 0x0403), (alg = 1 && 16 < pan.length, 0x0404),
     (!noPin && sf != 4 && !allZero (slice p 56 8), 0x0405)] : List (Bool × Nat)) ++ ksnFails dk ksn ++
    [(!allZero (slice p (80 + ml) (16 - ml)), 0x0405), (decide (leInt p 98 2 < leInt p 96 2), 0x0405), (tl = 0 || 128 < tl, 0x0405),
     (msgLen = 0 || 512 < msgLen, 0x0405), (512 < rl, 0x0405), (!allZero (slice p (112 + pl) (8 - pl)), 0x0405)]
  checked stage1 fails s (fun s =>
    ((arqcCheck n q alg (leAt p 2 1) (leAt p 3 1) pan (slice p 28 2) (slice p 30 2) (slice p 32 4) (slice p 40 8) (slice p 112 pl)
        (slice p 120 tl) s).step 1).bind (fun a s =>
    (bundlePin n q pan s).bind (fun pin s =>
    (if 2 ^ 21 ≤ q.hdr.slot3 + 2 then Stp.fail 0x0201 3 s else (bundleMac n q 0 8 (slice p oM msgLen) s).step 3).bind (fun mac s =>
    let ar := b2n (!a.1)
    let mr := b2n (!decide (mac = slice p 80 ml))
    (bundleScore q pan ar pin.1 mr (slice p oR rl) s).bind (fun score s =>
    ((match ff1PanFail true pan (leAt p 10 1) (leAt p 11 1) (leAt p 12 1) with
      | some st => Stp.fail st 5 s
      | none => withKey n q 3 2 0x200 isAes s (fun k s =>
          .ok (ff1Pan true k.material pan (leAt p 10 1) (leAt p 11 1) (leAt p 12 1) [] true) s)).step 5).bind (fun token s =>
    let head := leBytes 1 (bundleDecision ar pin.1 mr score (leInt p 96 2) (leInt p 98 2)) ++ leBytes 1 ar ++ leBytes 1 pin.1 ++
      leBytes 1 mr ++ i16Bytes score ++ leBytes 1 a.2.length ++ leBytes 1 ml ++ padTo 8 a.2 ++ padTo 16 pin.2 ++ panField token ++ zeros 4
    ((bundleMac n q 1 4 head s).step 4).bind (fun out s => .ok (head ++ padTo 16 out) s)))))))

-- The rows.

def execPinTranslate (r : Nat) (s : State) : Res := serve r 0x0101 pinTranslate s
def execPinVerify (r : Nat) (s : State) : Res := serve r 0x0102 pinVerify s
def execPinTryReset (r : Nat) (s : State) : Res := serve r 0x0103 (fun _ q s => pinTryReset q s) s
def execArqcVerify (r : Nat) (s : State) : Res := serve r 0x0201 arqcVerify s
def execMacGenerate (r : Nat) (s : State) : Res := serve r 0x0301 (macService false) s
def execMacVerify (r : Nat) (s : State) : Res := serve r 0x0302 (macService true) s
def execDukptIkExport (r : Nat) (s : State) : Res := serve r 0x0401 dukptIkExport s
def execCscGenerate (r : Nat) (s : State) : Res := serve r 0x0501 (cscService false) s
def execCscVerify (r : Nat) (s : State) : Res := serve r 0x0502 (cscService true) s
def execFf1Tokenize (r : Nat) (s : State) : Res := serve r 0x0601 (ff1Service true) s
def execFf1Detokenize (r : Nat) (s : State) : Res := serve r 0x0602 (ff1Service false) s
def execKeyDerive (r : Nat) (s : State) : Res := serve r 0x0701 keyDerive s
def execBatchOpen (r : Nat) (s : State) : Res := serve r 0x0801 (fun _ q s => batchOpen r q s) s
def execBatchAppend (r : Nat) (s : State) : Res := serve r 0x0802 (fun _ q s => batchAppend r q s) s
def execBatchClose (r : Nat) (s : State) : Res := serve r 0x0803 (batchClose r) s
def execBatchAbort (r : Nat) (s : State) : Res := serve r 0x0804 (fun _ q s => batchAbort r q s) s
def execBundle (r : Nat) (s : State) : Res := serve r 0x0A01 bundleService s

/-- A batch that saw no request for the idle time expires (R131). -/
def execBatchExpiry (h : Nat) (s : State) : Res :=
  match s.batch? h with
  | none => .next s
  | some b => .next (if b.busy.isNone && decide (b.last + s.cfg 0x4121 1 * 1000000000 ≤ s.time) then s.delBatch h else s)

-- Customer service programs (R139 to R144).

/-- Keys that a program names, as (reference, usage) pairs, in order. -/
def programKeys (n : Nat) (q : Request) : List (Nat × Nat) → State → Stp Unit
  | [], s => .ok () s
  | (ref, usage) :: t, s => withKey n q ref 0 usage (fun _ => true) s (fun _ s => programKeys n q t s)

/-- The end of a program (R143): 0 it returned, 1 it faulted, 2 it exceeded its budget. -/
def programEnd (ends status : Nat) (payload : Bytes) (img : Image) (s : State) : Stp Bytes :=
  if ends = 2 then .fail 0x0503 0 s
  else if ends = 1 || img.maxRsp < payload.length then .fail 0x04FF 0 s
  else if status = 0 then .ok payload s
  else .fail 0x04FE 0 s

/-- CUSTOMER_SERVICE_PROGRAM (R142, R143): a bound program ran for request `r`, using `keys`, and ended. -/
def execCustomerServiceProgram (r : Nat) (keys : List (Nat × Nat)) (ends status : Nat) (payload : Bytes) (s : State) : Res :=
  match s.req? r with
  | none => .next s
  | some q =>
    match q.stage, boundImage s q.hdr.tenant q.hdr.service with
    | .running n _, some (img, _) =>
      if !isCustomer q.hdr.service || q.ready then .next s
      else
        match programKeys n q keys s with
        | .fail st d s => .next (finish r (.fail st d s))
        | .ok _ s =>
          if ends = 0 && 0x0480 ≤ status && status ≤ 0x04EF && payload.length ≤ img.maxRsp then
            .next (s.modReq r (fun q => { q with status := status, detail := 0, response := payload, ready := true }))
          else .next (finish r (programEnd ends status payload img s))
    | _, _ => .next s

end Sys2Proof.Machine
end

