-- ==== Sys2Proof/Machine/Dispatch.lean ====
section
/-! DEFINITION. One arm per command: each calls its meaning. -/

namespace Sys2Proof.Machine

def exec (i : Instr) (s : State) : Host.Outcome State Fault Refusal :=
  match i with
  | .plinthLinkFrame toMain crcOk header payload tag => Sys2Proof.Machine.execPlinthLinkFrame toMain crcOk header payload tag s
  | .plinthLinkLockLoss => Sys2Proof.Machine.execPlinthLinkLockLoss s
  | .plinthLinkRetrainComplete ok => Sys2Proof.Machine.execPlinthLinkRetrainComplete ok s
  | .clearKeysAssert l0 l1 l2 => Sys2Proof.Machine.execClearKeysAssert l0 l1 l2 s
  | .clearLineDisagreement l0 l1 l2 => Sys2Proof.Machine.execClearLineDisagreement l0 l1 l2 s
  | .restPeriodExpiry => Sys2Proof.Machine.execRestPeriodExpiry s
  | .returnComplete n => Sys2Proof.Machine.execReturnComplete n s
  | .drainComplete n => Sys2Proof.Machine.execDrainComplete n s
  | .budgetOverrun r => Sys2Proof.Machine.execBudgetOverrun r s
  | .selfTestComplete n failPhase spares cells digests pks => Sys2Proof.Machine.execSelfTestComplete n failPhase spares cells digests pks s
  | .selfTestAbandon n phase => Sys2Proof.Machine.execSelfTestAbandon n phase s
  | .channelQuarantine n => Sys2Proof.Machine.execChannelQuarantine n s
  | .homeQueueAssign => Sys2Proof.Machine.execHomeQueueAssign s
  | .ethFrameReceive port fcsOk frame => Sys2Proof.Machine.execEthFrameReceive port fcsOk frame s
  | .arpRequest port mac ip target => Sys2Proof.Machine.execArpRequest port mac ip target s
  | .neighbourSolicitation port mac ip target => Sys2Proof.Machine.execNeighbourSolicitation port mac ip target s
  | .icmpEcho port mac ip target data => Sys2Proof.Machine.execIcmpEcho port mac ip target data s
  | .hello p body => Sys2Proof.Machine.execHello p body s
  | .confirm p sid seq body tag => Sys2Proof.Machine.execConfirm p sid seq body tag s
  | .data p sid seq body tag => Sys2Proof.Machine.execData p sid seq body tag s
  | .close p sid seq body tag => Sys2Proof.Machine.execClose p sid seq body tag s
  | .keepalive p sid seq tag => Sys2Proof.Machine.execKeepalive p sid seq tag s
  | .confirmTimeout x => Sys2Proof.Machine.execConfirmTimeout x s
  | .reassemblyTimeout sid => Sys2Proof.Machine.execReassemblyTimeout sid s
  | .sessionIdleTimeout x => Sys2Proof.Machine.execSessionIdleTimeout x s
  | .rekeyDue x => Sys2Proof.Machine.execRekeyDue x s
  | .sessionLifetimeEnd x => Sys2Proof.Machine.execSessionLifetimeEnd x s
  | .sessionGraceEnd x => Sys2Proof.Machine.execSessionGraceEnd x s
  | .ethLinkDown p => Sys2Proof.Machine.execEthLinkDown p s
  | .ethLinkUp p => Sys2Proof.Machine.execEthLinkUp p s
  | .linkDownHoldExpiry p => Sys2Proof.Machine.execLinkDownHoldExpiry p s
  | .respond r cycles => Sys2Proof.Machine.execRespond r cycles s
  | .ringEnable f r cfg => Sys2Proof.Machine.execRingEnable f r cfg s
  | .ringDisable f r => Sys2Proof.Machine.execRingDisable f r s
  | .reqPiDoorbell f r v => Sys2Proof.Machine.execReqPiDoorbell f r v s
  | .cplCiWrite f r v => Sys2Proof.Machine.execCplCiWrite f r v s
  | .descriptorFetch f r reqAddr rspAddr reqLen rspCap tag ok => Sys2Proof.Machine.execDescriptorFetch f r reqAddr rspAddr reqLen rspCap tag ok s
  | .hostReadCompletion f r ok frame => Sys2Proof.Machine.execHostReadCompletion f r ok frame s
  | .ringWithdrawComplete f r => Sys2Proof.Machine.execRingWithdrawComplete f r s
  | .coalesceTimerExpiry f r => Sys2Proof.Machine.execCoalesceTimerExpiry f r s
  | .functionLevelReset f => Sys2Proof.Machine.execFunctionLevelReset f s
  | .pcieLinkDown => Sys2Proof.Machine.execPcieLinkDown s
  | .pcieHotReset => Sys2Proof.Machine.execPcieHotReset s
  | .perstDeassert => Sys2Proof.Machine.execPerstDeassert s
  | .pinTranslate r => Sys2Proof.Machine.execPinTranslate r s
  | .pinVerify r => Sys2Proof.Machine.execPinVerify r s
  | .pinTryReset r => Sys2Proof.Machine.execPinTryReset r s
  | .arqcVerify r => Sys2Proof.Machine.execArqcVerify r s
  | .macGenerate r => Sys2Proof.Machine.execMacGenerate r s
  | .macVerify r => Sys2Proof.Machine.execMacVerify r s
  | .dukptIkExport r => Sys2Proof.Machine.execDukptIkExport r s
  | .cscGenerate r => Sys2Proof.Machine.execCscGenerate r s
  | .cscVerify r => Sys2Proof.Machine.execCscVerify r s
  | .ff1Tokenize r => Sys2Proof.Machine.execFf1Tokenize r s
  | .ff1Detokenize r => Sys2Proof.Machine.execFf1Detokenize r s
  | .keyDerive r => Sys2Proof.Machine.execKeyDerive r s
  | .batchOpen r => Sys2Proof.Machine.execBatchOpen r s
  | .batchAppend r => Sys2Proof.Machine.execBatchAppend r s
  | .batchClose r => Sys2Proof.Machine.execBatchClose r s
  | .batchAbort r => Sys2Proof.Machine.execBatchAbort r s
  | .batchExpiry h => Sys2Proof.Machine.execBatchExpiry h s
  | .bundle r => Sys2Proof.Machine.execBundle r s
  | .customerServiceProgram r keys ends status payload => Sys2Proof.Machine.execCustomerServiceProgram r keys ends status payload s
  | .dispatch => Sys2Proof.Machine.execDispatch s
  | .select n => Sys2Proof.Machine.execSelect n s
  | .steal n => Sys2Proof.Machine.execSteal n s
  | .waitLimitExpiry qn => Sys2Proof.Machine.execWaitLimitExpiry qn s
  | .dispatchDeadline r => Sys2Proof.Machine.execDispatchDeadline r s
  | .executionDeadline r => Sys2Proof.Machine.execExecutionDeadline r s
  | .forcedQuarantineWindowClose => Sys2Proof.Machine.execForcedQuarantineWindowClose s
  | .spill r => Sys2Proof.Machine.execSpill r s
  | .descriptorCacheFetchComplete qn good => Sys2Proof.Machine.execDescriptorCacheFetchComplete qn good s
  | .submit c off => Sys2Proof.Machine.execSubmit c off s
  | .submitStallRelease c => Sys2Proof.Machine.execSubmitStallRelease c s
  | .cipherCompletion n off cycles finding => Sys2Proof.Machine.execCipherCompletion n off cycles finding s
  | .cellSeedArrival n cell cycles => Sys2Proof.Machine.execCellSeedArrival n cell cycles s
  | .reseedIntervalReached g inst => Sys2Proof.Machine.execReseedIntervalReached g inst s
  | .reseedLimitReached g inst => Sys2Proof.Machine.execReseedLimitReached g inst s
  | .seedPacket g inst seed good => Sys2Proof.Machine.execSeedPacket g inst seed good s
  | .reseedDueTimeout g => Sys2Proof.Machine.execReseedDueTimeout g s
  | .entropySourceFailure latch => Sys2Proof.Machine.execEntropySourceFailure latch s
  | .dsubmit c off => Sys2Proof.Machine.execDsubmit c off s
  | .dsubmitStallRelease c => Sys2Proof.Machine.execDsubmitStallRelease c s
  | .digestCompletion n off cycles finding stall => Sys2Proof.Machine.execDigestCompletion n off cycles finding stall s
  | .psubmit c off => Sys2Proof.Machine.execPsubmit c off s
  | .pkCompletion n off cycles finding attempts stall => Sys2Proof.Machine.execPkCompletion n off cycles finding attempts stall s
  | .keyCacheFillComplete slot => Sys2Proof.Machine.execKeyCacheFillComplete slot s
  | .usesWriteback => Sys2Proof.Machine.execUsesWriteback s
  | .rolloverComplete => Sys2Proof.Machine.execRolloverComplete s
  | .tenantScrubComplete tenant => Sys2Proof.Machine.execTenantScrubComplete tenant s
  | .slotclaimClaim c index polOff => Sys2Proof.Machine.execSlotclaimClaim c index polOff s
  | .slotclaimRelease c index => Sys2Proof.Machine.execSlotclaimRelease c index s
  | .imageIntervalExpiry => Sys2Proof.Machine.execImageIntervalExpiry s
  | .takeImage m => Sys2Proof.Machine.execTakeImage m s
  | .imageComplete ok => Sys2Proof.Machine.execImageComplete ok s
  | .zeroFillComplete => Sys2Proof.Machine.execZeroFillComplete s
  | .add c q rd ra b w => Sys2Proof.Machine.execAdd c q rd ra b w s
  | .sub c q rd ra b w => Sys2Proof.Machine.execSub c q rd ra b w s
  | .adds c q rd ra b w => Sys2Proof.Machine.execAdds c q rd ra b w s
  | .subs c q rd ra b w => Sys2Proof.Machine.execSubs c q rd ra b w s
  | .and c q rd ra b => Sys2Proof.Machine.execAnd c q rd ra b s
  | .or c q rd ra b => Sys2Proof.Machine.execOr c q rd ra b s
  | .xor c q rd ra b => Sys2Proof.Machine.execXor c q rd ra b s
  | .andn c q rd ra b => Sys2Proof.Machine.execAndn c q rd ra b s
  | .min c q rd ra b => Sys2Proof.Machine.execMin c q rd ra b s
  | .max c q rd ra b => Sys2Proof.Machine.execMax c q rd ra b s
  | .minu c q rd ra b => Sys2Proof.Machine.execMinu c q rd ra b s
  | .maxu c q rd ra b => Sys2Proof.Machine.execMaxu c q rd ra b s
  | .shl c q rd ra b w => Sys2Proof.Machine.execShl c q rd ra b w s
  | .shr c q rd ra b w => Sys2Proof.Machine.execShr c q rd ra b w s
  | .sar c q rd ra b w => Sys2Proof.Machine.execSar c q rd ra b w s
  | .ror c q rd ra b w => Sys2Proof.Machine.execRor c q rd ra b w s
  | .extu c q rd ra b => Sys2Proof.Machine.execExtu c q rd ra b s
  | .exts c q rd ra b => Sys2Proof.Machine.execExts c q rd ra b s
  | .ins c q rd ra b => Sys2Proof.Machine.execIns c q rd ra b s
  | .clz c q rd ra w im => Sys2Proof.Machine.execClz c q rd ra w im s
  | .popc c q rd ra w im => Sys2Proof.Machine.execPopc c q rd ra w im s
  | .bswap c q rd ra w im => Sys2Proof.Machine.execBswap c q rd ra w im s
  | .movi c q rd v => Sys2Proof.Machine.execMovi c q rd v s
  | .cmp c q pd pd2 ra b cond w => Sys2Proof.Machine.execCmp c q pd pd2 ra b cond w s
  | .pand c q pd pa pb => Sys2Proof.Machine.execPand c q pd pa pb s
  | .por c q pd pa pb => Sys2Proof.Machine.execPor c q pd pa pb s
  | .pxor c q pd pa pb => Sys2Proof.Machine.execPxor c q pd pa pb s
  | .pandn c q pd pa pb => Sys2Proof.Machine.execPandn c q pd pa pb s
  | .pget c q rg => Sys2Proof.Machine.execPget c q rg s
  | .pset c q rg => Sys2Proof.Machine.execPset c q rg s
  | .muls32 c q md ra rb => Sys2Proof.Machine.execMuls32 c q md ra rb s
  | .mulu32 c q md ra rb => Sys2Proof.Machine.execMulu32 c q md ra rb s
  | .muls64 c q md ra rb => Sys2Proof.Machine.execMuls64 c q md ra rb s
  | .mulu64 c q md ra rb => Sys2Proof.Machine.execMulu64 c q md ra rb s
  | .mulComplete c => Sys2Proof.Machine.execMulComplete c s
  | .movml c q rd ms => Sys2Proof.Machine.execMovml c q rd ms s
  | .movmh c q rd ms => Sys2Proof.Machine.execMovmh c q rd ms s
  | .ld c q rd ra seg size sx disp => Sys2Proof.Machine.execLd c q rd ra seg size sx disp s
  | .st c q rd ra seg size disp => Sys2Proof.Machine.execSt c q rd ra seg size disp s
  | .xchg c q rd ra seg dword disp => Sys2Proof.Machine.execXchg c q rd ra seg dword disp s
  | .fadd c q rd ra seg dword disp => Sys2Proof.Machine.execFadd c q rd ra seg dword disp s
  | .br c q disp => Sys2Proof.Machine.execBr c q disp s
  | .brl c q rl disp => Sys2Proof.Machine.execBrl c q rl disp s
  | .jr c q rl ra => Sys2Proof.Machine.execJr c q rl ra s
  | .fmac c q ad ra rb fmt rnd sat => Sys2Proof.Machine.execFmac c q ad ra rb fmt rnd sat s
  | .fmsu c q ad ra rb fmt rnd sat => Sys2Proof.Machine.execFmsu c q ad ra rb fmt rnd sat s
  | .fmul c q ad ra rb fmt rnd sat => Sys2Proof.Machine.execFmul c q ad ra rb fmt rnd sat s
  | .flda c q ad ra sat k => Sys2Proof.Machine.execFlda c q ad ra sat k s
  | .faddg c q ad ra sat k => Sys2Proof.Machine.execFaddg c q ad ra sat k s
  | .fext c q rd ad fmt rnd sat k => Sys2Proof.Machine.execFext c q rd ad fmt rnd sat k s
  | .frawl c q rd ad => Sys2Proof.Machine.execFrawl c q rd ad s
  | .frawh c q rd ad => Sys2Proof.Machine.execFrawh c q rd ad s
  | .fraws c q ad ra rb => Sys2Proof.Machine.execFraws c q ad ra rb s
  | .bcopy c q rd ra rb sd sa units => Sys2Proof.Machine.execBcopy c q rd ra rb sd sa units s
  | .bfill c q rd ra rb sd units => Sys2Proof.Machine.execBfill c q rd ra rb sd units s
  | .bcmpeq c q rd ra rb sd sa pd units => Sys2Proof.Machine.execBcmpeq c q rd ra rb sd sa pd units s
  | .calls c q gate => Sys2Proof.Machine.execCalls c q gate s
  | .retx c q => Sys2Proof.Machine.execRetx c q s
  | .fence c q => Sys2Proof.Machine.execFence c q s
  | .fenceAcl c q => Sys2Proof.Machine.execFenceAcl c q s
  | .fenceI c q => Sys2Proof.Machine.execFenceI c q s
  | .movcr c q ra cr => Sys2Proof.Machine.execMovcr c q ra cr s
  | .movrc c q rd cr => Sys2Proof.Machine.execMovrc c q rd cr s
  | .sgld c q ra target seg => Sys2Proof.Machine.execSgld c q ra target seg s
  | .sgst c q ra target seg => Sys2Proof.Machine.execSgst c q ra target seg s
  | .rdst c q rd => Sys2Proof.Machine.execRdst c q rd s
  | .clrsat c q => Sys2Proof.Machine.execClrsat c q s
  | .wait c q => Sys2Proof.Machine.execWait c q s
  | .brk c q => Sys2Proof.Machine.execBrk c q s
  | .udf c word => Sys2Proof.Machine.execUdf c word s
  | .reservedEncoding c word => Sys2Proof.Machine.execReservedEncoding c word s
  | .asyncBusError c cls rule => Sys2Proof.Machine.execAsyncBusError c cls rule s
  | .abeDelivery c => Sys2Proof.Machine.execAbeDelivery c s
  | .eventEntry c => Sys2Proof.Machine.execEventEntry c s
  | .mhiWrite c v => Sys2Proof.Machine.execMhiWrite c v s
  | .fsLock c => Sys2Proof.Machine.execFsLock c s
  | .abeInfoClear c => Sys2Proof.Machine.execAbeInfoClear c s
  | .supervisorRestart => Sys2Proof.Machine.execSupervisorRestart s
  | .eventLineRaise n line => Sys2Proof.Machine.execEventLineRaise n line s
  | .eventLineFall n line => Sys2Proof.Machine.execEventLineFall n line s
  | .eventPresent n src => Sys2Proof.Machine.execEventPresent n src s
  | .recordWithdraw c pos => Sys2Proof.Machine.execRecordWithdraw c pos s
  | .claim c => Sys2Proof.Machine.execClaim c s
  | .release c pos => Sys2Proof.Machine.execRelease c pos s
  | .pendWrite n word v => Sys2Proof.Machine.execPendWrite n word v s
  | .holdwRequest c word => Sys2Proof.Machine.execHoldwRequest c word s
  | .holdwRelease c => Sys2Proof.Machine.execHoldwRelease c s
  | .holdwLimit c => Sys2Proof.Machine.execHoldwLimit c s
  | .wake c => Sys2Proof.Machine.execWake c s
  | .deepSleepWake c => Sys2Proof.Machine.execDeepSleepWake c s
  | .deviceEventRaise event data => Sys2Proof.Machine.execDeviceEventRaise event data s
  | .deviceEventRecord => Sys2Proof.Machine.execDeviceEventRecord s
  | .aclCheck => Sys2Proof.Machine.execAclCheck s
  | .aclCheckComplete => Sys2Proof.Machine.execAclCheckComplete s
  | .aclCommit => Sys2Proof.Machine.execAclCommit s
  | .aclShadowWrite off size value => Sys2Proof.Machine.execAclShadowWrite off size value s
  | .aclEpoch => Sys2Proof.Machine.execAclEpoch s
  | .aclVpop => Sys2Proof.Machine.execAclVpop s
  | .mpeZero start size => Sys2Proof.Machine.execMpeZero start size s
  | .sramPatrolScrub n word f => Sys2Proof.Machine.execSramPatrolScrub n word f s
  | .ddrPatrolScrub line f => Sys2Proof.Machine.execDdrPatrolScrub line f s
  | .remapCopyComplete unit => Sys2Proof.Machine.execRemapCopyComplete unit s
  | .memRd size addr => Sys2Proof.Machine.execMemRd size addr s
  | .memWr size addr data => Sys2Proof.Machine.execMemWr size addr data s
  | .halt target => Sys2Proof.Machine.execHalt target s
  | .debugResume target => Sys2Proof.Machine.execDebugResume target s
  | .step target => Sys2Proof.Machine.execStep target s
  | .regRd target reg => Sys2Proof.Machine.execRegRd target reg s
  | .armBrk target => Sys2Proof.Machine.execArmBrk target s
  | .dstatRd target => Sys2Proof.Machine.execDstatRd target s
  | .extest => Sys2Proof.Machine.execExtest s
  | .idcode => Sys2Proof.Machine.execIdcode s
  | .samplePreload => Sys2Proof.Machine.execSamplePreload s
  | .clamp => Sys2Proof.Machine.execClamp s
  | .highz => Sys2Proof.Machine.execHighz s
  | .bypass => Sys2Proof.Machine.execBypass s
  | .canFrameReceive ext fd id data => Sys2Proof.Machine.execCanFrameReceive ext fd id data s
  | .canReassemblyTimeout c => Sys2Proof.Machine.execCanReassemblyTimeout c s
  | .busOff => Sys2Proof.Machine.execBusOff s
  | .busOffRecovery => Sys2Proof.Machine.execBusOffRecovery s
  | .mbDoorbell f v => Sys2Proof.Machine.execMbDoorbell f v s
  | .mbAck f => Sys2Proof.Machine.execMbAck f s
  | .mbDisable f => Sys2Proof.Machine.execMbDisable f s
  | .mgmtHello m body => Sys2Proof.Machine.execMgmtHello m body s
  | .read m flags items => Sys2Proof.Machine.execRead m flags items s
  | .write m items => Sys2Proof.Machine.execWrite m items s
  | .describe m items => Sys2Proof.Machine.execDescribe m items s
  | .next m items => Sys2Proof.Machine.execNext m items s
  | .begin m => Sys2Proof.Machine.execBegin m s
  | .commit m => Sys2Proof.Machine.execCommit m s
  | .configStoreWritten ok => Sys2Proof.Machine.execConfigStoreWritten ok s
  | .channelInstallCommit n => Sys2Proof.Machine.execChannelInstallCommit n s
  | .rollback m => Sys2Proof.Machine.execRollback m s
  | .txnStatus m => Sys2Proof.Machine.execTxnStatus m s
  | .poll m => Sys2Proof.Machine.execPoll m s
  | .txnInactivityExpiry m => Sys2Proof.Machine.execTxnInactivityExpiry m s
  | .txnLifetimeExpiry m => Sys2Proof.Machine.execTxnLifetimeExpiry m s
  | .linkBlock p fec block => Sys2Proof.Machine.execLinkBlock p fec block s
  | .portSignalDetect p => Sys2Proof.Machine.execPortSignalDetect p s
  | .trainingComplete p ber loss => Sys2Proof.Machine.execTrainingComplete p ber loss s
  | .alignLock p => Sys2Proof.Machine.execAlignLock p s
  | .lhello p nonce pub cap chain leaf anchor sig chainOk => Sys2Proof.Machine.execLhello p nonce pub cap chain leaf anchor sig chainOk s
  | .measureComplete p => Sys2Proof.Machine.execMeasureComplete p s
  | .bringupStepTimeout p => Sys2Proof.Machine.execBringupStepTimeout p s
  | .laneLossOfLock p => Sys2Proof.Machine.execLaneLossOfLock p s
  | .linkRekey p => Sys2Proof.Machine.execLinkRekey p s
  | .lhelloRefresh p => Sys2Proof.Machine.execLhelloRefresh p s
  | .time p t1 t2 t3 t4 => Sys2Proof.Machine.execTime p t1 t2 t3 t4 s
  | .timeExchangeTimer p => Sys2Proof.Machine.execTimeExchangeTimer p s
  | .topo p t => Sys2Proof.Machine.execTopo p t s
  | .topoTimer => Sys2Proof.Machine.execTopoTimer s
  | .advert p a => Sys2Proof.Machine.execAdvert p a s
  | .advertTimer => Sys2Proof.Machine.execAdvertTimer s
  | .spillReq p env msg => Sys2Proof.Machine.execSpillReq p env msg s
  | .spillRsp p env msg => Sys2Proof.Machine.execSpillRsp p env msg s
  | .spillReturn p env => Sys2Proof.Machine.execSpillReturn p env s
  | .alarm p origin serial seq code lvl time => Sys2Proof.Machine.execAlarm p origin serial seq code lvl time s
  | .mgmt p src dst ttl data => Sys2Proof.Machine.execMgmt p src dst ttl data s
  | .mgmtReassemblyTimeout p => Sys2Proof.Machine.execMgmtReassemblyTimeout p s
  | .stage p origin txn st l => Sys2Proof.Machine.execStage p origin txn st l s
  | .prepare p coord origin txn d st l => Sys2Proof.Machine.execPrepare p coord origin txn d st l s
  | .vote p src d yes reason => Sys2Proof.Machine.execVote p src d yes reason s
  | .decide p coord d commit blame reason => Sys2Proof.Machine.execDecide p coord d commit blame reason s
  | .domainAck p src d => Sys2Proof.Machine.execDomainAck p src d s
  | .query p src d => Sys2Proof.Machine.execQuery p src d s
  | .outcome p d commit => Sys2Proof.Machine.execOutcome p d commit s
  | .sync p t r l domVer members last => Sys2Proof.Machine.execSync p t r l domVer members last s
  | .prepareTimeout d => Sys2Proof.Machine.execPrepareTimeout d s
  | .decideResend d => Sys2Proof.Machine.execDecideResend d s
  | .queryTimer d => Sys2Proof.Machine.execQueryTimer d s
  | .decisionWaitTimeout => Sys2Proof.Machine.execDecisionWaitTimeout s
  | .abandonDtxn m d => Sys2Proof.Machine.execAbandonDtxn m d s
  | .alarmReport a sdata => Sys2Proof.Machine.execAlarmReport a sdata s
  | .decisionWindowClose => Sys2Proof.Machine.execDecisionWindowClose s
  | .alarmDeassert a => Sys2Proof.Machine.execAlarmDeassert a s
  | .holdTimeExpiry a => Sys2Proof.Machine.execHoldTimeExpiry a s
  | .endResponseWrite m a => Sys2Proof.Machine.execEndResponseWrite m a s
  | .eraseReadback zero => Sys2Proof.Machine.execEraseReadback zero s
  | .armaturePatternPeriod nets => Sys2Proof.Machine.execArmaturePatternPeriod nets s
  | .armatureRcMeasure g r c => Sys2Proof.Machine.execArmatureRcMeasure g r c s
  | .detectorSelfTest a reported => Sys2Proof.Machine.execDetectorSelfTest a reported s
  | .tampInSample n window v => Sys2Proof.Machine.execTampInSample n window v s
  | .unpoweredSample rtc zero reports => Sys2Proof.Machine.execUnpoweredSample rtc zero reports s
  | .mainPowerFail => Sys2Proof.Machine.execMainPowerFail s
  | .patinaBufferWrite n => Sys2Proof.Machine.execPatinaBufferWrite n s
  | .patinaPageProgram ok => Sys2Proof.Machine.execPatinaPageProgram ok s
  | .patinaPadTimeout ok => Sys2Proof.Machine.execPatinaPadTimeout ok s
  | .checkpointIntervalExpiry => Sys2Proof.Machine.execCheckpointIntervalExpiry s
  | .checkpointNow m => Sys2Proof.Machine.execCheckpointNow m s
  | .checkpointRead m => Sys2Proof.Machine.execCheckpointRead m s
  | .checkpointAck m data => Sys2Proof.Machine.execCheckpointAck m data s
  | .blockRecycle => Sys2Proof.Machine.execBlockRecycle s
  | .chainVerify bad => Sys2Proof.Machine.execChainVerify bad s
  | .program => Sys2Proof.Machine.execProgram s
  | .erase => Sys2Proof.Machine.execErase s
  | .suspend => Sys2Proof.Machine.execSuspend s
  | .resume => Sys2Proof.Machine.execResume s
  | .blankCheck => Sys2Proof.Machine.execBlankCheck s
  | .flashCommandComplete ok time => Sys2Proof.Machine.execFlashCommandComplete ok time s
  | .flashUnitRead unit count => Sys2Proof.Machine.execFlashUnitRead unit count s
  | .flashScrub => Sys2Proof.Machine.execFlashScrub s
  | .resetRelease b => Sys2Proof.Machine.execResetRelease b s
  | .keystoreWaitRetry b => Sys2Proof.Machine.execKeystoreWaitRetry b s
  | .trialExpiry => Sys2Proof.Machine.execTrialExpiry s
  | .revert m => Sys2Proof.Machine.execRevert m s
  | .sdCardInsert card fail => Sys2Proof.Machine.execSdCardInsert card fail s
  | .sdCardRemove => Sys2Proof.Machine.execSdCardRemove s
  | .sdBusyTimeout => Sys2Proof.Machine.execSdBusyTimeout s
  | .sdSleep => Sys2Proof.Machine.execSdSleep s
  | .format m => Sys2Proof.Machine.execFormat m s
  | .keyStoreBackup m => Sys2Proof.Machine.execKeyStoreBackup m s
  | .clearTmpWriteProtect m => Sys2Proof.Machine.execClearTmpWriteProtect m s
  | .recoverySet m => Sys2Proof.Machine.execRecoverySet m s
  | .patinaExport m seq => Sys2Proof.Machine.execPatinaExport m seq s
  | .applyAcknowledgements m => Sys2Proof.Machine.execApplyAcknowledgements m s
  | .setWriteComplete => Sys2Proof.Machine.execSetWriteComplete s
  | .officerCardInsert k atr t1 classA ok => Sys2Proof.Machine.execOfficerCardInsert k atr t1 classA ok s
  | .officerCardRemove k => Sys2Proof.Machine.execOfficerCardRemove k s
  | .cardResponse k data sw => Sys2Proof.Machine.execCardResponse k data sw s
  | .parameterRecordWrite m record => Sys2Proof.Machine.execParameterRecordWrite m record s
  | .mkGenerate m => Sys2Proof.Machine.execMkGenerate m s
  | .mkCombine m => Sys2Proof.Machine.execMkCombine m s
  | .mkRollover m => Sys2Proof.Machine.execMkRollover m s
  | .zeroize m => Sys2Proof.Machine.execZeroize m s
  | .reinit m => Sys2Proof.Machine.execReinit m s
  | .decommission m => Sys2Proof.Machine.execDecommission m s
  | .debugUnlock m => Sys2Proof.Machine.execDebugUnlock m s
  | .endResponse m => Sys2Proof.Machine.execEndResponse m s
  | .keyGenerate m => Sys2Proof.Machine.execKeyGenerate m s
  | .keyComponents m => Sys2Proof.Machine.execKeyComponents m s
  | .publicLoad m => Sys2Proof.Machine.execPublicLoad m s
  | .restore m => Sys2Proof.Machine.execRestore m s
  | .rosterChange m => Sys2Proof.Machine.execRosterChange m s
  | .ceremonyCancel m => Sys2Proof.Machine.execCeremonyCancel m s
  | .ceremonyTimeout => Sys2Proof.Machine.execCeremonyTimeout s
  | .counterClear m data => Sys2Proof.Machine.execCounterClear m data s
  | .selfTestRequest m n => Sys2Proof.Machine.execSelfTestRequest m n s
  | .urgentSelfTest m n => Sys2Proof.Machine.execUrgentSelfTest m n s
  | .releaseQuarantine m n => Sys2Proof.Machine.execReleaseQuarantine m n s
  | .quarantineTestStart n => Sys2Proof.Machine.execQuarantineTestStart n s
  | .sharedBlockTestSlice block unit ok last => Sys2Proof.Machine.execSharedBlockTestSlice block unit ok last s
  | .stateDivergence group unit => Sys2Proof.Machine.execStateDivergence group unit s
  | .railSample mv => Sys2Proof.Machine.execRailSample mv s
  | .temperatureSample points => Sys2Proof.Machine.execTemperatureSample points s
  | .batteryVoltageSample mv => Sys2Proof.Machine.execBatteryVoltageSample mv s
  | .batteryLoadTest v0 v1 => Sys2Proof.Machine.execBatteryLoadTest v0 v1 s
  | .newCell m => Sys2Proof.Machine.execNewCell m s
  | .sysRstAssert ns => Sys2Proof.Machine.execSysRstAssert ns s
  | .registerWrite master addr size v => Sys2Proof.Machine.execRegisterWrite master addr size v s
  | .reencryptionComplete group => Sys2Proof.Machine.execReencryptionComplete group s
  | .mpeZeroComplete => Sys2Proof.Machine.execMpeZeroComplete s
  | .pcieTrainingComplete speed width => Sys2Proof.Machine.execPcieTrainingComplete speed width s
  | .cardBusyRelease => Sys2Proof.Machine.execCardBusyRelease s
  | .partnerWaitExpiry => Sys2Proof.Machine.execPartnerWaitExpiry s
  | .referenceClockPresent b => Sys2Proof.Machine.execReferenceClockPresent b s
  | .supplyRecheck b => Sys2Proof.Machine.execSupplyRecheck b s
  | .plinthFirmwareRestart => Sys2Proof.Machine.execPlinthFirmwareRestart s
  | .almNAssertionExpiry => Sys2Proof.Machine.execAlmNAssertionExpiry s
  | .tapReset => Sys2Proof.Machine.execTapReset s
  | .waitingTimeExpiry k => Sys2Proof.Machine.execWaitingTimeExpiry k s

end Sys2Proof.Machine
end

