-- ==== Sys2Proof/Machine/Step.lean ====
section
/-! DEFINITION. A step: the command at the front of the queue, or, on an empty queue, one tick of the device
time (DESIGN CHOICE, log 1). -/

namespace Sys2Proof.Machine

/-- Device time advances by one tick of 1 ns; each ms counts toward availability (R602). -/
def State.tick (s : State) : State := passTick { s with time := s.time + 1 }

/-- The state without the command at the front of its queue. -/
def State.popped (s : State) (rest : List Instr) : State := { s with pending := rest }

def step (s : State) : Host.Outcome State Fault Refusal :=
  match s.pending with
  | [] => .next s.tick
  | c :: rest => exec c (s.popped rest)

/-- The state with the command that a table word spells in front of the queue; the table gives no row any bits
(log 21). -/
def State.withFetchWord (s : State) (nbits w : Nat) : State :=
  match decodeTableWord nbits w with
  | some c => { s with pending := c :: s.pending }
  | none => s

end Sys2Proof.Machine
end

