-- ==== Sys2Proof/Safety.lean ====
section
/-! DEFINITION. What counts as a safe run: no step ends in a fault or a refusal; and the forms in which statements say
what a command does. -/

namespace Sys2Proof

/-- The step answers a next state. -/
def Runs (s : Machine.State) : Prop := ∃ t, Machine.step s = .next t

/-- `k` steps run to the end. -/
def RunsFor (k : Nat) (s : Machine.State) : Prop := ∃ t, core.run k s = .next t

/-- The command answers a next state that has the property. -/
def Does (c : Instr) (s : Machine.State) (P : Machine.State → Prop) : Prop :=
  ∃ t, Machine.exec c s = .next t ∧ P t

/-- A device event waits in its latch. -/
def Latched (s : Machine.State) (event : Nat) : Prop := (s.devEv.any (fun l => l.event = event)) = true

/-- Every byte of memory outside a range reads as before. -/
def SameBytesOutside (s t : Machine.State) (k n : Nat) : Prop :=
  ∀ a, a < k ∨ k + n ≤ a → Machine.memByte t.mem a = Machine.memByte s.mem a

/-- Request `r` runs on channel `n` for a service, and its program has not written its response. -/
def Serving (s : Machine.State) (r code n : Nat) (q : Machine.Request) : Prop :=
  s.req? r = some q ∧ (∃ c, q.stage = .running n c) ∧ q.hdr.service = code ∧ q.ready = false

/-- At the boundary of core `c` nothing goes before its instruction, whose fetch succeeds and whose predicate holds
(R316, R327, R352). -/
def Issues (c : Nat) (q : Pred) (s : Machine.State) : Prop :=
  (s.core c).run = .running ∧ Machine.abeDeliverable (s.core c) = false ∧ Machine.eventDue (s.core c) = none ∧
  Machine.fetchCheck c s = (none, s) ∧ (s.core c).predOk q = true

/-- Only core `c` changes. -/
def OnlyCore (c : Nat) (s t : Machine.State) : Prop :=
  (∀ d, d ≠ c → t.core d = s.core d) ∧ t = { s with cores := t.cores }

/-- Core `c` stands as `k` with an instruction complete: PC as given, BPROG zero, its cycles passed; the m registers
change only by multiplications that were in flight. -/
def CompletedAt (c : Nat) (s t : Machine.State) (k : Machine.Core) (pc : BitVec 32) : Prop :=
  t.core c = { k with
    pc := pc, status := { k.status with bprog := 0 }, cycle := (t.core c).cycle, m := (t.core c).m,
    muls := (t.core c).muls, ready := (t.core c).ready } ∧
  ((s.core c).muls = [] → (t.core c).m = k.m) ∧ (∀ d, d ≠ c → t.core d = s.core d)

/-- As `CompletedAt`, with PC at the next instruction. -/
def Completed (c : Nat) (s t : Machine.State) (k : Machine.Core) : Prop := CompletedAt c s t k ((s.core c).pc + 8)

/-- The bytes of an access at an address of the memory that core `c` reaches are at `key` of channel `n`'s SRAM, may be accessed
so, and have no error. -/
def SramAt (s : Machine.State) (c a : Nat) (k : Machine.AccKind) (size key : Nat) : Prop :=
  a < Machine.fsAddr ∧ ∃ n o, Machine.resolve s c a = .sram n o ∧ key = Machine.memKey (.sram n o) ∧
    Machine.accessVerdict s c k a size = none ∧ Machine.readError s (.sram n o) size = none

/-- As `SramAt`, in the core's own channel. -/
def OwnSramAt (s : Machine.State) (c a : Nat) (k : Machine.AccKind) (size key : Nat) : Prop :=
  a < Machine.fsAddr ∧ c < 72 ∧ ∃ o, Machine.resolve s c a = .sram (c / 8) o ∧ key = Machine.memKey (.sram (c / 8) o) ∧
    Machine.accessVerdict s c k a size = none ∧ Machine.readError s (.sram (c / 8) o) size = none

/-- The entry of a vector can be read and is valid, the stack of level 0 is valid, and its frame can be pushed at `key`
(R347, R349, R353). -/
def EntryReady (s : Machine.State) (c vector : Nat) (entry : Nat) (code : BitVec 128) (key : Nat) : Prop :=
  (∃ vk, SramAt s c ((s.core c).exc.vbase + 32 * vector) .read 32 vk ∧
    Machine.leAt (Machine.memBytes s.mem vk 32) 0 4 = 0 ∧ Machine.leAt (Machine.memBytes s.mem vk 32) 24 8 = 0 ∧
    entry = Machine.leAt (Machine.memBytes s.mem vk 32) 4 4 ∧
    code = BitVec.ofNat 128 (Machine.leAt (Machine.memBytes s.mem vk 32) 8 16)) ∧
  Machine.codeValid code entry = true ∧
  Machine.stackValid ((s.core c).stackFor 0).1 ((s.core c).stackFor 0).2 0 = true ∧
  SramAt s c (Machine.sgBase ((s.core c).stackFor 0).1 + ((s.core c).stackFor 0).2 - 64) .write 64 key

/-- Core `c` has entered a handler: the frame lies at `key`, and the core runs at level 0 from the entry (R353, R356). -/
def Entered (s t : Machine.State) (c vector detail faddr iml : Nat) (esc : Bool) (entry : Nat) (code : BitVec 128)
    (key : Nat) : Prop :=
  Machine.memBytes t.mem key 64 = ((s.core c).frame vector detail faddr false esc).bytes ∧
  (t.core c).pc = BitVec.ofNat 32 entry ∧
  (t.core c).status = { bprog := 0, satf := false, iml := BitVec.ofNat 4 iml, pl := 0 } ∧
  (t.core c).seg 7 = code ∧ (t.core c).seg 6 = ((s.core c).stackFor 0).1 ∧
  (t.core c).gr 31 = BitVec.ofNat 64 (((s.core c).stackFor 0).2 - 64) ∧
  (∀ r, r ≠ 31 → (t.core c).gr r = (s.core c).gr r) ∧ (t.core c).p = (s.core c).p ∧ (t.core c).a = (s.core c).a ∧
  (∀ d, d ≠ c → t.core d = s.core d) ∧ SameBytesOutside s t key 64

/-- At the boundary of core `c` nothing goes before its instruction, whose fetch succeeds. -/
def Fetches (c : Nat) (s : Machine.State) : Prop :=
  (s.core c).run = .running ∧ Machine.abeDeliverable (s.core c) = false ∧ Machine.eventDue (s.core c) = none ∧
  Machine.fetchCheck c s = (none, s)

/-- The instruction completes and writes one general register, g0 discarding the write; SATF is set where the
operation saturates, and nothing else changes. -/
def GResult (c : Nat) (i : Instr) (s : Machine.State) (rd : BitVec 5) (v : Word) (sat : Bool) : Prop :=
  Does i s (fun t =>
    (∀ r, (t.core c).gr r = if r = rd ∧ r ≠ 0 then v else (s.core c).gr r) ∧
    Completed c s t { s.core c with g := (t.core c).g, status := { (s.core c).status with satf := (s.core c).status.satf || sat } } ∧
    t = { s with cores := t.cores })

/-- The instruction completes and writes one accumulator. -/
def AResult (c : Nat) (i : Instr) (s : Machine.State) (ad : BitVec 2) (v : BitVec 72) (sat : Bool) : Prop :=
  Does i s (fun t =>
    (∀ j, (t.core c).acc j = if j = ad then v else (s.core c).acc j) ∧
    Completed c s t { s.core c with a := (t.core c).a, status := { (s.core c).status with satf := (s.core c).status.satf || sat } } ∧
    t = { s with cores := t.cores })

/-- The instruction completes and leaves the predicates `f`. -/
def PResult (c : Nat) (i : Instr) (s : Machine.State) (f : BitVec 3 → Bool) : Prop :=
  Does i s (fun t =>
    (∀ j, (t.core c).pr j = f j) ∧ Completed c s t { s.core c with p := (t.core c).p } ∧ t = { s with cores := t.cores })

/-- Management session `m` is `k`, past its handshake, with no request in flight, and the supervisor runs (R423, R434). -/
def Asks (s : Machine.State) (m : Nat) (k : Machine.MgSess) : Prop :=
  s.mgSess m = some k ∧ k.handshake = false ∧ k.inFlight = false ∧ s.supRestarting = false

/-- The state when a request of session `m` reaches its operation: the session has been heard. -/
def heard (m : Nat) (k : Machine.MgSess) (s : Machine.State) : Machine.State := s.setMg m { k with lastRx := s.time }

/-- The request in hand of session `m` is answered: its reply, with the operation and the result, is cached for a repeated
SEQ and sent; nothing else changes (R423, Table 13-4). -/
def Replied (m mop result : Nat) (u t : Machine.State) : Prop :=
  (∃ x k, u.mgSess m = some x ∧ t.mgSess m = some k ∧
    k = { x with cached := k.cached, inFlight := false, txSeq := x.txSeq + 1 } ∧
    Machine.leAt k.cached 0 1 = mop ∧ Machine.leAt k.cached 2 2 = result) ∧
  (∀ j, j ≠ m → t.mgSess j = u.mgSess j) ∧
  t = { u with mgmt := { u.mgmt with sess := t.mgmt.sess, mb := t.mgmt.mb }, frz := t.frz, out := t.out }

end Sys2Proof
end

