-- ==== Sys2Proof/WellFormed.lean ====
section
/-! DEFINITION. Which commands are well formed: each operand names a unit that exists and fits its field. A
command that is not names nothing that can happen; the meanings are total and leave the state as it is, or treat the
missing unit as absent. -/

namespace Sys2Proof

/-- A core's master number: 8n + k for core k of channel n, 0x50 the supervisor, 0x51 the Plinth (R394). -/
def coreNo (c : Nat) : Bool := decide (c < 72) || c == 0x50 || c == 0x51

/-- Access sizes in bytes. -/
def memSize (n : Nat) : Bool := n == 1 || n == 2 || n == 4 || n == 8

/-- Fields of a peer. -/
def Peer.wf (p : Peer) : Bool := decide (p.port < 4) && decide (p.mac < 2 ^ 48) && decide (p.udp < 2 ^ 16) && decide (p.dscp < 64)

def SessRef.wf : SessRef → Bool
  | .eth sid => decide (sid < 2 ^ 32)
  | .ring f r => decide (f < 8) && decide (r < 256)
  | .mgmt m => decide (m < 32)

/-- Is the command well formed? -/
def wellFormed : Instr → Bool
  | .plinthLinkFrame _ _ _ _ tag => decide (tag.length = 16)
  | .plinthLinkLockLoss => true
  | .plinthLinkRetrainComplete _ => true
  | .clearKeysAssert _ _ _ => true
  | .clearLineDisagreement _ _ _ => true
  | .restPeriodExpiry => true
  | .returnComplete n => decide (n < 9)
  | .drainComplete n => decide (n < 9)
  | .budgetOverrun _ => true
  | .selfTestComplete n failPhase _ _ _ _ => decide (n < 9) && decide (failPhase ≤ 14)
  | .selfTestAbandon n _ => decide (n < 9)
  | .channelQuarantine n => decide (n < 9)
  | .homeQueueAssign => true
  | .ethFrameReceive port _ frame => decide (port < 4) && decide (frame.length ≤ 1518)
  | .arpRequest port mac ip target => decide (port < 4) && decide (mac < 2 ^ 48) && decide (ip < 2 ^ 128) && decide (target < 2 ^ 128)
  | .neighbourSolicitation port mac ip target => decide (port < 4) && decide (mac < 2 ^ 48) && decide (ip < 2 ^ 128) && decide (target < 2 ^ 128)
  | .icmpEcho port mac ip target _ => decide (port < 4) && decide (mac < 2 ^ 48) && decide (ip < 2 ^ 128) && decide (target < 2 ^ 128)
  | .hello p _ => p.wf
  | .confirm p sid seq _ tag => p.wf && decide (sid < 2 ^ 32) && decide (seq < 2 ^ 64) && decide (tag.length = 16)
  | .data p sid seq _ tag => p.wf && decide (sid < 2 ^ 32) && decide (seq < 2 ^ 64) && decide (tag.length = 16)
  | .close p sid seq _ tag => p.wf && decide (sid < 2 ^ 32) && decide (seq < 2 ^ 64) && decide (tag.length = 16)
  | .keepalive p sid seq tag => p.wf && decide (sid < 2 ^ 32) && decide (seq < 2 ^ 64) && decide (tag.length = 16)
  | .confirmTimeout x => x.wf
  | .reassemblyTimeout sid => decide (sid < 2 ^ 32)
  | .sessionIdleTimeout x => x.wf
  | .rekeyDue x => x.wf
  | .sessionLifetimeEnd x => x.wf
  | .sessionGraceEnd x => x.wf
  | .ethLinkDown p => decide (p < 4)
  | .ethLinkUp p => decide (p < 4)
  | .linkDownHoldExpiry p => decide (p < 4)
  | .respond _ _ => true
  | .ringEnable f r cfg => decide (f < 8) && decide (r < 256) && decide (cfg < 2 ^ 32)
  | .ringDisable f r => decide (f < 8) && decide (r < 256)
  | .reqPiDoorbell f r v => decide (f < 8) && decide (r < 256) && decide (v < 2 ^ 32)
  | .cplCiWrite f r v => decide (f < 8) && decide (r < 256) && decide (v < 2 ^ 32)
  | .descriptorFetch f r reqAddr rspAddr reqLen rspCap tag _ => decide (f < 8) && decide (r < 256) && decide (reqAddr < 2 ^ 64) && decide (rspAddr < 2 ^ 64) && decide (reqLen < 2 ^ 32) && decide (rspCap < 2 ^ 32) && decide (tag < 2 ^ 32)
  | .hostReadCompletion f r _ _ => decide (f < 8) && decide (r < 256)
  | .ringWithdrawComplete f r => decide (f < 8) && decide (r < 256)
  | .coalesceTimerExpiry f r => decide (f < 8) && decide (r < 256)
  | .functionLevelReset f => decide (f < 8)
  | .pcieLinkDown => true
  | .pcieHotReset => true
  | .perstDeassert => true
  | .pinTranslate _ => true
  | .pinVerify _ => true
  | .pinTryReset _ => true
  | .arqcVerify _ => true
  | .macGenerate _ => true
  | .macVerify _ => true
  | .dukptIkExport _ => true
  | .cscGenerate _ => true
  | .cscVerify _ => true
  | .ff1Tokenize _ => true
  | .ff1Detokenize _ => true
  | .keyDerive _ => true
  | .batchOpen _ => true
  | .batchAppend _ => true
  | .batchClose _ => true
  | .batchAbort _ => true
  | .batchExpiry _ => true
  | .bundle _ => true
  | .customerServiceProgram _ _ ends status _ => decide (ends ≤ 2) && decide (status < 2 ^ 16)
  | .dispatch => true
  | .select n => decide (n < 9)
  | .steal n => decide (n < 9)
  | .waitLimitExpiry _ => true
  | .dispatchDeadline _ => true
  | .executionDeadline _ => true
  | .forcedQuarantineWindowClose => true
  | .spill _ => true
  | .descriptorCacheFetchComplete _ _ => true
  | .submit c off => coreNo c && decide (off < 2 ^ 22)
  | .submitStallRelease c => coreNo c
  | .cipherCompletion n _ _ finding => decide (n < 9) && decide (finding ≤ 3)
  | .cellSeedArrival n cell _ => decide (n < 9) && decide (cell < 512)
  | .reseedIntervalReached g _ => decide (g < 12)
  | .reseedLimitReached g _ => decide (g < 12)
  | .seedPacket g _ _ _ => decide (g < 12)
  | .reseedDueTimeout g => decide (g < 12)
  | .entropySourceFailure _ => true
  | .dsubmit c off => coreNo c && decide (off < 2 ^ 22)
  | .dsubmitStallRelease c => coreNo c
  | .digestCompletion n _ _ finding _ => decide (n < 9) && decide (finding ≤ 2)
  | .psubmit c off => coreNo c && decide (off < 2 ^ 22)
  | .pkCompletion n _ _ finding _ _ => decide (n < 9) && decide (finding ≤ 2)
  | .keyCacheFillComplete _ => true
  | .usesWriteback => true
  | .rolloverComplete => true
  | .tenantScrubComplete tenant => decide (tenant < 2 ^ 16)
  | .slotclaimClaim c index _ => coreNo c && decide (index < 2 ^ 32)
  | .slotclaimRelease c index => coreNo c && decide (index < 2 ^ 32)
  | .imageIntervalExpiry => true
  | .takeImage m => decide (m < 32)
  | .imageComplete _ => true
  | .zeroFillComplete => true
  | .add c _ _ _ _ _ => coreNo c
  | .sub c _ _ _ _ _ => coreNo c
  | .adds c _ _ _ _ _ => coreNo c
  | .subs c _ _ _ _ _ => coreNo c
  | .and c _ _ _ _ => coreNo c
  | .or c _ _ _ _ => coreNo c
  | .xor c _ _ _ _ => coreNo c
  | .andn c _ _ _ _ => coreNo c
  | .min c _ _ _ _ => coreNo c
  | .max c _ _ _ _ => coreNo c
  | .minu c _ _ _ _ => coreNo c
  | .maxu c _ _ _ _ => coreNo c
  | .shl c _ _ _ _ _ => coreNo c
  | .shr c _ _ _ _ _ => coreNo c
  | .sar c _ _ _ _ _ => coreNo c
  | .ror c _ _ _ _ _ => coreNo c
  | .extu c _ _ _ _ => coreNo c
  | .exts c _ _ _ _ => coreNo c
  | .ins c _ _ _ _ => coreNo c
  | .clz c _ _ _ _ _ => coreNo c
  | .popc c _ _ _ _ _ => coreNo c
  | .bswap c _ _ _ _ _ => coreNo c
  | .movi c _ _ _ => coreNo c
  | .cmp c _ pd pd2 _ _ _ _ => coreNo c && (decide (pd ≠ pd2) || decide (pd = 0))
  | .pand c _ _ _ _ => coreNo c
  | .por c _ _ _ _ => coreNo c
  | .pxor c _ _ _ _ => coreNo c
  | .pandn c _ _ _ _ => coreNo c
  | .pget c _ _ => coreNo c
  | .pset c _ _ => coreNo c
  | .muls32 c _ _ _ _ => coreNo c
  | .mulu32 c _ _ _ _ => coreNo c
  | .muls64 c _ _ _ _ => coreNo c
  | .mulu64 c _ _ _ _ => coreNo c
  | .mulComplete c => coreNo c
  | .movml c _ _ _ => coreNo c
  | .movmh c _ _ _ => coreNo c
  | .ld c _ _ _ _ _ _ _ => coreNo c
  | .st c _ _ _ _ _ _ => coreNo c
  | .xchg c _ _ _ _ _ _ => coreNo c
  | .fadd c _ _ _ _ _ _ => coreNo c
  | .br c _ _ => coreNo c
  | .brl c _ _ _ => coreNo c
  | .jr c _ _ _ => coreNo c
  | .fmac c _ _ _ _ fmt rnd _ => coreNo c && (decide (fmt = 3) || decide (rnd = 0))
  | .fmsu c _ _ _ _ fmt rnd _ => coreNo c && (decide (fmt = 3) || decide (rnd = 0))
  | .fmul c _ _ _ _ fmt rnd _ => coreNo c && (decide (fmt = 3) || decide (rnd = 0))
  | .flda c _ _ _ _ _ => coreNo c
  | .faddg c _ _ _ _ _ => coreNo c
  | .fext c _ _ _ _ _ _ _ => coreNo c
  | .frawl c _ _ _ => coreNo c
  | .frawh c _ _ _ => coreNo c
  | .fraws c _ _ _ _ => coreNo c
  | .bcopy c _ _ _ _ _ _ units => coreNo c && decide (units ≤ Ortan.allUnits)
  | .bfill c _ _ _ _ _ units => coreNo c && decide (units ≤ Ortan.allUnits)
  | .bcmpeq c _ _ _ _ _ _ _ units => coreNo c && decide (units ≤ Ortan.allUnits)
  | .calls c _ _ => coreNo c
  | .retx c _ => coreNo c
  | .fence c _ => coreNo c
  | .fenceAcl c _ => coreNo c
  | .fenceI c _ => coreNo c
  | .movcr c _ _ _ => coreNo c
  | .movrc c _ _ _ => coreNo c
  | .sgld c _ _ _ _ => coreNo c
  | .sgst c _ _ _ _ => coreNo c
  | .rdst c _ _ => coreNo c
  | .clrsat c _ => coreNo c
  | .wait c _ => coreNo c
  | .brk c _ => coreNo c
  | .udf c word => coreNo c && Ortan.isUdf word
  | .reservedEncoding c word => coreNo c && decide (Ortan.decode c word = .reservedEncoding c word)
  | .asyncBusError c _ _ => coreNo c
  | .abeDelivery c => coreNo c
  | .eventEntry c => coreNo c
  | .mhiWrite c _ => coreNo c
  | .fsLock c => coreNo c
  | .abeInfoClear c => coreNo c
  | .supervisorRestart => true
  | .eventLineRaise n line => decide (n < 9) && decide (line < 512)
  | .eventLineFall n line => decide (n < 9) && decide (line < 512)
  | .eventPresent n _ => decide (n < 9)
  | .recordWithdraw c _ => coreNo c
  | .claim c => coreNo c
  | .release c _ => coreNo c
  | .pendWrite n word _ => decide (n < 9) && decide (word < 16)
  | .holdwRequest c word => coreNo c && decide (word < 16)
  | .holdwRelease c => coreNo c
  | .holdwLimit c => coreNo c
  | .wake c => coreNo c
  | .deepSleepWake c => coreNo c
  | .deviceEventRaise _ _ => true
  | .deviceEventRecord => true
  | .aclCheck => true
  | .aclCheckComplete => true
  | .aclCommit => true
  | .aclShadowWrite off size _ => memSize size && decide (off % size = 0)
  | .aclEpoch => true
  | .aclVpop => true
  | .mpeZero _ _ => true
  | .sramPatrolScrub n word _ => decide (n < 9) && decide (word < 524288)
  | .ddrPatrolScrub line _ => decide (line % 64 = 0)
  | .remapCopyComplete _ => true
  | .memRd size addr => memSize size && decide (addr % size = 0)
  | .memWr size addr data => memSize size && decide (addr % size = 0) && decide (data < 2 ^ (8 * size))
  | .halt target => coreNo target
  | .debugResume target => coreNo target
  | .step target => coreNo target
  | .regRd target _ => coreNo target
  | .armBrk target => coreNo target
  | .dstatRd target => coreNo target
  | .extest => true
  | .idcode => true
  | .samplePreload => true
  | .clamp => true
  | .highz => true
  | .bypass => true
  | .canFrameReceive _ fd id data => decide (id < 2 ^ 29) && (if fd then decide (data.length ≤ 64) else decide (data.length ≤ 8))
  | .canReassemblyTimeout c => decide (c < 8)
  | .busOff => true
  | .busOffRecovery => true
  | .mbDoorbell f v => decide (f < 8) && decide (v < 2 ^ 32)
  | .mbAck f => decide (f < 8)
  | .mbDisable f => decide (f < 8)
  | .mgmtHello m _ => decide (m < 32)
  | .read m _ _ => decide (m < 32)
  | .write m _ => decide (m < 32)
  | .describe m _ => decide (m < 32)
  | .next m _ => decide (m < 32)
  | .begin m => decide (m < 32)
  | .commit m => decide (m < 32)
  | .configStoreWritten _ => true
  | .channelInstallCommit n => decide (n < 9)
  | .rollback m => decide (m < 32)
  | .txnStatus m => decide (m < 32)
  | .poll m => decide (m < 32)
  | .txnInactivityExpiry m => decide (m < 32)
  | .txnLifetimeExpiry m => decide (m < 32)
  | .linkBlock p fec _ => decide (p < 3) && decide (fec ≤ 2)
  | .portSignalDetect p => decide (p < 3)
  | .trainingComplete p _ _ => decide (p < 3)
  | .alignLock p => decide (p < 3)
  | .lhello p _ _ _ _ _ _ _ _ => decide (p < 3)
  | .measureComplete p => decide (p < 3)
  | .bringupStepTimeout p => decide (p < 3)
  | .laneLossOfLock p => decide (p < 3)
  | .linkRekey p => decide (p < 3)
  | .lhelloRefresh p => decide (p < 3)
  | .time p _ _ _ _ => decide (p < 3)
  | .timeExchangeTimer p => decide (p < 3)
  | .topo p _ => decide (p < 3)
  | .topoTimer => true
  | .advert p _ => decide (p < 3)
  | .advertTimer => true
  | .spillReq p _ _ => decide (p < 3)
  | .spillRsp p _ _ => decide (p < 3)
  | .spillReturn p _ => decide (p < 3)
  | .alarm p _ _ _ _ _ _ => decide (p < 3)
  | .mgmt p _ _ _ _ => decide (p < 3)
  | .mgmtReassemblyTimeout p => decide (p < 3)
  | .stage p _ _ _ _ => decide (p < 3)
  | .prepare p _ _ _ _ _ _ => decide (p < 3)
  | .vote p _ _ _ _ => decide (p < 3)
  | .decide p _ _ _ _ _ => decide (p < 3)
  | .domainAck p _ _ => decide (p < 3)
  | .query p _ _ => decide (p < 3)
  | .outcome p _ _ => decide (p < 3)
  | .sync _ _ _ _ _ _ _ => true
  | .prepareTimeout _ => true
  | .decideResend _ => true
  | .queryTimer _ => true
  | .decisionWaitTimeout => true
  | .abandonDtxn m _ => decide (m < 32)
  | .alarmReport a sdata => decide (a ≤ 0x24) && decide (sdata.length ≤ 16)
  | .decisionWindowClose => true
  | .alarmDeassert a => decide (a ≤ 0x24)
  | .holdTimeExpiry a => decide (a ≤ 0x24)
  | .endResponseWrite m a => decide (m < 32) && decide (a ≤ 0x24)
  | .eraseReadback _ => true
  | .armaturePatternPeriod _ => true
  | .armatureRcMeasure g _ _ => decide (g < 32)
  | .detectorSelfTest a _ => decide (a ≤ 0x24)
  | .tampInSample n _ _ => decide (n < 4)
  | .unpoweredSample _ _ _ => true
  | .mainPowerFail => true
  | .patinaBufferWrite n => decide (0 < n)
  | .patinaPageProgram _ => true
  | .patinaPadTimeout _ => true
  | .checkpointIntervalExpiry => true
  | .checkpointNow m => decide (m < 32)
  | .checkpointRead m => decide (m < 32)
  | .checkpointAck m _ => decide (m < 32)
  | .blockRecycle => true
  | .chainVerify _ => true
  | .program => true
  | .erase => true
  | .suspend => true
  | .resume => true
  | .blankCheck => true
  | .flashCommandComplete _ _ => true
  | .flashUnitRead _ _ => true
  | .flashScrub => true
  | .resetRelease _ => true
  | .keystoreWaitRetry _ => true
  | .trialExpiry => true
  | .revert m => decide (m < 32)
  | .sdCardInsert _ _ => true
  | .sdCardRemove => true
  | .sdBusyTimeout => true
  | .sdSleep => true
  | .format m => decide (m < 32)
  | .keyStoreBackup m => decide (m < 32)
  | .clearTmpWriteProtect m => decide (m < 32)
  | .recoverySet m => decide (m < 32)
  | .patinaExport m _ => decide (m < 32)
  | .applyAcknowledgements m => decide (m < 32)
  | .setWriteComplete => true
  | .officerCardInsert k _ _ _ _ => decide (k < 2)
  | .officerCardRemove k => decide (k < 2)
  | .cardResponse k _ sw => decide (k < 2) && decide (sw < 2 ^ 16)
  | .parameterRecordWrite m _ => decide (m < 32)
  | .mkGenerate m => decide (m < 32)
  | .mkCombine m => decide (m < 32)
  | .mkRollover m => decide (m < 32)
  | .zeroize m => decide (m < 32)
  | .reinit m => decide (m < 32)
  | .decommission m => decide (m < 32)
  | .debugUnlock m => decide (m < 32)
  | .endResponse m => decide (m < 32)
  | .keyGenerate m => decide (m < 32)
  | .keyComponents m => decide (m < 32)
  | .publicLoad m => decide (m < 32)
  | .restore m => decide (m < 32)
  | .rosterChange m => decide (m < 32)
  | .ceremonyCancel m => decide (m < 32)
  | .ceremonyTimeout => true
  | .counterClear m _ => decide (m < 32)
  | .selfTestRequest m n => decide (m < 32) && decide (n < 9)
  | .urgentSelfTest m n => decide (m < 32) && decide (n < 9)
  | .releaseQuarantine m n => decide (m < 32) && decide (n < 9)
  | .quarantineTestStart n => decide (n < 9)
  | .sharedBlockTestSlice block _ _ _ => decide (block < 11)
  | .stateDivergence group unit => decide (group < 4) && decide (unit < 9)
  | .railSample _ => true
  | .temperatureSample _ => true
  | .batteryVoltageSample _ => true
  | .batteryLoadTest _ _ => true
  | .newCell m => decide (m < 32)
  | .sysRstAssert _ => true
  | .registerWrite _ addr size v => memSize size && decide (addr % size = 0) && decide (v < 2 ^ (8 * size))
  | .reencryptionComplete _ => true
  | .mpeZeroComplete => true
  | .pcieTrainingComplete _ _ => true
  | .cardBusyRelease => true
  | .partnerWaitExpiry => true
  | .referenceClockPresent _ => true
  | .supplyRecheck _ => true
  | .plinthFirmwareRestart => true
  | .almNAssertionExpiry => true
  | .tapReset => true
  | .waitingTimeExpiry k => decide (k < 2)

end Sys2Proof
end

