-- ==== Sys2Proof/Certificates/Slice0/Obligations.lean ====
section
/-! DEFINITION. The statements for the provers, chapter by chapter: what each command does, when it completes and what it
leaves alone; the steps of the whole part; and the encoding of the Ortan instructions. -/

open Sys2Proof Sys2Proof.Machine

/-- R19, R20: a frame that authenticates is delivered, its counter advances, and its sender keeps it for replay; one
whose CRC fails is asked for again; loss of lock starts a retrain, whose success brings the link up and whose third
failure within 10 ms leaves it FAILED. R21: two of three clear-keys lines clear what L3 clears on the main die; lines
that do not agree raise alarm 0x16. -/
def Obligations.ClearKeysAndLink : Prop :=
  ((∀ header payload tag s, s.plink.state = .up →
    linkTag (leBytes 32 s.plink.linkKey.toNat) true s.plink.main.rxCtr header
      (linkCrypt (leBytes 32 s.plink.linkKey.toNat) true s.plink.main.rxCtr payload) = tag →
    Does (.plinthLinkFrame true true header payload tag) s (fun t =>
      t.plink.main.delivered = s.plink.main.delivered ++ [payload] ∧ t.plink.main.rxCtr = s.plink.main.rxCtr + 1 ∧
      t.plink.plinth.replay = (payload :: s.plink.plinth.replay).take 64 ∧
      t.plink.plinth.delivered = s.plink.plinth.delivered ∧ t = { s with plink := t.plink })) ∧
  (∀ header payload tag s, s.plink.state = .up →
    linkTag (leBytes 32 s.plink.linkKey.toNat) false s.plink.plinth.rxCtr header
      (linkCrypt (leBytes 32 s.plink.linkKey.toNat) false s.plink.plinth.rxCtr payload) = tag →
    Does (.plinthLinkFrame false true header payload tag) s (fun t =>
      t.plink.plinth.delivered = s.plink.plinth.delivered ++ [payload] ∧ t.plink.plinth.rxCtr = s.plink.plinth.rxCtr + 1 ∧
      t.plink.main.replay = (payload :: s.plink.main.replay).take 64 ∧
      t.plink.main.delivered = s.plink.main.delivered ∧ t = { s with plink := t.plink })) ∧
  (∀ toMain header payload tag s, s.plink.state = .up →
    Does (.plinthLinkFrame toMain false header payload tag) s (fun t =>
      t.out = .plink 1 [] :: s.out ∧ t.plink.main = s.plink.main ∧ t.plink.plinth = s.plink.plinth)) ∧
  (∀ s, s.plink.state = .up →
    Does .plinthLinkLockLoss s (fun t =>
      t.plink.state = .retrain ∧ t.plink.main = s.plink.main ∧ t.plink.plinth = s.plink.plinth ∧ Latched t 0x8071)) ∧
  (∀ s, s.plink.state = .retrain →
    Does (.plinthLinkRetrainComplete true) s (fun t =>
      t.plink = { s.plink with state := .up } ∧ t = { s with plink := t.plink })) ∧
  (∀ s, s.plink.state = .retrain → 3 ≤ s.plink.retrains → s.time < s.plink.windowStart + 10000000 →
    Does (.plinthLinkRetrainComplete false) s (fun t => t.plink = { s.plink with state := .failed }))) ∧
  ((∀ l0 l1 l2 s, 2 ≤ (ClearLines.mk l0 l1 l2).count →
    exec (.clearKeysAssert l0 l1 l2) s =
      .next (clearFrieze (closeMgmt false (clearWorking 0x0F04 5 { s with clear := ⟨l0, l1, l2⟩ })))) ∧
  (∀ l0 l1 l2 s, watching s = true → (ClearLines.mk l0 l1 l2).count = 1 ∨ (ClearLines.mk l0 l1 l2).count = 2 →
    Does (.clearLineDisagreement l0 l1 l2) s (fun t =>
      (t.alarm 0x16).state = .active ∧ t.clear = ⟨l0, l1, l2⟩ ∧
      ∃ a w b c o h d, t = { s with clear := t.clear, alarms := a, window := w, batt := b, ctr := c, ovf := o, health := h, devEv := d })))

/-- R23 to R29, R592 to R595: the moves of the rest role, as changes of the channels' states. -/
def Obligations.ChannelMoves : Prop :=
  (∀ s r, s.rest.channel = r → r < 9 → healthyCount s = 9 → (s.chan r).data = .restStandby → s.rest.next = none →
    s.supRestarting = false → s.rest.start + s.rest.period * 1000000000 ≤ s.time → restTarget s ≠ r → haltedCore s r = false →
    Does .restPeriodExpiry s (fun t => (t.chan r).data = .returning ∧ ∀ j, j ≠ r → (t.chan j).data = (s.chan j).data)) ∧
  (∀ n s, (s.chan n).data = .draining → runningOn s n = [] → drainsForBank s n = false → haltedCore s n = false →
    Does (.drainComplete n) s (fun t =>
      (t.chan n).data = .restTest ∧ (t.chan n).testPhase = 1 ∧ t.rest.channel = n ∧ t.rest.start = t.time ∧
      ∀ j, j ≠ n → (t.chan j).data = (s.chan j).data)) ∧
  (∀ n k s, (s.chan n).data = .returning → k ≠ n → (s.chan k).data = .inService → s.rest.next = some k →
    haltedCore s n = false → haltedCore s k = false →
    Does (.returnComplete n) s (fun t =>
      (t.chan n).data = .inService ∧ (t.chan k).data = .draining ∧
      ∀ j, j ≠ n → j ≠ k → (t.chan j).data = (s.chan j).data)) ∧
  (∀ n s, (s.chan n).data = .restTest → (s.chan n).testPhase ≠ 0 → (s.chan n).spareRows ≤ 64 → haltedCore s n = false →
    8 ≤ serviceCount s → s.life.act = 0 → s.rest.reqUrgent = none →
    Does (.selfTestComplete n 0 0 [] [] []) s (fun t =>
      (t.chan n).data = .restStandby ∧ ∀ j, j ≠ n → (t.chan j).data = (s.chan j).data)) ∧
  (∀ n phase s, (s.chan n).data = .restTest → (s.chan n).abandon = true → (s.chan n).lastPassed = true → haltedCore s n = false →
    Does (.selfTestAbandon n phase) s (fun t =>
      (t.chan n).data = .returning ∧ ∀ j, j ≠ n → (t.chan j).data = (s.chan j).data))

/-- R27, R26: a channel of the part enters QUARANTINE by the shared operation, and a request over its budget whose
response is not written ends with 0x0503. R186: while a channel is in service, an assignment of homes leaves every
configured queue of C1 to C3 with a home in service, and moves no channel. -/
def Obligations.ChannelDuties : Prop :=
  ((∀ n s, n < 9 → exec (.channelQuarantine n) s = .next (quarantineChannel n s)) ∧
  (∀ r q s n c, s.req? r = some q → q.stage = .running n (some c) → q.ready = false →
    exec (.budgetOverrun r) s = .next (endRequest r 0x0503 s))) ∧
  (∀ s, s.supRestarting = false → (∃ n, n < 9 ∧ (s.chan n).data = .inService) →
    Does .homeQueueAssign s (fun t =>
      (∀ qn, qn ∈ s.qm.queues.map (·.1) → queueValid (s.queue qn) = true → queueClass (s.queue qn) ≠ 0 →
        (s.chan (t.queue qn).channel).data = .inService) ∧
      (∀ j, (t.chan j).data = (s.chan j).data) ∧ t = { s with qm := t.qm, chans := t.chans }))

/-- R65: a port answers an ARP request and a neighbour solicitation for its own address, and an echo request while its
entry allows it; nothing else changes. R65, R85, R585: a frame with a good check sequence on a port that is up goes to
its network protocol, one with a bad one is judged as an event of source 0x0C; a link that goes down or comes up
changes its port and raises the port's device event; responses held over the limit of OD 0x102n.06 are dropped. -/
def Obligations.NetworkPorts : Prop :=
  ((∀ port mac ip target s, ownIp4 s port = some target →
    Does (.arpRequest port mac ip target) s (fun t =>
      t = { s with out := .netReply port 0 (beBytes 6 mac ++ beBytes 4 ip ++ beBytes 4 target) :: s.out })) ∧
  (∀ port mac ip target s, ownIp6 s port = some target →
    Does (.neighbourSolicitation port mac ip target) s (fun t =>
      t = { s with out := .netReply port 1 (beBytes 6 mac ++ beBytes 16 (ip % 2 ^ 128) ++ beBytes 16 (target % 2 ^ 128)) :: s.out })) ∧
  (∀ port mac ip target data s, isOwn s port target = true → s.cfgB (0x1020 + port) 7 = true → ip < 2 ^ 32 →
    Does (.icmpEcho port mac ip target data) s (fun t =>
      t = { s with out := .netReply port 2 (beBytes 6 mac ++ beBytes 4 ip ++ data) :: s.out }))) ∧
  ((∀ port frame b s, port < 4 → (s.port port).up = true → untag s port frame = some (0x0800, b) → 14 ≤ frame.length →
    exec (.ethFrameReceive port true frame) s = .next (ip4In port (beAt frame 6 6) b s)) ∧
  (∀ port frame b s, port < 4 → (s.port port).up = true → untag s port frame = some (0x86DD, b) → 14 ≤ frame.length →
    exec (.ethFrameReceive port true frame) s = .next (ip6In port (beAt frame 6 6) b s)) ∧
  (∀ p s, p < 4 → (s.port p).up = true →
    Does (.ethLinkDown p) s (fun t =>
      (t.port p).up = false ∧ (t.port p).mgmtUp = false ∧ (t.port p).held = (s.port p).held ∧ Latched t (0x8058 + p) ∧
      ∃ c o h d, t = { s with eth := t.eth, ctr := c, ovf := o, health := h, devEv := d })) ∧
  (∀ p s, p < 4 → (s.port p).up = false → (s.port p).disabled = false → (s.port p).held = [] →
    Does (.ethLinkUp p) s (fun t =>
      (t.port p).up = true ∧ (t.port p).mgmtUp = true ∧ Latched t (0x8058 + p) ∧
      ∃ c o h d, t = { s with eth := t.eth, ctr := c, ovf := o, health := h, devEv := d })) ∧
  (∀ p s, p < 4 →
    Does (.linkDownHoldExpiry p) s (fun t =>
      (t.port p).held = (s.port p).held.filter (fun h => !decide (h.since + s.cfg (0x1020 + p) 6 * 1000 ≤ s.time)) ∧
      (t.port p).up = (s.port p).up ∧ ∃ c o h d, t = { s with eth := t.eth, ctr := c, ovf := o, health := h, devEv := d })))

/-- R60 to R62: an Ethernet HELLO that the part can serve makes a session in HANDSHAKE and an internal request for its
reply; a CONFIRM whose signature verifies opens the session, and CONFIRM_ACK leaves. -/
def Obligations.SessionHandshake : Prop :=
  (∀ p body s k s', helloGood body = true → helloRefused s = none → s.sessions.length < 4096 →
    (s.sessions.filter (fun e => e.2.state = .handshake && e.2.port = p.port)).length < s.cfg (0x1020 + p.port) 8 →
    peerKey (leAt body 4 4) s = (.ok k, s') →
    Does (.hello p body) s (fun t =>
      (∃ se, t.session? (freshSid s') = some se ∧ se.state = .handshake ∧ se.hello = body ∧ se.tenant = k.tenant ∧
        se.port = p.port ∧ se.peerIp = p.ip ∧ se.peerUdp = p.udp) ∧
      t.qm.internal = s'.qm.internal ++ [firstFree s'.reqs 0] ∧
      t = { s' with sessions := t.sessions, reqs := t.reqs, qm := t.qm, free := s'.free + 1 })) ∧
  (∀ p sid seq body tag s k, s.session? sid = some k → k.state = .handshake → k.reasm = none → seqOk k.rxHigh k.rxSeen seq = true →
    tagOk k.keyIn k.ivIn 3 0 sid seq (gcmCrypt k.keyIn (k.ivIn ++ leBytes 8 seq) body) tag = true → confirmGood k body s = true →
    Does (.confirm p sid seq body tag) s (fun t =>
      (∃ k', t.session? sid = some k' ∧ k'.state = .open ∧ k'.opened = s.time ∧ k'.txSeq = k.txSeq + 1 ∧ k'.lastRx = s.time) ∧
      (∃ b, t.out = .frame k.port sid 4 (k.txSeq + 1) k.rekeyDue b :: s.out) ∧
      t = { s with sessions := t.sessions, out := t.out }))

/-- R57 to R59, R63: a DATA frame in its SEQ window that authenticates has its records taken in order; CLOSE ends the
session; KEEPALIVE only notes the frame. R60, R63, R67: the times of a session. -/
def Obligations.SessionTraffic : Prop :=
  ((∀ p sid seq body tag s k, s.session? sid = some k → k.state = .open → k.reasm = none → seqOk k.rxHigh k.rxSeen seq = true →
    tagOk k.keyIn k.ivIn 0x10 0 sid seq (gcmCrypt k.keyIn (k.ivIn ++ leBytes 8 seq) body) tag = true →
    exec (.data p sid seq body tag) s = .next (dataIn p sid seq body (s.setSession sid (k.noteSeq seq s.time)))) ∧
  (∀ p sid seq body tag s k, s.session? sid = some k → k.state = .open → k.reasm = none → seqOk k.rxHigh k.rxSeen seq = true →
    tagOk k.keyIn k.ivIn 0x20 0 sid seq (gcmCrypt k.keyIn (k.ivIn ++ leBytes 8 seq) body) tag = true →
    Does (.close p sid seq body tag) s (fun t =>
      t.session? sid = none ∧ (∀ i, i ≠ sid → t.session? i = s.session? i) ∧ t = { s with sessions := t.sessions })) ∧
  (∀ p sid seq tag s k, s.session? sid = some k → k.state = .open → k.reasm = none → seqOk k.rxHigh k.rxSeen seq = true →
    tagOk k.keyIn k.ivIn 0x21 0 sid seq (gcmCrypt k.keyIn (k.ivIn ++ leBytes 8 seq) []) tag = true →
    Does (.keepalive p sid seq tag) s (fun t =>
      t = s.setSession sid (k.noteSeq seq s.time) ∧ (k.noteSeq seq s.time).rxHigh = Nat.max k.rxHigh seq ∧
      (k.noteSeq seq s.time).lastRx = s.time))) ∧
  ((∀ sid s k, s.session? sid = some k → k.state = .handshake → k.helloReply ≠ [] → k.opened + 1000000000 ≤ s.time →
    Does (.confirmTimeout (.eth sid)) s (fun t => t.session? sid = none ∧ t = { s with sessions := t.sessions })) ∧
  (∀ sid s k no c n t0 nx, s.session? sid = some k → k.reasm = some (no, c, n, t0, nx) → t0 + 1000000 ≤ s.time →
    Does (.reassemblyTimeout sid) s (fun t =>
      t.session? sid = some { k with reasm := none } ∧
      ∃ c o h d, t = { s with sessions := t.sessions, ctr := c, ovf := o, health := h, devEv := d })) ∧
  (∀ sid s k, s.session? sid = some k → k.state = .open → k.lastRx + s.cfg 0x1028 2 * 1000000000 ≤ s.time →
    Does (.sessionIdleTimeout (.eth sid)) s (fun t => t.session? sid = none ∧ t = { s with sessions := t.sessions })) ∧
  (∀ sid s k, s.session? sid = some k → k.state = .open → k.opened + s.cfg 0x1028 1 * 1000000000 ≤ s.time + 60000000000 →
    Does (.rekeyDue (.eth sid)) s (fun t =>
      t.session? sid = some { k with rekeyDue := true } ∧ t = { s with sessions := t.sessions })) ∧
  (∀ sid s k, s.session? sid = some k → k.state = .open → k.opened + s.cfg 0x1028 1 * 1000000000 ≤ s.time →
    Does (.sessionLifetimeEnd (.eth sid)) s (fun t =>
      t.session? sid = some { k with state := .ended, endedAt := s.time, txSeq := k.txSeq + 1 } ∧
      (∃ b, t.out = .frame k.port sid 0x20 (k.txSeq + 1) k.rekeyDue b :: s.out) ∧
      t = { s with sessions := t.sessions, out := t.out })) ∧
  (∀ sid s k, s.session? sid = some k → k.state = .ended → k.endedAt + 1000000000 ≤ s.time →
    Does (.sessionGraceEnd (.eth sid)) s (fun t => t.session? sid = none ∧ t = { s with sessions := t.sessions })) ∧
  (∀ m s k, s.mgSess m = some k → k.handshake = true → k.openedAt + 1000000000 ≤ s.time →
    Does (.confirmTimeout (.mgmt m)) s (fun t => t.mgSess m = none ∧ t = { s with mgmt := t.mgmt, ks := t.ks })))

/-- R35: the response of a request whose program has written it leaves through the egress assembler, with the cycles
of its run. -/
def Obligations.RespondAnswers : Prop :=
  ∀ r cycles s q n c, s.req? r = some q → q.stage = .running n c → q.ready = true →
    (∀ ring a b, q.via ≠ .internal ring a b) →
    exec (.respond r cycles) s = .next (answer r q.status q.detail q.response (s.setReq r { q with cycles := cycles }))

/-- R69 to R76, R78: enabling, withdrawing and stopping a ring pair; its doorbells; the fetch of a descriptor and of
the frame it names; the coalescing timer. R78, R437, R539, Table 02-17: events of the PCIe endpoint withdraw the ring
pairs and close the mailboxes they reach, and raise device event 0x8060. -/
def Obligations.RingsAndFunctions : Prop :=
  ((∀ f r cfg s, f < 8 → r < 256 → (s.ring f r).state = .disabled → bit cfg 31 = true →
    ringConfigGood s f cfg (s.ring f r).reqBase (s.ring f r).cplBase = true →
    Does (.ringEnable f r cfg) s (fun t =>
      (t.ring f r).state = .openNoKey ∧ (t.ring f r).cfgIn = cfg % 2 ^ 32 ∧ (t.ring f r).reqPi = 0 ∧ (t.ring f r).reqCi = 0 ∧
      (t.ring f r).cplPi = 0 ∧ (t.ring f r).cplCi = 0 ∧ (t.ring f r).session = none ∧ (t.ring f r).error = 0 ∧
      t = { s with rings := t.rings })) ∧
  (∀ f r cfg s, f < 8 → r < 256 → (s.ring f r).state = .disabled → bit cfg 31 = true →
    ringConfigGood s f cfg (s.ring f r).reqBase (s.ring f r).cplBase = false →
    Does (.ringEnable f r cfg) s (fun t =>
      (t.ring f r).state = .stopped ∧ (t.ring f r).error = 4 ∧ t = { s with rings := t.rings, out := t.out })) ∧
  (∀ f r s, (s.ring f r).state = .open → ringReqs s f r = [] →
    Does (.ringDisable f r) s (fun t =>
      (t.ring f r).state = .withdrawing ∧ (t.ring f r).session = none ∧ bit (t.ring f r).cfg 31 = false ∧
      t = { s with rings := t.rings })) ∧
  (∀ f r v s, f < 8 → r < 256 → ringLive (s.ring f r).state = true →
    (v % 2 ^ 32 + 2 ^ 32 - (s.ring f r).reqCi) % 2 ^ 32 ≤ ringSize (s.ring f r).cfgIn →
    Does (.reqPiDoorbell f r v) s (fun t =>
      t = s.setRing f r { s.ring f r with reqPi := v % 2 ^ 32 })) ∧
  (∀ f r v s, f < 8 → r < 256 → ringLive (s.ring f r).state = true →
    ringSize (s.ring f r).cfgIn < (v % 2 ^ 32 + 2 ^ 32 - (s.ring f r).reqCi) % 2 ^ 32 →
    Does (.reqPiDoorbell f r v) s (fun t =>
      (t.ring f r).state = .stopped ∧ (t.ring f r).error = 1 ∧ t.out = .msix f (bits (s.ring f r).cfgIn 24 16) :: s.out ∧
      t = { s with rings := t.rings, out := t.out })) ∧
  (∀ f r v s, f < 8 → r < 256 → ringLive (s.ring f r).state = true →
    ((s.ring f r).cplPi + 2 ^ 32 - v % 2 ^ 32) % 2 ^ 32 < 2 ^ 31 →
    Does (.cplCiWrite f r v) s (fun t => t = s.setRing f r { s.ring f r with cplCi := v % 2 ^ 32 })) ∧
  (∀ f r ra rsp len cap tag s, mayFetch (s.ring f r) = true → ra % 8 = 0 → rsp % 8 = 0 → 40 ≤ len → len ≤ 16496 →
    Does (.descriptorFetch f r ra rsp len cap tag true) s (fun t =>
      t.out = .hostRead f ra len :: s.out ∧ (t.ring f r).fetched = (s.ring f r).fetched ++ [(tag, ra, len, rsp, cap)] ∧
      (t.ring f r).reqCi = ((s.ring f r).reqCi + 1) % 2 ^ 32 ∧ (t.ring f r).reserved = (s.ring f r).reserved + 1 ∧
      t = { s with rings := t.rings, out := t.out })) ∧
  (∀ f r frame s tag ra len addr cap rest, (s.ring f r).fetched = (tag, ra, len, addr, cap) :: rest → ringLive (s.ring f r).state = true →
    exec (.hostReadCompletion f r true frame) s =
      .next (ringFrameIn f r tag addr cap frame (s.setRing f r { s.ring f r with fetched := rest }))) ∧
  (∀ f r s, (s.ring f r).state = .withdrawing → ringReqs s f r = [] →
    Does (.ringWithdrawComplete f r) s (fun t =>
      (t.ring f r).state = .disabled ∧ (t.ring f r).error = 0 ∧ t = { s with rings := t.rings })) ∧
  (∀ f r s, (s.ring f r).unsignalled ≠ 0 → bits (s.ring f r).cfgIn 11 8 ≠ 0 →
    (s.ring f r).oldest + bits (s.ring f r).cfgIn 11 8 * 1000 ≤ s.time →
    Does (.coalesceTimerExpiry f r) s (fun t =>
      t.out = .msix f (bits (s.ring f r).cfgIn 24 16) :: s.out ∧ t.rings = (s.setRing f r { s.ring f r with unsignalled := 0 }).rings ∧
      t = { s with rings := t.rings, out := t.out }))) ∧
  ((∀ f s, f < 8 → Does (.functionLevelReset f) s (fun t =>
    t = devEvent 0x8060 f (closeMailbox f (withdrawFunction f s)) ∧ Latched t 0x8060)) ∧
  (∀ s, Does .pcieLinkDown s (fun t => Latched t 0x8060 ∧
    t = devEvent 0x8060 0xFF (withdrawAllRings { s with pcie := { s.pcie with up := false, mgmtUp := false, training := false } }))) ∧
  (∀ s, Does .pcieHotReset s (fun t => Latched t 0x8060 ∧
    t = devEvent 0x8060 0xFF (withdrawAllRings { s with pcie := { s.pcie with up := false, mgmtUp := false, training := true } }))) ∧
  (∀ s, s.pcie.perst = true → Does .perstDeassert s (fun t =>
    t = { s with pcie := { s.pcie with perst := false, training := true } })))

/-- R33, R94: a service that runs on a channel to its end writes the response of its program; its request then waits
for RESPOND with status 0. -/
def Obligations.ServicesAnswer : Prop :=
  (∀ r n q p s s', Serving s r 0x0101 n q → pinTranslate n q s = .ok p s' →
    Does (.pinTranslate r) s (fun t => t = s'.modReq r (fun q => { q with status := 0, detail := 0, response := p, ready := true }))) ∧
  (∀ r n q p s s', Serving s r 0x0102 n q → pinVerify n q s = .ok p s' →
    Does (.pinVerify r) s (fun t => t = s'.modReq r (fun q => { q with status := 0, detail := 0, response := p, ready := true }))) ∧
  (∀ r n q p s s', Serving s r 0x0201 n q → arqcVerify n q s = .ok p s' →
    Does (.arqcVerify r) s (fun t => t = s'.modReq r (fun q => { q with status := 0, detail := 0, response := p, ready := true }))) ∧
  (∀ r n q p s s', Serving s r 0x0301 n q → macService false n q s = .ok p s' →
    Does (.macGenerate r) s (fun t => t = s'.modReq r (fun q => { q with status := 0, detail := 0, response := p, ready := true }))) ∧
  (∀ r n q p s s', Serving s r 0x0302 n q → macService true n q s = .ok p s' →
    Does (.macVerify r) s (fun t => t = s'.modReq r (fun q => { q with status := 0, detail := 0, response := p, ready := true }))) ∧
  (∀ r n q p s s', Serving s r 0x0401 n q → dukptIkExport n q s = .ok p s' →
    Does (.dukptIkExport r) s (fun t => t = s'.modReq r (fun q => { q with status := 0, detail := 0, response := p, ready := true }))) ∧
  (∀ r n q p s s', Serving s r 0x0501 n q → cscService false n q s = .ok p s' →
    Does (.cscGenerate r) s (fun t => t = s'.modReq r (fun q => { q with status := 0, detail := 0, response := p, ready := true }))) ∧
  (∀ r n q p s s', Serving s r 0x0502 n q → cscService true n q s = .ok p s' →
    Does (.cscVerify r) s (fun t => t = s'.modReq r (fun q => { q with status := 0, detail := 0, response := p, ready := true }))) ∧
  (∀ r n q p s s', Serving s r 0x0601 n q → ff1Service true n q s = .ok p s' →
    Does (.ff1Tokenize r) s (fun t => t = s'.modReq r (fun q => { q with status := 0, detail := 0, response := p, ready := true }))) ∧
  (∀ r n q p s s', Serving s r 0x0602 n q → ff1Service false n q s = .ok p s' →
    Does (.ff1Detokenize r) s (fun t => t = s'.modReq r (fun q => { q with status := 0, detail := 0, response := p, ready := true }))) ∧
  (∀ r n q p s s', Serving s r 0x0701 n q → keyDerive n q s = .ok p s' →
    Does (.keyDerive r) s (fun t => t = s'.modReq r (fun q => { q with status := 0, detail := 0, response := p, ready := true }))) ∧
  (∀ r n q p s s', Serving s r 0x0803 n q → batchClose r n q s = .ok p s' →
    Does (.batchClose r) s (fun t => t = s'.modReq r (fun q => { q with status := 0, detail := 0, response := p, ready := true }))) ∧
  (∀ r n q p s s', Serving s r 0x0A01 n q → bundleService n q s = .ok p s' →
    Does (.bundle r) s (fun t => t = s'.modReq r (fun q => { q with status := 0, detail := 0, response := p, ready := true })))

/-- R95, R100, R113, R118: layouts of the responses of services that reach their end. -/
def Obligations.ServiceResponses : Prop :=
  (∀ n q s p s', pinTranslate n q s = .ok p s' →
    p.length = 24 ∧ slice p 16 1 = slice q.payload 1 1 ∧ allZero (slice p 17 7) = true) ∧
  (∀ n q s p s', macService true n q s = .ok p s' → p.length = 8 ∧ leAt p 0 1 ≤ 1 ∧ allZero (p.drop 1) = true) ∧
  (∀ n q s p s', macService false n q s = .ok p s' →
    p.length = 24 ∧ leAt p 0 1 = leAt q.payload 2 1 ∧ allZero (slice p (8 + leAt q.payload 2 1) (16 - leAt q.payload 2 1)) = true) ∧
  (∀ n q s p s', cscService true n q s = .ok p s' → p.length = 8 ∧ leAt p 0 1 ≤ 1 ∧ allZero (p.drop 1) = true)

/-- R107: PIN_TRY_RESET removes the try count of its tenant's index and answers with the count before; it uses no key
and changes nothing else. R127, R128, R131: the life of a settlement batch. -/
def Obligations.TryCountersAndBatches : Prop :=
  (∀ r n q s, Serving s r 0x0103 n q → q.payload.length = 8 → allZero (slice q.payload 4 4) = true →
    Does (.pinTryReset r) s (fun t =>
      t.tryCount (tryKey q.hdr.tenant (leAt q.payload 0 4)) = 0 ∧
      (∀ k, k ≠ tryKey q.hdr.tenant (leAt q.payload 0 4) → t.tryCount k = s.tryCount k) ∧
      (∃ q', t.req? r = some q' ∧ q'.ready = true ∧ q'.status = 0 ∧
        q'.response = leBytes 1 (s.tryCount (tryKey q.hdr.tenant (leAt q.payload 0 4))) ++ zeros 7) ∧
      t = { s with svc := t.svc, reqs := t.reqs })) ∧
  ((∀ r n q s, Serving s r 0x0801 n q → q.payload.length = 16 → s.svc.batches.length < 4096 →
    (s.svc.batches.filter (fun e => e.2.tenant = q.hdr.tenant)).length < s.cfg 0x4121 2 →
    Does (.batchOpen r) s (fun t =>
      (∃ b, t.batch? (firstFree s.svc.batches 1) = some b ∧ b.tenant = q.hdr.tenant ∧ b.ref = q.payload ∧ b.appends = 0 ∧
        b.bytes = 0 ∧ b.data = [] ∧ b.tOpen = s.time) ∧
      firstFree s.svc.batches 1 ≠ 0 ∧
      (∃ q', t.req? r = some q' ∧ q'.status = 0 ∧
        q'.response = leBytes 4 (firstFree s.svc.batches 1) ++ zeros 4 ++ leBytes 8 s.time) ∧
      t = { s with svc := t.svc, reqs := t.reqs })) ∧
  (∀ r n q b s, Serving s r 0x0802 n q →
    q.payload.length = 16 + pad8 (leAt q.payload 8 2) → allZero (slice q.payload 10 6) = true →
    allZero (slice q.payload (16 + leAt q.payload 8 2) (pad8 (leAt q.payload 8 2) - leAt q.payload 8 2)) = true →
    0 < leAt q.payload 8 2 → leAt q.payload 8 2 ≤ 16368 → s.batch? (leAt q.payload 0 4) = some b → b.tenant = q.hdr.tenant →
    b.busy = none → leAt q.payload 4 4 = b.appends + 1 →
    Does (.batchAppend r) s (fun t =>
      (∃ b', t.batch? (leAt q.payload 0 4) = some b' ∧ b'.appends = b.appends + 1 ∧ b'.bytes = b.bytes + leAt q.payload 8 2 ∧
        b'.data = b.data ++ slice q.payload 16 (leAt q.payload 8 2) ∧ b'.ref = b.ref ∧ b'.tOpen = b.tOpen) ∧
      (∃ q', t.req? r = some q' ∧ q'.status = 0 ∧
        q'.response = leBytes 4 (b.appends + 1) ++ zeros 4 ++ leBytes 8 (b.bytes + leAt q.payload 8 2)) ∧
      t = { s with svc := t.svc, reqs := t.reqs })) ∧
  (∀ r n q b s, Serving s r 0x0804 n q → q.payload.length = 8 → allZero (slice q.payload 4 4) = true →
    s.batch? (leAt q.payload 0 4) = some b → b.tenant = q.hdr.tenant → b.busy = none →
    Does (.batchAbort r) s (fun t =>
      t.batch? (leAt q.payload 0 4) = none ∧ (∃ q', t.req? r = some q' ∧ q'.status = 0 ∧ q'.response = []) ∧
      t = { s with svc := t.svc, reqs := t.reqs })) ∧
  (∀ h b s, s.batch? h = some b → b.busy = none → b.last + s.cfg 0x4121 1 * 1000000000 ≤ s.time →
    Does (.batchExpiry h) s (fun t =>
      t.batch? h = none ∧ (∀ i, i ≠ h → t.batch? i = s.batch? i) ∧ t = { s with svc := t.svc })))

/-- R128: a request for a batch that another request is already using, be it an append, a close or an abort, and an
append out of order, are refused and have no effect but their answer. -/
def Obligations.BatchOneAtATime : Prop :=
  (∀ r n q b o s, Serving s r 0x0802 n q →
    q.payload.length = 16 + pad8 (leAt q.payload 8 2) → allZero (slice q.payload 10 6) = true →
    allZero (slice q.payload (16 + leAt q.payload 8 2) (pad8 (leAt q.payload 8 2) - leAt q.payload 8 2)) = true →
    0 < leAt q.payload 8 2 → leAt q.payload 8 2 ≤ 16368 → s.batch? (leAt q.payload 0 4) = some b → b.tenant = q.hdr.tenant →
    b.busy = some o → o ≠ r →
    Does (.batchAppend r) s (fun t =>
      t.svc = s.svc ∧ (∃ q', t.req? r = some q' ∧ q'.status = 0x040B ∧ q'.response = []) ∧ t = { s with reqs := t.reqs })) ∧
  (∀ r n q b o s, Serving s r 0x0803 n q → q.payload.length = 16 → s.batch? (leAt q.payload 0 4) = some b →
    b.tenant = q.hdr.tenant → b.busy = some o → o ≠ r →
    Does (.batchClose r) s (fun t =>
      t.svc = s.svc ∧ (∃ q', t.req? r = some q' ∧ q'.status = 0x040B ∧ q'.response = []) ∧ t = { s with reqs := t.reqs })) ∧
  (∀ r n q b o s, Serving s r 0x0804 n q → q.payload.length = 8 → allZero (slice q.payload 4 4) = true →
    s.batch? (leAt q.payload 0 4) = some b → b.tenant = q.hdr.tenant → b.busy = some o → o ≠ r →
    Does (.batchAbort r) s (fun t =>
      t.svc = s.svc ∧ (∃ q', t.req? r = some q' ∧ q'.status = 0x040B ∧ q'.response = []) ∧ t = { s with reqs := t.reqs })) ∧
  (∀ r n q b s, Serving s r 0x0802 n q →
    q.payload.length = 16 + pad8 (leAt q.payload 8 2) → allZero (slice q.payload 10 6) = true →
    allZero (slice q.payload (16 + leAt q.payload 8 2) (pad8 (leAt q.payload 8 2) - leAt q.payload 8 2)) = true →
    0 < leAt q.payload 8 2 → leAt q.payload 8 2 ≤ 16368 → s.batch? (leAt q.payload 0 4) = some b → b.tenant = q.hdr.tenant →
    b.busy = none ∨ b.busy = some r → leAt q.payload 4 4 ≠ (b.appends + 1) % 2 ^ 32 →
    Does (.batchAppend r) s (fun t =>
      t.svc = s.svc ∧ (∃ q', t.req? r = some q' ∧ q'.status = 0x040C ∧ q'.response = []) ∧ t = { s with reqs := t.reqs }))

/-- R143: what the service runtime makes of the end of a customer program whose key fetches passed. `ends`: 0 it
returned, 1 it faulted, 2 it exceeded its budget. -/
def Obligations.CustomerProgramStatus : Prop :=
  ∀ r n q c img bd keys x v s payload, s.req? r = some q → q.stage = .running n c → q.ready = false → isCustomer q.hdr.service = true →
    boundImage s q.hdr.tenant q.hdr.service = some (img, bd) → payload.length ≤ img.maxRsp → programKeys n q keys s = .ok x v →
    (∀ status, 0x0480 ≤ status → status ≤ 0x04EF →
      Does (.customerServiceProgram r keys 0 status payload) s (fun t =>
        t = v.modReq r (fun q => { q with status := status, detail := 0, response := payload, ready := true }))) ∧
    Does (.customerServiceProgram r keys 0 0 payload) s (fun t =>
      t = v.modReq r (fun q => { q with status := 0, detail := 0, response := payload, ready := true })) ∧
    (∀ status, status ≠ 0 → (status < 0x0480 ∨ 0x04EF < status) →
      Does (.customerServiceProgram r keys 0 status payload) s (fun t =>
        t = v.modReq r (fun q => { q with status := 0x04FE, detail := 0, response := [], ready := true }))) ∧
    (∀ status, Does (.customerServiceProgram r keys 1 status payload) s (fun t =>
      t = v.modReq r (fun q => { q with status := 0x04FF, detail := 0, response := [], ready := true }))) ∧
    (∀ status, Does (.customerServiceProgram r keys 2 status payload) s (fun t =>
      t = v.modReq r (fun q => { q with status := 0x0503, detail := 0, response := [], ready := true })))

/-- R136: DECISION of a bundle. -/
def Obligations.BundleDecision : Prop :=
  ∀ arqc pin mac score refer decline,
    (arqc = 1 ∨ mac = 1 ∨ pin = 2 → bundleDecision arqc pin mac score refer decline = 1) ∧
    (¬(arqc = 1 ∨ mac = 1 ∨ pin = 2) → decline ≤ score → bundleDecision arqc pin mac score refer decline = 2) ∧
    (¬(arqc = 1 ∨ mac = 1 ∨ pin = 2) → score < decline → refer ≤ score → bundleDecision arqc pin mac score refer decline = 3) ∧
    (¬(arqc = 1 ∨ mac = 1 ∨ pin = 2) → score < decline → score < refer → bundleDecision arqc pin mac score refer decline = 0)

/-- R184, R185, R187, Table 01-6: a request dispatched, selected or stolen runs on the channel, which holds it under
no core yet; internal requests of the part go first (log 22). R172, R183, R188, R190, R194: fetches of descriptors,
wait limits, deadlines, windows and the spill of a head. -/
def Obligations.QueueWork : Prop :=
  ((∀ s r n q, readyHead s = some r → s.req? r = some q → q.stage = .ready → argMax (chansIn s) (freeC0 s) = some n → 0 < freeC0 s n →
    Does .dispatch s (fun t =>
      (∃ q', t.req? r = some q' ∧ q'.stage = .running n none ∧ q'.servedBy = n ∧ q'.c0Slot = true ∧ q'.hdr = q.hdr ∧
        q'.payload = q.payload) ∧
      r ∉ t.qm.readyList ∧ (∀ j, j ≠ r → t.req? j = s.req? j) ∧ t.out = s.out ∧ t.ks = s.ks ∧ t.time = s.time)) ∧
  (∀ s r n q l, inService s n = true → freeSlots s n ≠ 0 → s.qm.internal = r :: l → s.req? r = some q → q.stage = .queued →
    Does (.select n) s (fun t =>
      (∃ q', t.req? r = some q' ∧ q'.stage = .running n none ∧ q'.servedBy = n ∧ q'.c0Slot = false) ∧ r ∉ t.qm.internal ∧
      (∀ j, j ≠ r → t.req? j = s.req? j) ∧ t.out = s.out ∧ t.ks = s.ks ∧ t.time = s.time)) ∧
  (∀ s s' r n, inService s n = true → freeSlots s n ≠ 0 → s.qm.internal = [] → anyActive s n = true →
    selectLoop n 4096 s = (some r, s') → exec (.select n) s = .next (dispatchTo n r s')) ∧
  (∀ s r id m n, inService s n = true → freeSlots s n ≠ 0 → anyActive s n = false → stealable s n = [(r, id, m)] →
    s.cfg 0x4003 3 * 1000 ≤ waited s r → (reqCharge s r : Int) ≤ deficitOf s m id →
    exec (.steal n) s = .next (dispatchTo n r (setDeficit m id (deficitOf s m id - (reqCharge s r : Int)) (freshOf s m id) s)))) ∧
  ((∀ qn r q s, s.qm.waiting = [r] → s.req? r = some q → q.qn = qn →
    exec (.descriptorCacheFetchComplete qn true) s =
      .next (checksWithQueue (some r) q (descTouch qn { s with qm := { s.qm with waiting := [] } }))) ∧
  (∀ qn r s, (s.queue qn).waitLimit ≠ 0 → queueClass (s.queue qn) ≠ 0 → (s.queue qn).list = [r] →
    (s.queue qn).waitLimit * 1000 < waited s r →
    exec (.waitLimitExpiry qn) s = .next (endRequest r 0x0508 (bump 0x9052 9 (s.queue qn).tenant s))) ∧
  (∀ r q s, s.req? r = some q → q.within = true → q.stage = .ready → q.pcie = false → q.tIn + 17682 + q.extraNs ≤ s.time →
    exec (.dispatchDeadline r) s = .next (endRequest r 0x0508 (bump 0x9052 5 q.hdr.tenant s))) ∧
  (∀ r q n c s, s.req? r = some q → q.within = true → q.stage = .running n c → q.ready = false → q.pcie = true →
    q.tIn + 18606 + q.extraNs ≤ s.time →
    exec (.executionDeadline r) s = .next (endRequest r 0x0503 (bump 0x9052 6 q.hdr.tenant s))) ∧
  (∀ s, Does .forcedQuarantineWindowClose s (fun t =>
    (∀ w, w ∈ t.qm.windows ↔ w ∈ s.qm.windows ∧ s.time < w.openedAt + 1000000 ∧
      ((w.moved = true ∧ w.rescaled = true) → s.time < w.openedAt + 100000)) ∧ t = { s with qm := t.qm })) ∧
  (∀ r q a s, s.req? r = some q → isHead s r q = true → mayStart s r = true → spillAllowed s q = true →
    (∀ n, n ∈ chansIn s → freeSlots s n = 0) → s.cfg 0x4003 2 * 1000 ≤ waited s r → spillTarget s q = some a →
    exec (.spill r) s = .next (spillOut r a false s)))

/-- R206, R239, R249: a descriptor handed over by a core joins the jobs of its channel with its bytes as they stand in
SRAM; one too many for its context stalls the core's store, which changes nothing else. R206, R239: a stalled
hand-over whose context has room again is accepted, and its store completes: the core goes on past it. -/
def Obligations.DescriptorsSubmitted : Prop :=
  ((∀ c off s, ((s.engOf (c / 8)).cipher.filter (fun j => j.ctx = (ctxNow s c).1)).length < 2 →
    Does (.submit c off) s (fun t =>
      (∃ j, j ∈ (t.engOf (c / 8)).cipher ∧ j.off = off % 2 ^ 22 / 64 * 64 ∧ j.ctx = (ctxNow s c).1 ∧ j.core = c ∧
        j.desc = s.memRead (memKey (.sram (c / 8) (off % 2 ^ 22 / 64 * 64))) 64) ∧ t.mem = s.mem ∧ t.reqs = s.reqs)) ∧
  (∀ c off s, 2 ≤ ((s.engOf (c / 8)).cipher.filter (fun j => j.ctx = (ctxNow s c).1)).length →
    Does (.submit c off) s (fun t => t = s.modCore c (fun k => { k with stalled := some (0, off) }))) ∧
  (∀ c off s, ((s.engOf (c / 8)).digest.filter (fun j => j.ctx = (ctxNow s c).1)).length < 2 →
    Does (.dsubmit c off) s (fun t =>
      (∃ j, j ∈ (t.engOf (c / 8)).digest ∧ j.off = off % 2 ^ 22 / 64 * 64 ∧ j.ctx = (ctxNow s c).1 ∧ j.core = c) ∧
      t.mem = s.mem ∧ t.reqs = s.reqs)) ∧
  (∀ c off s, (s.engOf (c / 8)).pk.any (fun j => j.ctx = (ctxNow s c).1) = false →
    Does (.psubmit c off) s (fun t =>
      (∃ j, j ∈ (t.engOf (c / 8)).pk ∧ j.off = off % 2 ^ 22 / 64 * 64 ∧ j.ctx = (ctxNow s c).1 ∧ j.core = c) ∧
      t.mem = s.mem ∧ t.reqs = s.reqs)) ∧
  (∀ c off s, (s.engOf (c / 8)).pk.any (fun j => j.ctx = (ctxNow s c).1) = true →
    Does (.psubmit c off) s (fun t => t = s.modCore c (fun k => { k with stalled := some (8, off) })))) ∧
  ((∀ c v s s', (s.core c).stalled = some (0, v) → submitWrite c v (s.modCore c (fun k => { k with stalled := none })) = .done s' →
    Does (.submitStallRelease c) s (fun t => t = s'.modCore c (fun k => { k with pc := k.pc + 8 }))) ∧
  (∀ c v s s', (s.core c).stalled = some (4, v) → dsubmitWrite c v (s.modCore c (fun k => { k with stalled := none })) = .done s' →
    Does (.dsubmitStallRelease c) s (fun t => t = s'.modCore c (fun k => { k with pc := k.pc + 8 }))))

/-- R206, R213, R239, R249: a descriptor that completes without a fault leaves its channel's jobs, and its completion
record stands at byte 48 of the descriptor, whose other bytes keep what the job's output made them. -/
def Obligations.DescriptorsComplete : Prop :=
  (∀ n off cycles s j st verdict detail len s', (s.engOf n).cipher.find? (fun j => j.off = off) = some j → j.waits = [] →
    j.stalled = false → waitsHandle s n j = false → cipherResult n j s = (st, verdict, detail, len, s') →
    Does (.cipherCompletion n off cycles 0) s (fun t =>
      t.memRead (memKey (.sram n (off + 48))) 16 = completionRecord st verdict detail len cycles ∧
      SameBytesOutside s' t (memKey (.sram n (off + 48))) 16 ∧ (∀ q, q ∈ (t.engOf n).cipher → q.off ≠ off))) ∧
  (∀ n off cycles s j e st verdict len s', (s.engOf n).digest.find? (fun j => j.off = off) = some j → j.waits = [] →
    j.suspended = false → j.engine = some e → dependsWaits s n j = false → digestResult n j s = (st, verdict, len, s') →
    Does (.digestCompletion n off cycles 0 0) s (fun t =>
      t.memRead (memKey (.sram n (off + 48))) 16 = completionRecord st verdict j.jdetail len cycles ∧
      SameBytesOutside s' t (memKey (.sram n (off + 48))) 16 ∧ (∀ q, q ∈ (t.engOf n).digest → q.off ≠ off))) ∧
  (∀ n off cycles attempts s j e st result len s', (s.engOf n).pk.find? (fun j => j.off = off) = some j → j.waits = [] →
    j.engine = some e → pkResult n j s = (st, result, len, s') →
    Does (.pkCompletion n off cycles 0 attempts 0) s (fun t =>
      t.memRead (memKey (.sram n (off + 48))) 16 = completionRecord st result j.pdetail len cycles ∧
      SameBytesOutside s' t (memKey (.sram n (off + 48))) 16 ∧ (∀ q, q ∈ (t.engOf n).pk → q.off ≠ off)))

/-- R221 to R224, Table 06-8: reseeds, limits and seeds of the generators' instances, the seeds of stalled cells, and
failures of the noise sources. R264, R266, R282, R285, R288, R289, R297, R303: the key store's own work. -/
def Obligations.GeneratorsAndKeyStore : Prop :=
  ((∀ g i s, genInst g i = true → (tget {} (genOf s g).inst i).seeded = true →
    Does (.reseedIntervalReached g i) s (fun t =>
      tget {} (genOf t g).inst i = { tget {} (genOf s g).inst i with due := true } ∧ t.out = s.out ∧ t.mem = s.mem)) ∧
  (∀ g i s, genInst g i = true → (tget {} (genOf s g).inst i).seeded = true →
    Does (.reseedLimitReached g i) s (fun t =>
      tget {} (genOf t g).inst i = { tget {} (genOf s g).inst i with due := true, limited := true } ∧ t.out = s.out ∧ t.mem = s.mem)) ∧
  (∀ g i seed s, genInst g i = true → (s.noiseJitterBad && s.noiseLatchBad) = false →
    Does (.seedPacket g i seed true) s (fun t =>
      tget {} (genOf t g).inst i = { seeded := true, seed := padTo 48 seed } ∧ t.out = s.out ∧ t.mem = s.mem)) ∧
  (∀ g s, g < 9 → (genOf s g).state = .reseedDue → (genOf s g).dueSince + 1000000000 ≤ s.time →
    Does (.reseedDueTimeout g) s (fun t =>
      Latched t 0x8080 ∧ ∃ c o h d, t = { s with ctr := c, ovf := o, health := h, devEv := d })) ∧
  (∀ n cell cycles s, (s.engOf n).cipher.any (fun j => j.stalled && j.cells.contains cell) = true → genShort s n = false →
    Does (.cellSeedArrival n cell cycles) s (fun t =>
      (∀ j, j ∈ (t.engOf n).cipher → j.cells.contains cell = true → j.stalled = false) ∧
      ∃ c o h d, t = { s with eng := t.eng, ctr := c, ovf := o, health := h, devEv := d })) ∧
  (∀ latch s, watching s = true → s.noiseJitterBad = false → s.noiseLatchBad = false →
    Does (.entropySourceFailure latch) s (fun t =>
      (t.alarm 0x19).state = .active ∧ t.noiseLatchBad = latch ∧ t.noiseJitterBad = !latch ∧ Latched t 0x8081))) ∧
  ((∀ i s, s.ks.fills.contains i = true → resident s i = true → (s.slot i).macBad = false →
    (∀ n, (s.engOf n).cipher = [] ∧ (s.engOf n).digest = [] ∧ (s.engOf n).pk = []) →
    Does (.keyCacheFillComplete i) s (fun t =>
      t.ks = { s.ks with fills := s.ks.fills.filter (fun x => !(x = i)) ++ s.ks.fillQueue.take 1, fillQueue := s.ks.fillQueue.drop 1 })) ∧
  (∀ s, Does .usesWriteback s (fun t => t = { s with ks := { s.ks with dirty := [] } })) ∧
  (∀ s, s.ks.rollover = true →
    Does .rolloverComplete s (fun t =>
      t.ks.w0 = s.ks.w2 ∧ t.ks.w1 = s.ks.w3 ∧ t.ks.w2 = 0 ∧ t.ks.w3 = 0 ∧ t.ks.mkgen = s.ks.mkgen + 1 ∧ t.ks.rollover = false ∧
      t.ks.slots = s.ks.slots.map (fun e => (e.1, { e.2 with mkg := !e.2.mkg })))) ∧
  (∀ n s, s.ks.scrubs.contains n = true →
    Does (.tenantScrubComplete n) s (fun t =>
      t.tenant n = {} ∧ (∀ m, m ≠ n → t.tenant m = s.tenant m) ∧ t.ks.scrubs.contains n = false ∧
      (∀ e, e ∈ t.ks.slots → e.2.tenant = n → e.2.state = .unassigned) ∧
      (∀ e, e ∈ s.ks.slots → e.2.tenant ≠ n → e ∈ t.ks.slots) ∧ t = { s with ks := t.ks })) ∧
  (∀ c index polOff s s', index < 8 → index < (ctxHdr s (c / 8) (ctxNow s c).1).nslot →
    inArea (8 * (polOff / 8 % 2 ^ 19)) 32 = true →
    claimSlot (c / 8) (ctxNow s c).1 ((ctxHdr s (c / 8) (ctxNow s c).1).slotRef index) (ctxHdr s (c / 8) (ctxNow s c).1).tenant
      (ctxBytes s (c / 8) (ctxNow s c).1 (8 * (polOff / 8 % 2 ^ 19)) 32) s = (0, s') →
    Does (.slotclaimClaim c index polOff) s (fun t =>
      t = s'.modEng (c / 8) (fun e => { e with slotSt := tset 0 e.slotSt (c % 8) 0 }) ∧ slotclaimStatus c t = 0)) ∧
  (∀ c index s, index < 8 → index < (ctxHdr s (c / 8) (ctxNow s c).1).nslot →
    Does (.slotclaimRelease c index) s (fun t =>
      t = (releaseClaim (c / 8) (ctxNow s c).1 ((ctxHdr s (c / 8) (ctxNow s c).1).slotRef index) s).modEng (c / 8)
        (fun e => { e with slotSt := tset 0 e.slotSt (c % 8) 0 }) ∧ slotclaimStatus c t = 0)) ∧
  (∀ s, s.ks.changed = true → s.ks.lastImage + s.cfg 0x5008 2 * 1000000000 ≤ s.time → s.ks.image = none → imageBuffers s = true →
    Does .imageIntervalExpiry s (fun t =>
      (∃ i, t.ks.image = some i ∧ i.content.slots = s.ks.slots ∧ i.content.tenants = s.ks.tenants ∧ i.forCommit = false) ∧
      t.ks.changed = false ∧ t.ks.lastImage = s.time ∧ t = { s with ks := t.ks, free := s.free + 1 })) ∧
  (∀ ok s j, s.ks.image = some j → j.forCommit = false → cerOpen (endImage ok s) = false →
    exec (.imageComplete ok) s = .next (commitImage (endImage ok s))) ∧
  (∀ s, s.ks.zeroized = true →
    Does .zeroFillComplete s (fun t =>
      t.ks.slots = [] ∧ t.ks.tenants = [] ∧ t.ks.anchor = none ∧ t.ks.image = none ∧ t = { s with ks := t.ks })))

/-- R317, Table 09-7: the integer instructions, each with its result and its frame. -/
def Obligations.IntegerResults : Prop :=
  ∀ (c : Nat) (q : Pred) (rd ra : BitVec 5) (b : Opnd) (s : State), Issues c q s →
    (∀ w, GResult c (.add c q rd ra b w) s rd (wForm w (· + ·) (· + ·) ((s.core c).gr ra) ((s.core c).opnd b)) false) ∧
    (∀ w, GResult c (.sub c q rd ra b w) s rd (wForm w (· - ·) (· - ·) ((s.core c).gr ra) ((s.core c).opnd b)) false) ∧
    (∀ w, GResult c (.adds c q rd ra b w) s rd (satResult w (· + ·) ((s.core c).gr ra) ((s.core c).opnd b)).1
      (satResult w (· + ·) ((s.core c).gr ra) ((s.core c).opnd b)).2) ∧
    (∀ w, GResult c (.subs c q rd ra b w) s rd (satResult w (· - ·) ((s.core c).gr ra) ((s.core c).opnd b)).1
      (satResult w (· - ·) ((s.core c).gr ra) ((s.core c).opnd b)).2) ∧
    GResult c (.and c q rd ra b) s rd ((s.core c).gr ra &&& (s.core c).opnd b) false ∧
    GResult c (.or c q rd ra b) s rd ((s.core c).gr ra ||| (s.core c).opnd b) false ∧
    GResult c (.xor c q rd ra b) s rd ((s.core c).gr ra ^^^ (s.core c).opnd b) false ∧
    GResult c (.andn c q rd ra b) s rd ((s.core c).gr ra &&& ~~~(s.core c).opnd b) false ∧
    GResult c (.min c q rd ra b) s rd
      (if ((s.core c).gr ra).slt ((s.core c).opnd b) then (s.core c).gr ra else (s.core c).opnd b) false ∧
    GResult c (.max c q rd ra b) s rd
      (if ((s.core c).gr ra).slt ((s.core c).opnd b) then (s.core c).opnd b else (s.core c).gr ra) false ∧
    GResult c (.minu c q rd ra b) s rd
      (if ((s.core c).gr ra).ult ((s.core c).opnd b) then (s.core c).gr ra else (s.core c).opnd b) false ∧
    GResult c (.maxu c q rd ra b) s rd
      (if ((s.core c).gr ra).ult ((s.core c).opnd b) then (s.core c).opnd b else (s.core c).gr ra) false ∧
    GResult c (.shl c q rd ra b false) s rd ((s.core c).gr ra <<< (((s.core c).opnd b).toNat % 64)) false ∧
    GResult c (.shl c q rd ra b true) s rd
      ((((s.core c).gr ra).setWidth 32 <<< (((s.core c).opnd b).toNat % 32)).signExtend 64) false ∧
    GResult c (.shr c q rd ra b false) s rd ((s.core c).gr ra >>> (((s.core c).opnd b).toNat % 64)) false ∧
    GResult c (.shr c q rd ra b true) s rd
      ((((s.core c).gr ra).setWidth 32 >>> (((s.core c).opnd b).toNat % 32)).signExtend 64) false ∧
    GResult c (.sar c q rd ra b false) s rd (((s.core c).gr ra).sshiftRight (((s.core c).opnd b).toNat % 64)) false ∧
    GResult c (.sar c q rd ra b true) s rd
      (((((s.core c).gr ra).setWidth 32).sshiftRight (((s.core c).opnd b).toNat % 32)).signExtend 64) false ∧
    GResult c (.ror c q rd ra b false) s rd (((s.core c).gr ra).rotateRight (((s.core c).opnd b).toNat % 64)) false ∧
    GResult c (.ror c q rd ra b true) s rd
      (((((s.core c).gr ra).setWidth 32).rotateRight (((s.core c).opnd b).toNat % 32)).signExtend 64) false ∧
    GResult c (.extu c q rd ra b) s rd (extuVal ((s.core c).gr ra) ((s.core c).opnd b)) false ∧
    GResult c (.exts c q rd ra b) s rd (extsVal ((s.core c).gr ra) ((s.core c).opnd b)) false ∧
    GResult c (.ins c q rd ra b) s rd (insVal ((s.core c).gr rd) ((s.core c).gr ra) ((s.core c).opnd b)) false ∧
    (∀ i, GResult c (.clz c q rd ra false i) s rd (BitVec.ofNat 64 (clzNat 64 ((s.core c).gr ra).toNat)) false) ∧
    (∀ i, GResult c (.clz c q rd ra true i) s rd (BitVec.ofNat 64 (clzNat 32 (((s.core c).gr ra).toNat % 2 ^ 32))) false) ∧
    (∀ i, GResult c (.popc c q rd ra false i) s rd (BitVec.ofNat 64 (popNat 64 ((s.core c).gr ra).toNat)) false) ∧
    (∀ i, GResult c (.popc c q rd ra true i) s rd (BitVec.ofNat 64 (popNat 32 ((s.core c).gr ra).toNat)) false) ∧
    (∀ i, GResult c (.bswap c q rd ra false i) s rd (BitVec.ofNat 64 (bswapNat 8 ((s.core c).gr ra).toNat)) false) ∧
    (∀ i, GResult c (.bswap c q rd ra true i) s rd
      ((BitVec.ofNat 32 (bswapNat 4 ((s.core c).gr ra).toNat)).signExtend 64) false) ∧
    (∀ v, GResult c (.movi c q rd (.low v)) s rd (v.signExtend 64) false) ∧
    (∀ v, GResult c (.movi c q rd (.high v)) s rd
      (BitVec.ofNat 64 (((s.core c).gr rd).toNat % 2 ^ 48 + v.toNat * 2 ^ 48)) false)

/-- Table 09-7, R311, R312: the values of the field, count and saturating functions: which bits they move, and that a
saturated value is the exact one clamped to its width. -/
def Obligations.FieldAndSaturationValues : Prop :=
  (∀ (a b : Word) (i : Nat), (extuVal a b).getLsbD i = (decide (i < (fieldOf b).2) && a.getLsbD ((fieldOf b).1 + i))) ∧
  (∀ (a b : Word) (i : Nat), i < 64 →
    (extsVal a b).getLsbD i = a.getLsbD ((fieldOf b).1 + Nat.min i ((fieldOf b).2 - 1))) ∧
  (∀ (o a b : Word) (i : Nat), i < 64 →
    (insVal o a b).getLsbD i =
      if (fieldOf b).1 ≤ i ∧ i < (fieldOf b).1 + (fieldOf b).2 then a.getLsbD (i - (fieldOf b).1) else o.getLsbD i) ∧
  (∀ (b : Word), 1 ≤ (fieldOf b).2 ∧ (fieldOf b).1 + (fieldOf b).2 ≤ 64 ∧ (fieldOf b).1 = b.toNat % 64) ∧
  (∀ v : Nat, v < 2 ^ 64 → v ≠ 0 →
    2 ^ (63 - clzNat 64 v) ≤ v ∧ v < 2 ^ (64 - clzNat 64 v) ∧ clzNat 64 v < 64) ∧ clzNat 64 0 = 64 ∧ clzNat 32 0 = 32 ∧
  (∀ (f : Int → Int → Int) (a b : Word),
    (satResult false f a b).1.toInt = max (-(2 ^ 63)) (min (2 ^ 63 - 1) (f a.toInt b.toInt)) ∧
    ((satResult false f a b).2 = true ↔ f a.toInt b.toInt < -(2 ^ 63) ∨ 2 ^ 63 - 1 < f a.toInt b.toInt)) ∧
  (∀ (f : Int → Int → Int) (a b : Word),
    (satResult true f a b).1.toInt =
      max (-(2 ^ 31)) (min (2 ^ 31 - 1) (f (a.setWidth 32).toInt (b.setWidth 32).toInt))) ∧
  (∀ (a : Int) (k : Nat), roundK .floor a k = a / 2 ^ k) ∧
  (∀ (a : Int) (k : Nat), 2 * (roundK .rne a k * 2 ^ k - a) ≤ 2 ^ k ∧ -(2 ^ k : Int) ≤ 2 * (roundK .rne a k * 2 ^ k - a) ∧
    (2 * (roundK .rne a k * 2 ^ k - a) = 2 ^ k ∨ 2 * (roundK .rne a k * 2 ^ k - a) = -(2 ^ k : Int) →
      0 < k → roundK .rne a k % 2 = 0)) ∧
  (∀ (a : Int) (k : Nat), roundK .trunc a k = Int.tdiv a (2 ^ k)) ∧
  (∀ x : Int, (accVal true x).toInt = max (-(2 ^ 71)) (min (2 ^ 71 - 1) x))

/-- R316, R318, R319: compares and predicate operations; an ADD whose predicate does not hold only passes. R320 to
R322: the multiplier. A MUL puts its product in flight for its latency; its completion writes the register; a MOVM
reads the register, and while a product is in flight the earlier value, noted as EARLY_READ. -/
def Obligations.PredicateAndMultiplierResults : Prop :=
  ((∀ (c : Nat) (q : Pred) (s : State), Issues c q s →
    (∀ pd pd2 ra b cond, pd ≠ pd2 ∨ pd = 0 →
      PResult c (.cmp c q pd pd2 ra b cond false) s (fun j => if j = 0 then true
        else if j = pd then condHolds cond ((s.core c).gr ra) ((s.core c).opnd b)
        else if j = pd2 then !condHolds cond ((s.core c).gr ra) ((s.core c).opnd b) else (s.core c).pr j) ∧
      PResult c (.cmp c q pd pd2 ra b cond true) s (fun j => if j = 0 then true
        else if j = pd then condHolds cond (((s.core c).gr ra).setWidth 32) (((s.core c).opnd b).setWidth 32)
        else if j = pd2 then !condHolds cond (((s.core c).gr ra).setWidth 32) (((s.core c).opnd b).setWidth 32)
        else (s.core c).pr j)) ∧
    (∀ pd pa pb, PResult c (.pand c q pd pa pb) s (fun j => if j = 0 then true
      else if j = pd then (s.core c).pr pa && (s.core c).pr pb else (s.core c).pr j)) ∧
    (∀ pd pa pb, PResult c (.por c q pd pa pb) s (fun j => if j = 0 then true
      else if j = pd then (s.core c).pr pa || (s.core c).pr pb else (s.core c).pr j)) ∧
    (∀ pd pa pb, PResult c (.pxor c q pd pa pb) s (fun j => if j = 0 then true
      else if j = pd then (s.core c).pr pa ^^ (s.core c).pr pb else (s.core c).pr j)) ∧
    (∀ pd pa pb, PResult c (.pandn c q pd pa pb) s (fun j => if j = 0 then true
      else if j = pd then (s.core c).pr pa && !(s.core c).pr pb else (s.core c).pr j)) ∧
    (∀ rg, PResult c (.pset c q rg) s (fun j => j = 0 || ((s.core c).gr rg).getLsbD j.toNat)) ∧
    (∀ rg, GResult c (.pget c q rg) s rg (((s.core c).p ||| 1).setWidth 64) false)) ∧
  (∀ (c : Nat) (q : Pred) (rd ra : BitVec 5) (b : Opnd) (w : Bool) (s : State), (s.core c).run = .running →
    abeDeliverable (s.core c) = false → eventDue (s.core c) = none → fetchCheck c s = (none, s) →
    (s.core c).predOk q = false →
    Does (.add c q rd ra b w) s (fun t => Completed c s t (s.core c) ∧ t = { s with cores := t.cores }))) ∧
  ((∀ (c : Nat) (q : Pred) (md : BitVec 2) (ra rb : BitVec 5) (s : State), Issues c q s →
    Does (.muls32 c q md ra rb) s (fun t =>
      (t.core c).muls = insertMul ⟨md.toNat, BitVec.ofInt 128 ((((s.core c).gr ra).setWidth 32).toInt * (((s.core c).gr rb).setWidth 32).toInt),
        issueCycle (s.core c) [ra.toNat, rb.toNat] + 3⟩ ((s.core c).issue [ra.toNat, rb.toNat]).muls ∧
      Completed c s t (s.core c) ∧ t = { s with cores := t.cores }) ∧
    Does (.mulu32 c q md ra rb) s (fun t =>
      (t.core c).muls = insertMul ⟨md.toNat, BitVec.ofNat 128 ((((s.core c).gr ra).setWidth 32).toNat * (((s.core c).gr rb).setWidth 32).toNat),
        issueCycle (s.core c) [ra.toNat, rb.toNat] + 3⟩ ((s.core c).issue [ra.toNat, rb.toNat]).muls ∧
      Completed c s t (s.core c) ∧ t = { s with cores := t.cores }) ∧
    Does (.muls64 c q md ra rb) s (fun t =>
      (t.core c).muls = insertMul ⟨md.toNat, BitVec.ofInt 128 (((s.core c).gr ra).toInt * ((s.core c).gr rb).toInt),
        issueCycle (s.core c) [ra.toNat, rb.toNat] + 5⟩ ((s.core c).issue [ra.toNat, rb.toNat]).muls ∧
      Completed c s t (s.core c) ∧ t = { s with cores := t.cores }) ∧
    Does (.mulu64 c q md ra rb) s (fun t =>
      (t.core c).muls = insertMul ⟨md.toNat, BitVec.ofNat 128 (((s.core c).gr ra).toNat * ((s.core c).gr rb).toNat),
        issueCycle (s.core c) [ra.toNat, rb.toNat] + 5⟩ ((s.core c).issue [ra.toNat, rb.toNat]).muls ∧
      Completed c s t (s.core c) ∧ t = { s with cores := t.cores })) ∧
  (∀ (c : Nat) (m : MulFlight) (l : List MulFlight) (s : State), (s.core c).muls = m :: l → (s.core c).cycle ≤ m.ready →
    (∀ x, x ∈ l → m.ready < x.ready) →
    Does (.mulComplete c) s (fun t =>
      (t.core c).muls = l ∧ (t.core c).cycle = m.ready ∧ tget 0 (t.core c).m m.m = m.product ∧
      (∀ j, j ≠ m.m → tget 0 (t.core c).m j = tget 0 (s.core c).m j) ∧
      t.core c = { s.core c with m := (t.core c).m, muls := l, cycle := m.ready } ∧ OnlyCore c s t)) ∧
  (∀ (c : Nat) (q : Pred) (rd : BitVec 5) (ms : BitVec 2) (s : State), Issues c q s →
    (∀ m, m ∈ (s.core c).muls → m.m ≠ ms.toNat) →
    GResult c (.movml c q rd ms) s rd (((s.core c).mr ms).setWidth 64) false ∧
    GResult c (.movmh c q rd ms) s rd (((s.core c).mr ms).extractLsb' 64 64) false) ∧
  (∀ (c : Nat) (q : Pred) (rd : BitVec 5) (ms : BitVec 2) (m : MulFlight) (s : State), Issues c q s →
    (s.core c).muls = [m] → m.m = ms.toNat → (s.core c).cycle < m.ready → (s.core c).earlyRead = none →
    Does (.movml c q rd ms) s (fun t =>
      (∀ r, (t.core c).gr r = if r = rd ∧ r ≠ 0 then ((s.core c).mr ms).setWidth 64 else (s.core c).gr r) ∧
      (t.core c).earlyRead = some ((s.core c).pc, (s.core c).status.pl) ∧ (t.core c).muls = [m] ∧ OnlyCore c s t)))

/-- R324: the fractional instructions, with their result, SATF and frame. -/
def Obligations.FractionalResults : Prop :=
  ∀ (c : Nat) (q : Pred) (ad : BitVec 2) (ra rb rd : BitVec 5) (sat : Bool) (s : State), Issues c q s →
    (∀ fmt rnd, fmt = 3 ∨ rnd = 0 →
      AResult c (.fmac c q ad ra rb fmt rnd sat) s ad
        (accVal sat (((s.core c).acc ad).toInt + fxProduct fmt rnd ((s.core c).gr ra) ((s.core c).gr rb)))
        (accSat sat (((s.core c).acc ad).toInt + fxProduct fmt rnd ((s.core c).gr ra) ((s.core c).gr rb))) ∧
      AResult c (.fmsu c q ad ra rb fmt rnd sat) s ad
        (accVal sat (((s.core c).acc ad).toInt - fxProduct fmt rnd ((s.core c).gr ra) ((s.core c).gr rb)))
        (accSat sat (((s.core c).acc ad).toInt - fxProduct fmt rnd ((s.core c).gr ra) ((s.core c).gr rb))) ∧
      AResult c (.fmul c q ad ra rb fmt rnd sat) s ad (accVal sat (fxProduct fmt rnd ((s.core c).gr ra) ((s.core c).gr rb)))
        (accSat sat (fxProduct fmt rnd ((s.core c).gr ra) ((s.core c).gr rb)))) ∧
    (∀ k, AResult c (.flda c q ad ra sat k) s ad (accVal sat (((s.core c).gr ra).toInt * 2 ^ k.toNat))
      (accSat sat (((s.core c).gr ra).toInt * 2 ^ k.toNat))) ∧
    (∀ k, AResult c (.faddg c q ad ra sat k) s ad
      (accVal sat (((s.core c).acc ad).toInt + ((s.core c).gr ra).toInt * 2 ^ k.toNat))
      (accSat sat (((s.core c).acc ad).toInt + ((s.core c).gr ra).toInt * 2 ^ k.toNat))) ∧
    AResult c (.fraws c q ad ra rb) s ad ((((s.core c).gr rb).setWidth 8).append ((s.core c).gr ra)) false ∧
    (∀ fmt rnd k, GResult c (.fext c q rd ad fmt rnd sat k) s rd
      (BitVec.ofInt 64 (satW (qWidth fmt) (roundK (Rnd.ofBits rnd) ((s.core c).acc ad).toInt k.toNat)))
      (satChanged (qWidth fmt) (roundK (Rnd.ofBits rnd) ((s.core c).acc ad).toInt k.toNat))) ∧
    GResult c (.frawl c q rd ad) s rd (((s.core c).acc ad).setWidth 64) false ∧
    GResult c (.frawh c q rd ad) s rd ((((s.core c).acc ad).extractLsb' 64 8).signExtend 64) false ∧
    GResult c (.rdst c q rd) s rd (BitVec.ofNat 64 { (s.core c).status with bprog := 0 }.toNat) false ∧
    Does (.clrsat c q) s (fun t =>
      Completed c s t { s.core c with status := { (s.core c).status with satf := false } } ∧ t = { s with cores := t.cores })

/-- R327 to R329: loads, stores and atomics of a channel core on its channel's SRAM, addressed by the segment check.
-/
def Obligations.SramAccesses : Prop :=
  ∀ (c : Nat) (q : Pred) (rd ra : BitVec 5) (seg : BitVec 3) (disp : BitVec 32) (a key : Nat) (s : State), Issues c q s →
    (s.core c).storeBuf = [] →
    (∀ size sx, segCheck (s.core c) seg .read ((s.core c).effOff ra disp) (sizeBytes size) = .ok a →
      OwnSramAt s c a .read (sizeBytes size) key →
      GResult c (.ld c q rd ra seg size sx disp) s rd
        (extendLoad (sizeBytes size) sx (leNat (memBytes s.mem key (sizeBytes size)))) false) ∧
    (∀ size, segCheck (s.core c) seg .write ((s.core c).effOff ra disp) (sizeBytes size) = .ok a →
      OwnSramAt s c a .write (sizeBytes size) key →
      Does (.st c q rd ra seg size disp) s (fun t =>
        memBytes t.mem key (sizeBytes size) = leBytes (sizeBytes size) ((s.core c).gr rd).toNat ∧
        SameBytesOutside s t key (sizeBytes size) ∧ Completed c s t (s.core c) ∧
        t = { s with cores := t.cores, mem := t.mem, ecc := t.ecc })) ∧
    (∀ dw, segCheck (s.core c) seg .atomic ((s.core c).effOff ra disp) (if dw then 8 else 4) = .ok a →
      OwnSramAt s c a .atomic (if dw then 8 else 4) key →
      Does (.xchg c q rd ra seg dw disp) s (fun t =>
        (∀ r, (t.core c).gr r = if r = rd ∧ r ≠ 0 then
          BitVec.ofNat 64 (leNat (memBytes s.mem key (if dw then 8 else 4))) else (s.core c).gr r) ∧
        memBytes t.mem key (if dw then 8 else 4) = leBytes (if dw then 8 else 4) ((s.core c).gr rd).toNat ∧
        SameBytesOutside s t key (if dw then 8 else 4) ∧
        Completed c s t { s.core c with g := (t.core c).g } ∧ t = { s with cores := t.cores, mem := t.mem, ecc := t.ecc }) ∧
      Does (.fadd c q rd ra seg dw disp) s (fun t =>
        (∀ r, (t.core c).gr r = if r = rd ∧ r ≠ 0 then
          BitVec.ofNat 64 (leNat (memBytes s.mem key (if dw then 8 else 4))) else (s.core c).gr r) ∧
        memBytes t.mem key (if dw then 8 else 4) =
          leBytes (if dw then 8 else 4)
            (leNat (memBytes s.mem key (if dw then 8 else 4)) + ((s.core c).gr rd).toNat) ∧
        SameBytesOutside s t key (if dw then 8 else 4) ∧
        Completed c s t { s.core c with g := (t.core c).g } ∧ t = { s with cores := t.cores, mem := t.mem, ecc := t.ecc }))

/-- R332: the branches. R333 to R335: block instructions on the channel's own SRAM: a length of zero accesses no
memory; eight aligned bytes are filled, copied or compared in one unit. -/
def Obligations.BranchAndBlockResults : Prop :=
  (∀ (c : Nat) (q : Pred) (s : State), Issues c q s →
    (∀ disp, Does (.br c q disp) s (fun t =>
      CompletedAt c s t (s.core c) ((s.core c).pc + 8 * disp) ∧ t = { s with cores := t.cores })) ∧
    (∀ rl disp, Does (.brl c q rl disp) s (fun t =>
      (∀ r, (t.core c).gr r = if r = rl ∧ r ≠ 0 then ((s.core c).pc + 8).setWidth 64 else (s.core c).gr r) ∧
      CompletedAt c s t { s.core c with g := (t.core c).g } ((s.core c).pc + 8 * disp) ∧ t = { s with cores := t.cores })) ∧
    (∀ rl ra, ((s.core c).gr ra).toNat % 8 = 0 → Does (.jr c q rl ra) s (fun t =>
      (∀ r, (t.core c).gr r = if r = rl ∧ r ≠ 0 then ((s.core c).pc + 8).setWidth 64 else (s.core c).gr r) ∧
      CompletedAt c s t { s.core c with g := (t.core c).g } (((s.core c).gr ra).setWidth 32) ∧ t = { s with cores := t.cores })) ∧
    (∀ rl ra, ((s.core c).gr ra).toNat % 8 ≠ 0 →
      exec (.jr c q rl ra) s = .next (takeExc c { vector := 2, faddr := ((s.core c).gr ra).toNat, detail := 7 + 16 * 2 }
        (s.modCore c (fun k => k.issue [ra.toNat]))))) ∧
  ((∀ (c : Nat) (q : Pred) (rd ra rb : BitVec 5) (sd sa pd : BitVec 3) (units : Nat) (s : State), Issues c q s →
    (s.core c).gr rb = 0 →
    Does (.bcopy c q rd ra rb sd sa units) s (fun t => Completed c s t (s.core c) ∧ t = { s with cores := t.cores }) ∧
    Does (.bfill c q rd ra rb sd units) s (fun t => Completed c s t (s.core c) ∧ t = { s with cores := t.cores }) ∧
    PResult c (.bcmpeq c q rd ra rb sd sa pd units) s (fun j => j = pd || (s.core c).pr j)) ∧
  (∀ (c : Nat) (q : Pred) (rd ra rb : BitVec 5) (sd sa pd : BitVec 3) (units dk sk : Nat) (s : State), Issues c q s →
    (s.core c).gr rb = 8 → (s.core c).status.bprog = 0 → 0 < units → (s.core c).storeBuf = [] →
    (rangeCheck (s.core c) sd .write ((s.core c).gr rd).toNat 8 = none →
      physOf (s.core c) sd ((s.core c).gr rd).toNat % 8 = 0 →
      OwnSramAt s c (physOf (s.core c) sd ((s.core c).gr rd).toNat) .write 8 dk →
      Does (.bfill c q rd ra rb sd units) s (fun t =>
        memBytes t.mem dk 8 = List.replicate 8 (BitVec.ofNat 8 ((s.core c).gr ra).toNat) ∧ SameBytesOutside s t dk 8 ∧
        Completed c s t (s.core c) ∧ t = { s with cores := t.cores, mem := t.mem, ecc := t.ecc })) ∧
    (rangeCheck (s.core c) sd .write ((s.core c).gr rd).toNat 8 = none →
      rangeCheck (s.core c) sa .read ((s.core c).gr ra).toNat 8 = none →
      physOf (s.core c) sd ((s.core c).gr rd).toNat % 8 = 0 → physOf (s.core c) sa ((s.core c).gr ra).toNat % 8 = 0 →
      OwnSramAt s c (physOf (s.core c) sd ((s.core c).gr rd).toNat) .write 8 dk →
      OwnSramAt s c (physOf (s.core c) sa ((s.core c).gr ra).toNat) .read 8 sk →
      Does (.bcopy c q rd ra rb sd sa units) s (fun t =>
        memBytes t.mem dk 8 = memBytes s.mem sk 8 ∧ SameBytesOutside s t dk 8 ∧
        Completed c s t (s.core c) ∧ t = { s with cores := t.cores, mem := t.mem, ecc := t.ecc })) ∧
    (rangeCheck (s.core c) sd .read ((s.core c).gr rd).toNat 8 = none →
      rangeCheck (s.core c) sa .read ((s.core c).gr ra).toNat 8 = none →
      physOf (s.core c) sd ((s.core c).gr rd).toNat % 8 = 0 → physOf (s.core c) sa ((s.core c).gr ra).toNat % 8 = 0 →
      OwnSramAt s c (physOf (s.core c) sd ((s.core c).gr rd).toNat) .read 8 dk →
      OwnSramAt s c (physOf (s.core c) sa ((s.core c).gr ra).toNat) .read 8 sk →
      PResult c (.bcmpeq c q rd ra rb sd sa pd units) s (fun j => if j = 0 then true
        else if j = pd then decide (memBytes s.mem dk 8 = memBytes s.mem sk 8) else (s.core c).pr j))))

/-- R308, R309, R326, R331, R336 to R339: the system instructions. -/
def Obligations.SystemResults : Prop :=
  ∀ (c : Nat) (q : Pred) (s : State), Issues c q s → (s.core c).storeBuf = [] →
    Does (.fence c q) s (fun t => Completed c s t (s.core c) ∧ t = { s with cores := t.cores }) ∧
    Does (.fenceI c q) s (fun t => Completed c s t (s.core c) ∧ t = { s with cores := t.cores }) ∧
    Does (.fenceAcl c q) s (fun t =>
      Completed c s t { s.core c with aclPending := false } ∧ t = { s with cores := t.cores, free := s.free + 1 }) ∧
    (∀ ra, (s.core c).status.pl = 0 → Does (.movcr c q ra 0x010) s (fun t =>
      Completed c s t { s.core c with exc := { (s.core c).exc with vbase := addrField 32 ((s.core c).gr ra).toNat } } ∧
      t = { s with cores := t.cores })) ∧
    (∀ ra, (s.core c).status.pl = 0 → Does (.movcr c q ra 0x000) s (fun t =>
      Completed c s t { s.core c with status := { Status.ofNat ((s.core c).gr ra).toNat with pl := 0 } } ∧
      t = { s with cores := t.cores })) ∧
    (∀ rd, (s.core c).status.pl ≠ 3 → GResult c (.movrc c q rd 0x001) s rd (BitVec.ofNat 64 (coreId c)) false) ∧
    (∀ rd, (s.core c).status.pl = 0 → GResult c (.movrc c q rd 0x010) s rd (BitVec.ofNat 64 (s.core c).exc.vbase) false) ∧
    (∀ ra cr, crListed cr.toNat = true → levelOk (crWriteLevel cr.toNat) (s.core c).status.pl = false →
      exec (.movcr c q ra cr) s = .next (takeExc c { vector := 3, detail := cr.toNat } (s.modCore c Core.serialise))) ∧
    (∀ ra target seg a key, (s.core c).status.pl ≠ 2 → segCheck (s.core c) seg .read ((s.core c).gr ra).toNat 16 = .ok a →
      SramAt s c a .read 16 key → sgldRefused (s.core c) target (BitVec.ofNat 128 (leNat (memBytes s.mem key 16))) = false →
      Does (.sgld c q ra target seg) s (fun t =>
        (∀ j, (t.core c).seg j = if j = target then BitVec.ofNat 128 (leNat (memBytes s.mem key 16)) else (s.core c).seg j) ∧
        Completed c s t { s.core c with sg := (t.core c).sg } ∧ t = { s with cores := t.cores })) ∧
    (∀ ra target seg a key, (s.core c).status.pl ≠ 2 → segCheck (s.core c) seg .write ((s.core c).gr ra).toNat 16 = .ok a →
      OwnSramAt s c a .write 16 key →
      Does (.sgst c q ra target seg) s (fun t =>
        memBytes t.mem key 16 = leBytes 16 ((s.core c).seg target).toNat ∧ SameBytesOutside s t key 16 ∧
        Completed c s t (s.core c) ∧ t = { s with cores := t.cores, mem := t.mem, ecc := t.ecc })) ∧
    ((s.core c).status.pl ≠ 2 → wakeCond s c = false →
      Does (.wait c q) s (fun t =>
        (t.core c).run = (if waitDeep c s then .deepSleep else .lightSleep) ∧ (t.core c).pc = (s.core c).pc ∧
        (t.core c).g = (s.core c).g ∧ OnlyCore c s t)) ∧
    ((s.core c).status.pl = 2 →
      exec (.wait c q) s = .next (takeExc c { vector := 3 } (s.modCore c (fun k => k.issue []))))

/-- R337, R338, R345, R360: CALLS enters its gate with a frame on the target level's stack; RETX restores the frame at
the top of the stack, or raises the return-privilege fault. R340, R341, R354, R407: instructions whose effect is an
exception: UDF, reserved encodings and BRK; an armed BRK halts a core that debug may halt. -/
def Obligations.GatesAndTraps : Prop :=
  ((∀ (c : Nat) (q : Pred) (gate : BitVec 16) (gk key : Nat) (g : Gate) (s : State), Issues c q s → (s.core c).storeBuf = [] →
    (s.core c).status.pl ≠ 0 → gate.toNat < (s.core c).gateCount →
    SramAt s c ((s.core c).gateBase + 32 * gate.toNat) .read 32 gk → g = Gate.ofNat (leNat (memBytes s.mem gk 32)) →
    gateAllows g (s.core c).status.pl.toNat = true →
    stackValid ((s.core c).stackFor g.target).1 ((s.core c).stackFor g.target).2 g.target = true →
    SramAt s c (sgBase ((s.core c).stackFor g.target).1 + ((s.core c).stackFor g.target).2 - 64) .write 64 key →
    Does (.calls c q gate) s (fun t =>
      (t.core c).pc = BitVec.ofNat 32 g.entry ∧ (t.core c).status.pl = BitVec.ofNat 2 g.target ∧
      (t.core c).seg 7 = g.code ∧ (t.core c).seg 6 = ((s.core c).stackFor g.target).1 ∧
      (t.core c).gr 31 = BitVec.ofNat 64 (((s.core c).stackFor g.target).2 - 64) ∧
      (∀ r, r ≠ 31 → (t.core c).gr r = (s.core c).gr r) ∧ (t.core c).p = (s.core c).p ∧ (t.core c).a = (s.core c).a ∧
      memBytes t.mem key 64 = ((s.core c).callFrame gate.toNat g.target).bytes ∧ SameBytesOutside s t key 64 ∧
      (∀ d, d ≠ c → t.core d = s.core d) ∧ t = { s with cores := t.cores, mem := t.mem, ecc := t.ecc })) ∧
  (∀ (c : Nat) (q : Pred) (a key : Nat) (f : Frame) (s : State), Issues c q s → (s.core c).storeBuf = [] →
    (s.core c).status.pl ≠ 2 → frameCheck (s.core c) ((s.core c).gr 31).toNat = .ok a → SramAt s c a .read 64 key →
    f = Frame.ofNat (leNat (memBytes s.mem key 64)) →
    (returnRefused f (s.core c).status.pl.toNat = false →
      Does (.retx c q) s (fun t =>
        t.core c = { (s.core c).popFrame f with cycle := (t.core c).cycle, m := (t.core c).m, muls := (t.core c).muls } ∧
        (t.core c).pc = BitVec.ofNat 32 f.pc ∧ (t.core c).status.pl.toNat = f.pl ∧ (t.core c).gr 31 = BitVec.ofNat 64 f.g31 ∧
        (t.core c).seg 6 = BitVec.ofNat 128 f.sg6 ∧ (t.core c).seg 7 = BitVec.ofNat 128 f.sg7 ∧
        ((s.core c).status.pl = 0 → (t.core c).status = Status.ofNat f.status) ∧ OnlyCore c s t)) ∧
    (returnRefused f (s.core c).status.pl.toNat = true →
      exec (.retx c q) s = .next (takeExc c
        { vector := 8, faddr := ((s.core c).gr 31).toNat,
          detail := f.pl + 4 * f.origin + 16 * b2n (frameMalformed f) + 32 * (s.core c).status.pl.toNat }
        (logReturnFault c f ((s.core c).issue []) (s.modCore c (fun k => k.issue []))))))) ∧
  (∀ (c : Nat) (s : State), Fetches c s →
    (∀ w, exec (.udf c w) s = .next (takeExc c { vector := 6 } s)) ∧
    (∀ w, exec (.reservedEncoding c w) s =
      .next (takeExc c { vector := 7 } (s.modCore c (fun k => { k with emuWord := w })))) ∧
    (∀ q, (s.core c).predOk q = true → (s.core c).armed = false →
      exec (.brk c q) s = .next (takeExc c { vector := 0x0B } (s.modCore c (fun k => k.issue [])))) ∧
    (∀ q, (s.core c).predOk q = true → (s.core c).armed = true → debugHaltable c s = true →
      Does (.brk c q) s (fun t => (t.core c).run = .halted ∧ (t.core c).pc = (s.core c).pc ∧ (t.core c).g = (s.core c).g ∧
        OnlyCore c s t)) ∧
    (∀ q pd ra b cond w, pd ≠ 0 → exec (.cmp c q pd pd ra b cond w) s =
      .next (emuTrap c ((Ortan.encode (.cmp c q pd pd ra b cond w)).getD 0) s)))

/-- R353, R356, R357, R364: taking an exception: the frame and the entry; escalation to vector 0x0D; and the fault
stack where the ordinary stack is not valid. -/
def Obligations.ExceptionEntry : Prop :=
  ∀ (c : Nat) (e : Exc) (s : State), (s.core c).storeBuf = [] → (s.core c).exc.onFs = false → e.vector ≠ 0x0A →
    (s.core c).status.pl = 0 ∨ 72 ≤ c ∨ e.vector = 7 ∨ e.vector = 0x10 →
    (∀ entry code key, escalates e.vector (s.core c).status.iml.toNat = false → EntryReady s c e.vector entry code key →
      Entered s (takeExc c e s) c e.vector e.detail e.faddr e.level false entry code key) ∧
    (∀ entry code key, escalates e.vector (s.core c).status.iml.toNat = true → (s.core c).exc.escDepth = 0 →
      EntryReady s c 0x0D entry code key →
      Entered s (takeExc c e s) c 0x0D e.vector e.faddr 15 true entry code key ∧
      ((takeExc c e s).core c).exc.escDepth = 1) ∧
    (∀ vk, escalates e.vector (s.core c).status.iml.toNat = false → hasFaultStack c = true →
      SramAt s c ((s.core c).exc.vbase + 32 * e.vector) .read 32 vk →
      stackValid ((s.core c).stackFor 0).1 ((s.core c).stackFor 0).2 0 = false →
      codeValid (s.core c).exc.fsCode (s.core c).exc.fsEntry.toNat = true → (s.core c).exc.fsDepth < 16 →
      ((takeExc c e s).core c).exc.onFs = true ∧ ((takeExc c e s).core c).exc.fsDepth = (s.core c).exc.fsDepth + 1 ∧
      ((takeExc c e s).core c).pc = BitVec.ofNat 32 (s.core c).exc.fsEntry.toNat ∧
      ((takeExc c e s).core c).status = { bprog := 0, satf := false, iml := 15, pl := 0 } ∧ (takeExc c e s).mem = s.mem)

/-- R348, R352, R358, R364, R378: bus errors reported and delivered, events entered, and the control registers of
chapter 10 that the table names. R372 to R386: event lines, presentation, claims, releases, held words, wakes and
device events. -/
def Obligations.ExceptionsAndEvents : Prop :=
  ((∀ c cls rule e l s, (s.core c).storeBuf = e :: l →
    Does (.asyncBusError c cls rule) s (fun t =>
      (t.core c).storeBuf = l ∧ (t.core c).exc.abe.valid = true ∧ (t.core c).g = (s.core c).g ∧ (t.core c).pc = (s.core c).pc ∧
      ((s.core c).exc.abe.valid = false →
        (t.core c).exc.abePend = true ∧ (t.core c).exc.abe.addr = e.addr ∧ (t.core c).exc.abe.cls = cls ∧
        (t.core c).exc.abe.storePl = e.pl ∧ (t.core c).exc.abe.more = 0) ∧
      ((s.core c).exc.abe.valid = true →
        (t.core c).exc.abe.addr = (s.core c).exc.abe.addr ∧ (t.core c).exc.abe.more = min 255 ((s.core c).exc.abe.more + 1)) ∧
      (∀ d, d ≠ c → t.core d = s.core d) ∧ t.mem = s.mem)) ∧
  (∀ c s, (s.core c).run = .running → (s.core c).exc.abePend = true → (s.core c).status.iml.toNat < 15 →
    exec (.abeDelivery c) s = .next (takeExc c { vector := 0x0A, level := 13, faddr := (s.core c).exc.abe.addr } s)) ∧
  (∀ c l s, (s.core c).run = .running → abeDeliverable (s.core c) = false → irqLevel (s.core c) = l →
    (s.core c).status.iml.toNat < l →
    exec (.eventEntry c) s = .next (takeExc c { vector := 0x10, level := l, detail := l } s)) ∧
  (∀ c s, Fetches c s → (s.core c).status.pl = 0 → (s.core c).muls = [] →
    (∀ v, Does (.mhiWrite c v) s (fun t =>
      tget 0 (t.core c).m (s.core c).exc.msel.toNat = v ++ (s.core c).exc.mlo ∧
      (∀ j, j ≠ (s.core c).exc.msel.toNat → tget 0 (t.core c).m j = tget 0 (s.core c).m j) ∧
      t.core c = { s.core c with m := (t.core c).m, pc := (s.core c).pc + 8, status := { (s.core c).status with bprog := 0 }, cycle := (t.core c).cycle, ready := [] } ∧ OnlyCore c s t)) ∧
    Does (.fsLock c) s (fun t =>
      Completed c s t { s.core c with exc := { (s.core c).exc with fsLock := true } } ∧ t = { s with cores := t.cores }) ∧
    Does (.abeInfoClear c) s (fun t =>
      Completed c s t { s.core c with exc := { (s.core c).exc with
        abe := { (s.core c).exc.abe with valid := false, more := 0, moreOvf := false } } } ∧ t = { s with cores := t.cores }))) ∧
  ((∀ n line s, n < 9 → lineExists line = true →
    lineKind (s.intcOf n) line = 1 ∨ ((s.intcOf n).retained = false ∧ wordHeld s n (line / 32) = false) →
    Does (.eventLineRaise n line) s (fun t =>
      pendBit (t.intcOf n) line = true ∧ (t.intcOf n).mask = (s.intcOf n).mask ∧ (∀ j, j ≠ n → t.intcOf j = s.intcOf j) ∧
      t = { s with intc := t.intc })) ∧
  (∀ n line s, n < 9 → lineExists line = true → lineKind (s.intcOf n) line = 1 → recordsOf n line s = [] →
    Does (.eventLineFall n line) s (fun t =>
      srcBit (t.intcOf n) line = false ∧ pendBit (t.intcOf n) line = false ∧ t.cores = s.cores ∧
      (∀ j, j ≠ n → t.intcOf j = s.intcOf j) ∧ t = { s with intc := t.intc })) ∧
  (∀ n line c s, n < 9 → c < 8 → isReqEvent line = false → linePresentable s n line = true → lineKind (s.intcOf n) line = 0 →
    targetCores (s.intcOf n) line = [c] → hasPosition (s.core (n * 8 + c)) (n * 8 + c) line = true →
    runPriority (s.core (n * 8 + c)) < 16 →
    Does (.eventPresent n line) s (fun t =>
      (∃ r, tfind (t.core (n * 8 + c)).ev.erq (firstFree (s.core (n * 8 + c)).ev.erq 0) = some r ∧ r.event = line ∧
        r.level = lineLevel (s.intcOf n) line ∧ r.seq = (s.core (n * 8 + c)).ev.nextSeq ∧ r.claimed = false) ∧
      (t.core (n * 8 + c)).ev.nextSeq = (s.core (n * 8 + c)).ev.nextSeq + 1 ∧ pendBit (t.intcOf n) line = false ∧
      (∀ d, d ≠ n * 8 + c → t.core d = s.core d) ∧ (∀ j, j ≠ n → t.intcOf j = s.intcOf j))) ∧
  (∀ c pos r s, c < 72 → tfind (s.core c).ev.erq pos = some r → r.claimed = false → isReqEvent r.event = false →
    lineKind (s.intcOf (c / 8)) r.event = 1 → srcBit (s.intcOf (c / 8)) r.event = false → wordHeld s (c / 8) (r.event / 32) = false →
    Does (.recordWithdraw c pos) s (fun t =>
      tfind (t.core c).ev.erq pos = none ∧ maskBit (t.intcOf (c / 8)) r.event = false ∧
      (∀ d, d ≠ c → t.core d = s.core d))) ∧
  (∀ c pos r s, Fetches c s → (s.core c).status.pl.toNat ≤ 1 → bestRecord (s.core c).ev.erq = some (pos, r) →
    isReqEvent r.event = false →
    Does (.claim c) s (fun t =>
      tfind (t.core c).ev.erq pos = some { r with claimed := true } ∧
      (∀ j, j ≠ pos → tfind (t.core c).ev.erq j = tfind (s.core c).ev.erq j) ∧ t.out = .value (r.event * 2 ^ 16 + pos) :: s.out ∧
      (∀ d, d ≠ c → t.core d = s.core d))) ∧
  (∀ c pos r s, Fetches c s → (s.core c).status.pl.toNat ≤ 1 → pos < 1024 → tfind (s.core c).ev.erq pos = some r → r.claimed = true →
    Does (.release c pos) s (fun t =>
      tfind (t.core c).ev.erq pos = none ∧ (∀ j, j ≠ pos → tfind (t.core c).ev.erq j = tfind (s.core c).ev.erq j) ∧
      OnlyCore c s t)) ∧
  (∀ n word v s, n < 9 → word < 16 → Does (.pendWrite n word v) s (fun t =>
    (∀ i, i < 32 → lineExists (32 * word + i) = true → lineKind (s.intcOf n) (32 * word + i) = 0 → pendBit (t.intcOf n) (32 * word + i) = bit v.toNat i) ∧
    (∀ i, i < 32 → lineExists (32 * word + i) = true → lineKind (s.intcOf n) (32 * word + i) = 1 →
      pendBit (t.intcOf n) (32 * word + i) = pendBit (s.intcOf n) (32 * word + i)) ∧
    (∀ i, i < 32 → lineExists (32 * word + i) = true → lineKind (s.intcOf n) (32 * word + i) = 2 →
      pendBit (t.intcOf n) (32 * word + i) = (pendBit (s.intcOf n) (32 * word + i) && bit v.toNat i)) ∧
    (∀ j, j ≠ n → t.intcOf j = s.intcOf j) ∧ t = { s with intc := t.intc })) ∧
  (∀ c word s, Fetches c s → (s.core c).status.pl = 0 → c < 72 → word < 16 → (s.core c).ev.holdGrant = false → heldByOther s c word = false →
    Does (.holdwRequest c word) s (fun t =>
      Completed c s t { s.core c with ev := { (s.core c).ev with holdEn := true, holdWord := BitVec.ofNat 4 word, holdGrant := true } } ∧
      t = { s with cores := t.cores })) ∧
  (∀ c s, Fetches c s → (s.core c).status.pl = 0 → (s.core c).ev.holdGrant = false →
    Does (.holdwRelease c) s (fun t =>
      Completed c s t { s.core c with ev := { (s.core c).ev with holdEn := false } } ∧ t = { s with cores := t.cores })) ∧
  (∀ c s, (s.core c).ev.holdGrant = true →
    Does (.holdwLimit c) s (fun t =>
      t.core c = { s.core c with ev := { (s.core c).ev with holdGrant := false } } ∧ (∀ d, d ≠ c → t.core d = s.core d))) ∧
  (∀ c s, (s.core c).run = .lightSleep → (bestRecord (s.core c).ev.erq).isSome = true →
    Does (.wake c) s (fun t => t.core c = { s.core c with run := .running, pc := (s.core c).pc + 8, status := { (s.core c).status with bprog := 0 } } ∧
      (∀ d, d ≠ c → t.core d = s.core d) ∧ t = { s with cores := t.cores, intc := t.intc })) ∧
  (∀ c s, (s.core c).run = .deepSleep → (bestRecord (s.core c).ev.erq).isSome = true →
    Does (.deepSleepWake c) s (fun t => t.core c = { s.core c with run := .running, pc := (s.core c).pc + 8, status := { (s.core c).status with bprog := 0 } } ∧
      (∀ d, d ≠ c → t.core d = s.core d) ∧ t = { s with cores := t.cores, intc := t.intc })) ∧
  (∀ event data s, devLevel event ≠ 0 → Does (.deviceEventRaise event data) s (fun t => Latched t event ∧ t.cores = s.cores)) ∧
  (∀ l rest s, s.devEv = l :: rest → hasPosition (s.core 0x50) 0x50 l.event = true →
    Does .deviceEventRecord s (fun t =>
      t.devEv = rest ∧ (∃ r, tfind (t.core 0x50).ev.erq (firstFree (s.core 0x50).ev.erq 0) = some r ∧ r.event = l.event ∧
        r.level = devLevel l.event ∧ r.data = l.data ∧ r.count = l.count ∧ r.tRaise = l.tRaise) ∧
      (∀ d, d ≠ 0x50 → t.core d = s.core d))))

/-- R398 to R404: writing, checking and committing the access table. A check that passes leaves no overlapping,
reversed or badly grained valid rule; only a commit of a checked shadow changes the live table. R394, R396, R403,
R404: an access is granted only where some valid rule of the live table holds its first byte and gives its master the
right; a debug access to a sealed region is refused. -/
def Obligations.AccessRules : Prop :=
  ((∀ s, Does .aclCheck s (fun t => t = { s with acl := { s.acl with busy := true, checked := false } })) ∧
  (∀ s, s.acl.busy = true → Does .aclCheckComplete s (fun t =>
    t.acl.busy = false ∧ t.acl.live = s.acl.live ∧ t.acl.shadow = s.acl.shadow ∧ t.acl.epoch = s.acl.epoch ∧
    (t.acl.checked = true ↔ t.acl.result = 0) ∧
    (t.acl.checked = true →
      (∀ e f, e ∈ s.acl.shadow.rules → f ∈ s.acl.shadow.rules → e.1 ≠ f.1 → ruleValid e.2 = true → ruleValid f.2 = true →
        ruleEnd e.2 < ruleStart f.2 ∨ ruleEnd f.2 < ruleStart e.2) ∧
      (∀ e, e ∈ s.acl.shadow.rules → ruleValid e.2 = true →
        ruleStart e.2 ≤ ruleEnd e.2 ∧ ruleStart e.2 % aclGrain s.acl.shadow = 0 ∧
        (ruleEnd e.2 + 1) % aclGrain s.acl.shadow = 0 ∧ ruleReserved e.2 = 0)) ∧
    t = { s with acl := t.acl })) ∧
  (∀ s, s.acl.checked = true → s.acl.busy = false → Does .aclCommit s (fun t =>
    t.acl.live = s.acl.shadow ∧ t.acl.committed = true ∧ t.acl.epoch = min (2 ^ 32 - 1) (s.acl.epoch + 1) ∧ t.acl.result = 0 ∧
    t = { s with acl := t.acl })) ∧
  (∀ s, s.acl.checked = false ∨ s.acl.busy = true → Does .aclCommit s (fun t =>
    t.acl.live = s.acl.live ∧ t.acl.committed = s.acl.committed ∧ t.acl.epoch = s.acl.epoch ∧ t.acl.result = 6 ∧
    t = { s with acl := t.acl })) ∧
  (∀ off size v s, off = 0 ∨ (0x1000 ≤ off ∧ off < 0x2000) ∨ (0x10000 ≤ off ∧ off < 0x20000) →
    Does (.aclShadowWrite off size v) s (fun t =>
      t.acl.checked = false ∧ t.acl.busy = false ∧ t.acl.live = s.acl.live ∧ (s.acl.busy = true → t.acl.result = 8) ∧
      (off = 0 → t.acl.shadow.extended = (v % 2 = 1 : Bool) ∧ t.acl.shadow.rules = s.acl.shadow.rules) ∧
      (0x10000 ≤ off → ∀ i, i ≠ (off - 0x10000) / 16 → tget 0 t.acl.shadow.rules i = tget 0 s.acl.shadow.rules i) ∧
      t = { s with acl := t.acl })) ∧
  (∀ s, (s.core 0x50).storeBuf = [] → Does .aclEpoch s (fun t =>
    t.out = .value s.acl.epoch :: s.out ∧ (t.core 0x50).aclPending = false ∧ t = { s with out := t.out, cores := t.cores })) ∧
  (∀ v l s, s.acl.log = v :: l → Does .aclVpop s (fun t => t = { s with acl := { s.acl with log := l } }))) ∧
  ((∀ (s : State) (m a size : Nat) (k : AccKind) (n o : Nat), resolve s m a = .sram n o → 0 < size → accessVerdict s m k a size = none →
    s.acl.committed = true ∧ ∃ i r, (i, r) ∈ s.acl.live.rules ∧ ruleValid r = true ∧
      ruleStart r ≤ checkAddr m a ∧ k.allowed (rightsOf s.acl.live r m) = true ∧ (k.isDebug = true → ruleSealed r = false)) ∧
  (∀ (s : State) (m a size : Nat) (k : AccKind), resolve s m a = .hole → ∃ v, accessVerdict s m k a size = some v ∧ v.noMatch = true))

/-- R411 to R413, R416 to R418: MPE_ZERO, re-encryption, the patrol scrubs and the copy to a spare unit. R322, R406 to
R408, R536, R541, R626: the debug protocol and the test access port. -/
def Obligations.ProtectionAndDebug : Prop :=
  ((∀ start size s, counterUnit start size = true → s.mpe.poison.any (fun p => p.start = start && p.size = size) = true →
    parentFails start size s = false → (start, size) ∉ s.mpe.zeroing →
    Does (.mpeZero start size) s (fun t => t = { s with mpe := { s.mpe with zeroing := s.mpe.zeroing ++ [(start, size)] } })) ∧
  (∀ a n l s, s.mpe.zeroing = (a, n) :: l → memWf s.mem = true →
    Does .mpeZeroComplete s (fun t =>
      (∀ i, 0x1000000000 + a ≤ i → i < 0x1000000000 + a + n → memByte t.mem i = 0) ∧
      SameBytesOutside s t (0x1000000000 + a) n ∧ memWf t.mem = true ∧ t.mpe.zeroing = l ∧
      (∀ p, p ∈ t.mpe.poison ↔ p ∈ s.mpe.poison ∧ ¬(a ≤ p.start ∧ p.start + p.size ≤ a + n)) ∧
      t = { s with mem := t.mem, ecc := t.ecc, mpe := t.mpe })) ∧
  (∀ g s, Does (.reencryptionComplete g) s (fun t =>
    (∀ x, x ∈ t.mpe.reencrypting ↔ x ∈ s.mpe.reencrypting ∧ x ≠ g) ∧ t = { s with mpe := { s.mpe with reencrypting := t.mpe.reencrypting } })) ∧
  (∀ n w s, (s.chan n).data = .inService → n < 9 → w < 524288 →
    Does (.sramPatrolScrub n w .clean) s (fun t => t = s) ∧
    Does (.sramPatrolScrub n w .uncorrectable) s (fun t =>
      readError t (.sram n (8 * w)) 8 = some 4)) ∧
  (∀ line s, 64 * line < ddrUsable s →
    Does (.ddrPatrolScrub line .clean) s (fun t => t = s) ∧
    (s.mpe.poison.length < 4096 → Does (.ddrPatrolScrub line .uncorrectable) s (fun t =>
      (∃ p, p ∈ t.mpe.poison ∧ p.start = 64 * line ∧ p.size = 64) ∧ t.mem = s.mem ∧ t.cores = s.cores))) ∧
  (∀ u s, Does (.remapCopyComplete u) s (fun t => t = { s with ddr := { s.ddr with copying := s.ddr.copying.filter (fun x => !(x == u)) } }))) ∧
  ((∀ size addr key s, s.life.halted = false → dbgBusy s = false → debugEnabled s = true → dbgSizeOk size = true →
    accessVerdict s 0x7E .debugRead addr size = none → (∃ n o, resolve s 0x7E addr = .sram n o ∧ key = memKey (.sram n o) ∧ readError s (.sram n o) size = none) →
    Does (.memRd size addr) s (fun t =>
      t.out = .dbg 0 (leNat (memBytes s.mem key size)) :: s.out ∧ t = { s with out := t.out, dbg := t.dbg })) ∧
  (∀ size addr data key s, s.life.halted = false → dbgBusy s = false → debugEnabled s = true → dbgSizeOk size = true →
    accessVerdict s 0x7E .debugWrite addr size = none → (∃ n o, resolve s 0x7E addr = .sram n o ∧ key = memKey (.sram n o) ∧ readError s (.sram n o) size = none) →
    Does (.memWr size addr data) s (fun t =>
      memBytes t.mem key size = leBytes size data ∧ SameBytesOutside s t key size ∧ t.out = .dbg 0 0 :: s.out ∧
      t = { s with out := t.out, dbg := t.dbg, mem := t.mem, ecc := t.ecc })) ∧
  (∀ size addr s, debugEnabled s = false → s.life.halted = false → dbgBusy s = false →
    Does (.memRd size addr) s (fun t => t.out = .dbg 4 0 :: s.out ∧ t = { s with out := t.out, dbg := t.dbg })) ∧
  (∀ c s, dbgBusy s = false → debugHaltable c s = true → canHalt (s.core c) = true →
    Does (.halt c) s (fun t => t.core c = { s.core c with run := .halted, haltedFrom := (s.core c).run } ∧
      (∀ d, d ≠ c → t.core d = s.core d) ∧ t.out = .dbg 0 0 :: s.out)) ∧
  (∀ c s, dbgBusy s = false → debugEnabled s = true → s.life.halted = false → (s.core c).run = .halted →
    Does (.debugResume c) s (fun t => t.core c = { s.core c with run := (s.core c).haltedFrom } ∧
      (∀ d, d ≠ c → t.core d = s.core d) ∧ t.out = .dbg 0 0 :: s.out)) ∧
  (∀ c i s u, dbgBusy s = false → debugEnabled s = true → s.life.halted = false → (s.core c).run = .halted →
    Ortan.decode c (wordAtPc c s) = i →
    isaRun i ((dbgRequest 0x12 0 c 0 0 s).modCore c (fun k => { k with run := .running })) = .next u → (u.core c).run = .running →
    Does (.step c) s (fun t => t.core c = { u.core c with run := .halted, haltedFrom := .running } ∧ t.mem = u.mem ∧
      t.out = .dbg 0 0 :: u.out)) ∧
  (∀ c r s, dbgBusy s = false → debugEnabled s = true → s.life.halted = false → (s.core c).run = .halted →
    Does (.regRd c (.g r)) s (fun t => t.out = .dbg 0 ((s.core c).gr r).toNat :: s.out ∧ t.cores = s.cores ∧ t.mem = s.mem)) ∧
  (∀ c s, dbgBusy s = false → debugHaltable c s = true →
    Does (.armBrk c) s (fun t => t.core c = { s.core c with armed := true } ∧ (∀ d, d ≠ c → t.core d = s.core d) ∧
      t.out = .dbg 0 0 :: s.out)) ∧
  (∀ c s, dbgBusy s = false → s.life.halted = false →
    Does (.dstatRd c) s (fun t => (t.core c).earlyRead = none ∧ t.core c = { s.core c with earlyRead := none } ∧
      (∀ d, d ≠ c → t.core d = s.core d))) ∧
  (∀ s, Does .tapReset s (fun t => t = { s with pins := { s.pins with tapIr := 0x1 } })) ∧
  (∀ s, Does .idcode s (fun t => t.pins.tapIr = 0x1 ∧ t.out = .value 0x19640E1D :: .tap 0 false :: s.out)) ∧
  (∀ s, Does .samplePreload s (fun t => t.pins.tapIr = 0x2 ∧ t.out = .tap 2 false :: s.out)) ∧
  (∀ s, Does .bypass s (fun t => t.pins.tapIr = 0xF ∧ t.out = .tap 1 false :: s.out)) ∧
  (∀ s, s.pins.sysRst = true →
    Does .extest s (fun t => t.pins.tapIr = 0x0 ∧ t.out = .tap 2 true :: s.out) ∧
    Does .clamp s (fun t => t.pins.tapIr = 0x3 ∧ t.out = .tap 1 true :: s.out) ∧
    Does .highz s (fun t => t.pins.tapIr = 0x4 ∧ t.out = .tap 1 true :: s.out)) ∧
  (∀ s, s.pins.sysRst = false →
    Does .extest s (fun t => t.pins.tapIr = 0xF ∧ t.out = .tap 1 false :: s.out) ∧
    Does .clamp s (fun t => t.pins.tapIr = 0xF ∧ t.out = .tap 1 false :: s.out) ∧
    Does .highz s (fun t => t.pins.tapIr = 0xF ∧ t.out = .tap 1 false :: s.out)))

/-- R431, R435 to R438: management transports: CAN segments, bus-off, mailboxes, and the HELLO of an observer. -/
def Obligations.ManagementTransports : Prop :=
  (∀ id seg c s, s.mgmt.busOff = false → s.cfg 0x1010 3 ≠ 0 → bits id 28 27 = 2 → bits id 26 24 = c → bits id 23 8 = 0 →
    bits id 7 0 = s.cfg 0x1010 1 → tfind s.mgmt.can c = none →
    Does (.canFrameReceive true true id (0x80 :: seg)) s (fun t =>
      tfind t.mgmt.can c = some { next := 1, data := seg.take 63, since := s.time } ∧
      (∀ j, j ≠ c → tfind t.mgmt.can j = tfind s.mgmt.can j) ∧ t.mgmt.sess = s.mgmt.sess)) ∧
  (∀ ext fd id data s, ext = false ∨ bits id 7 0 ≠ s.cfg 0x1010 1 ∨ s.mgmt.busOff = true →
    Does (.canFrameReceive ext fd id data) s (fun t => t = s)) ∧
  (∀ c r s, tfind s.mgmt.can c = some r → r.since + 100000000 ≤ s.time →
    Does (.canReassemblyTimeout c) s (fun t => tfind t.mgmt.can c = none ∧ (∀ j, j ≠ c → tfind t.mgmt.can j = tfind s.mgmt.can j) ∧
      t.mgmt.sess = s.mgmt.sess)) ∧
  (∀ s, s.mgmt.busOff = false → Does .busOff s (fun t => t.mgmt = { s.mgmt with busOff := true })) ∧
  (∀ s, Does .busOffRecovery s (fun t => t = { s with mgmt := { s.mgmt with busOff := false } })) ∧
  (∀ f v s, f < 8 → bit (s.mailbox f).ctrl 31 = true → (s.mailbox f).state = 0 → 48 ≤ v % 65536 → v % 65536 ≤ 4400 →
    exec (.mbDoorbell f v) s = .next (mgLocal (8 + f) ((List.range (v % 65536)).map (fun i => tget 0 (s.mailbox f).req i))
      (devEvent 0x8061 f (s.modMailbox f (fun k => { k with state := 1, rspLen := 0 }))))) ∧
  (∀ f v s, f < 8 → bit (s.mailbox f).ctrl 31 = true → (s.mailbox f).state ≠ 0 →
    Does (.mbDoorbell f v) s (fun t => t.mailbox f = { s.mailbox f with ignored := sat32 ((s.mailbox f).ignored + 1) } ∧
      (∀ j, j ≠ f → t.mailbox j = s.mailbox j) ∧ t = { s with mgmt := t.mgmt })) ∧
  (∀ f s, f < 8 → Does (.mbAck f) s (fun t => t.mailbox f = { s.mailbox f with state := 0 } ∧
    (∀ j, j ≠ f → t.mailbox j = s.mailbox j) ∧ t = { s with mgmt := t.mgmt })) ∧
  (∀ f s, f < 8 → Does (.mbDisable f) s (fun t =>
    bit (t.mailbox f).ctrl 31 = false ∧ (t.mailbox f).state = 0 ∧ t.mgSess (8 + f) = none ∧
    (∀ j, j ≠ 8 + f → t.mgSess j = s.mgSess j))) ∧
  (∀ m body s, m < 16 → mgHelloGood body = true → s.supRestarting = false → s.mgSess m = none → leAt body 0 1 = 0 →
    s.cfgB 0x1041 1 = true →
    Does (.mgmtHello m body) s (fun t => (∃ k, t.mgSess m = some k ∧ k.auth = false ∧ k.handshake = false ∧ k.role = 0 ∧ k.txn = none) ∧
      (∀ j, j ≠ m → t.mgSess j = s.mgSess j)))

/-- R424 to R441, R446: the management operations: each request is answered once, with its result, and changes what
its operation says. -/
def Obligations.ManagementOperations : Prop :=
  ∀ (m : Nat) (k : MgSess) (s : State), Asks s m k →
    (∀ flags items x, itemCountOk items = true → flags < 2 → (readItems m flags 0 items (heard m k s)).1.length ≤ 4336 →
      (readItems m flags 0 items (heard m k s)).2.2.mgSess m = some x →
      Does (.read m flags items) s (Replied m 1 0 (readItems m flags 0 items (heard m k s)).2.2)) ∧
    (∀ items x, itemCountOk items = true → (writeItems m 0 items (heard m k s)).1.length ≤ 4336 →
      (writeItems m 0 items (heard m k s)).2.2.2.mgSess m = some x →
      Does (.write m items) s (Replied m 2 0 (writeItems m 0 items (heard m k s)).2.2.2)) ∧
    (∀ items, itemCountOk items = true →
      (items.map (fun it => (describeItem it).1)).flatten.length ≤ 4336 →
      Does (.describe m items) s (fun t => Replied m 3 0 (heard m k s) t)) ∧
    (∀ it x, nextKey? k.role (odKey it.index it.sub) = some x → (odFind (x / 256) (x % 256)).isSome = true →
      Does (.next m [it]) s (fun t => Replied m 4 0 (heard m k s) t)) ∧
    (k.txn = none → Does (.begin m) s (fun t => ∃ u, Replied m 0x10 0 u t ∧
      u.mgSess m = some { k with lastRx := s.time, txn := some { id := s.mgmt.nextTxn, openedAt := s.time } } ∧
      (∀ j, j ≠ m → u.mgSess j = s.mgSess j) ∧
      u = { s with mgmt := { s.mgmt with nextTxn := s.mgmt.nextTxn + 1, sess := u.mgmt.sess } })) ∧
    (∀ x, k.txn = some x → Does (.begin m) s (fun t => Replied m 0x10 9 (heard m k s) t)) ∧
    (∀ x, k.txn = some x → x.state = .opened → Does (.rollback m) s (fun t => ∃ u, Replied m 0x12 0 u t ∧
      u.mgSess m = some { k with lastRx := s.time, txn := none } ∧ (∀ j, j ≠ m → u.mgSess j = s.mgSess j) ∧
      u = { s with mgmt := { s.mgmt with sess := u.mgmt.sess } })) ∧
    (k.txn = none → Does (.rollback m) s (fun t => Replied m 0x12 0x0A (heard m k s) t) ∧
      Does (.commit m) s (fun t => Replied m 0x11 0x0A (heard m k s) t)) ∧
    (∀ x, k.txn = some x → x.state = .opened → commitAllowed s = true →
      x.staged.all (fun y => roleWrites k.role y.index y.sub && (k.role != 3 || recordsOwn (heard m k s) m { k with lastRx := s.time } y.index y.data)) = true →
      exec (.commit m) s = .next (nextCommits (((heard m k s).setMg m { k with lastRx := s.time, inFlight := true, txn := some { x with state := .committing } }).modMgmt
        (fun g => { g with commits := g.commits ++ [m] })))) ∧
    Does (.txnStatus m) s (fun t => Replied m 0x13 0 (heard m k s) t) ∧
    (k.notices.length ≤ 256 → Does (.poll m) s (fun t => ∃ u, Replied m 0x20 0 u t ∧
      u.mgSess m = some { k with lastRx := s.time, notices := [] } ∧ (∀ j, j ≠ m → u.mgSess j = s.mgSess j) ∧
      u = { s with mgmt := { s.mgmt with sess := u.mgmt.sess } })) ∧
    (∀ x, k.txn = some x → x.state = .opened → k.lastRx + s.cfg 0x1100 1 * 1000000 ≤ s.time →
      Does (.txnInactivityExpiry m) s (fun t => ∃ k', t.mgSess m = some k' ∧ k'.txn = none ∧
        (∀ j, j ≠ m → t.mgSess j = s.mgSess j) ∧ t.od = s.od ∧ t.ks = s.ks)) ∧
    (∀ x, k.txn = some x → x.state = .opened → x.openedAt + s.cfg 0x1100 2 * 1000000000 ≤ s.time →
      Does (.txnLifetimeExpiry m) s (fun t => ∃ k', t.mgSess m = some k' ∧ k'.txn = none ∧
        (∀ j, j ≠ m → t.mgSess j = s.mgSess j) ∧ t.od = s.od ∧ t.ks = s.ks))

/-- R442, R443: a commit past step 1: the end of its store write brings the commit point, and the install of the last
channel its reply; a failed write leaves its transaction open. -/
def Obligations.CommitCourse : Prop :=
  (∀ j s, s.mgmt.job = some j → j.stage = 3 → j.imageWait = false →
    exec (.configStoreWritten true) s = .next (nextCommits (commitPoint j s))) ∧
  (∀ j u s, s.mgmt.job = some j → j.stage = 3 → j.imageWait = false → applyJob j { s with free := j.free0 } = .ok u →
    ∃ v e, exec (.configStoreWritten true) s = .next (nextCommits v) ∧ v.mgmt.cgen = s.mgmt.cgen + 1 ∧
      v.mgmt.log.head? = some e ∧ e.cgen = s.mgmt.cgen + 1 ∧ e.txn = j.txn ∧ e.outcome = 0) ∧
  (∀ j m k x s, s.mgmt.job = some j → j.stage = 3 → j.imageWait = false → j.dtxn = none → j.sess = some m → s.mgSess m = some k →
    k.txn = some x → s.mgmt.commits = [] → s.mgmt.toApply = [] →
    Does (.configStoreWritten false) s (fun t =>
      t.mgmt.job = none ∧ t.mgmt.cgen = s.mgmt.cgen ∧ t.od = s.od ∧ t.ks = s.ks ∧
      ∃ k', t.mgSess m = some k' ∧ k'.txn = some { x with state := .opened } ∧ leAt k'.cached 2 2 = 0x13)) ∧
  (∀ n j s, s.mgmt.job = some j → j.stage = 6 → n ∈ j.waits → j.waits.filter (fun x => x != n) ≠ [] →
    Does (.channelInstallCommit n) s (fun t =>
      (t.chan n).cgenInstalled = max (s.chan n).cgenInstalled j.cgen ∧
      t.mgmt.job = some { j with waits := j.waits.filter (fun x => x != n) } ∧ t.od = s.od ∧
      (∀ i, i ≠ n → t.chan i = s.chan i))) ∧
  (∀ n j s, s.mgmt.job = some j → j.stage = 6 → n ∈ j.waits → j.waits.filter (fun x => x != n) = [] →
    exec (.channelInstallCommit n) s = .next (nextCommits (commitEnds { j with waits := [] }
      (s.modChan n (fun c => { c with cgenInstalled := max c.cgenInstalled j.cgen })))))

/-- R456 to R459, R461, R465: port states: each bring-up event moves its port as the tables say, a failed attempt
counts, a failure in service retrains, and a rekey takes the next epoch. -/
def Obligations.FriezePorts : Prop :=
  (∀ p s, p < 3 → (s.frzPort p).state = .detect →
    Does (.portSignalDetect p) s (fun t => (t.frzPort p).state = .train ∧ (t.frzPort p).mgmt = .train ∧ Latched t (0x8050 + p) ∧
      (∀ q, q ≠ p → t.frzPort q = s.frzPort q) ∧
      ∃ c o h d, t = { s with frz := t.frz, ctr := c, ovf := o, health := h, devEv := d })) ∧
  (∀ p loss s, p < 3 → (s.frzPort p).state = .train ∨ (s.frzPort p).state = .retrain → loss.any (fun v => decide (300 < v)) = false →
    Does (.trainingComplete p true loss) s (fun t => (t.frzPort p).state = .align ∧ (∀ q, q ≠ p → t.frzPort q = s.frzPort q))) ∧
  (∀ p ber loss s, p < 3 → (s.frzPort p).state = .train ∨ (s.frzPort p).state = .retrain →
    ber = false ∨ loss.any (fun v => decide (300 < v)) = true →
    Does (.trainingComplete p ber loss) s (fun t =>
      (t.frzPort p).state = (if 8 ≤ (s.frzPort p).attempts + 1 then .failed else .detect) ∧
      (t.frzPort p).attempts = (s.frzPort p).attempts + 1 ∧ (∀ q, q ≠ p → t.frzPort q = s.frzPort q))) ∧
  (∀ p s, p < 3 → (s.frzPort p).state = .align →
    Does (.alignLock p) s (fun t => (t.frzPort p).state = .handshake ∧ (t.frzPort p).enteredAt = s.time ∧ (∀ q, q ≠ p → t.frzPort q = s.frzPort q))) ∧
  (∀ p nonce pub cap chain leaf anchor sig ok s, p < 3 → (s.frzPort p).state = .handshake →
    Does (.lhello p nonce pub cap chain leaf anchor sig ok) s (fun t =>
      (∀ q, q ≠ p → t.frzPort q = s.frzPort q) ∧
      if anchorUsable s = true ∧ ok = true ∧ (s.slot (s.cfg 0x6001 1)).pub = anchor ∧
        pkVerify 2 2 false leaf (sha384 (lhelloBody nonce pub cap chain)) [] sig = true
      then (t.frzPort p).state = .measure ∧ (t.frzPort p).cap = padTo 64 cap ∧
        (((t.frzPort p).txKey, (t.frzPort p).txIv), ((t.frzPort p).rxKey, (t.frzPort p).rxIv)) = linkKeys s (s.frzPort p) nonce pub cap
      else (t.frzPort p).state = .detect)) ∧
  (∀ p s, p < 3 → (s.frzPort p).state = .measure → 16 ≤ (s.frzPort p).exchanges → 5000000 < dC (s.frzPort p) →
    Does (.measureComplete p) s (fun t => (t.frzPort p).state = .failed ∧ (∀ q, q ≠ p → t.frzPort q = s.frzPort q))) ∧
  (∀ p s, p < 3 → (s.frzPort p).state = .measure → 16 ≤ (s.frzPort p).exchanges → dC (s.frzPort p) ≤ 5000000 →
    joinResult s p ≠ 0 → Does (.measureComplete p) s (fun t =>
      (t.frzPort p).state = .held ∧ (t.frzPort p).join = joinResult s p ∧ (∀ q, q ≠ p → t.frzPort q = s.frzPort q))) ∧
  (∀ p s, p < 3 → (s.frzPort p).state = .measure → 16 ≤ (s.frzPort p).exchanges → dC (s.frzPort p) ≤ 5000000 →
    joinResult s p = 0 → ∃ u, exec (.measureComplete p) s = .next (partnerJoined u) ∧ (u.frzPort p).state = .up ∧
      (u.frzPort p).join = 0 ∧ (u.frzPort p).attempts = 0) ∧
  (∀ p l s, p < 3 → stepLimit (s.frzPort p).state = some l → (s.frzPort p).enteredAt + l ≤ s.time →
    Does (.bringupStepTimeout p) s (fun t =>
      (t.frzPort p).state = (if 8 ≤ (s.frzPort p).attempts + 1 then .failed else .detect) ∧ (∀ q, q ≠ p → t.frzPort q = s.frzPort q))) ∧
  (∀ p s, p < 3 → (s.frzPort p).state = .up ∨ (s.frzPort p).state = .held →
    Does (.laneLossOfLock p) s (fun t => (t.frzPort p).state =
      if 3 ≤ ((s.frzPort p).retrains.filter (fun x => decide (s.time < x + 10000000000))).length then .failed else .retrain)) ∧
  (∀ p s, p < 3 → (s.frzPort p).txKey.isEmpty = false → 2 ^ 31 ≤ (s.frzPort p).txSeq →
    exec (.linkRekey p) s = .next (s.setFrzPort p { s.frzPort p with
      txEpoch := (s.frzPort p).txEpoch + 1, nextTxKey := [], txSeq := 0, sent := [],
      txKey := nextKey (s.frzPort p).txKey (s.frzPort p).nextTxKey (((s.frzPort p).txEpoch + 1) % 256) })) ∧
  (∀ p k u s, p < 3 → (s.frzPort p).state = .up ∨ (s.frzPort p).state = .held →
    fetchChecks (s.cfg 0x5005 1) 0 0x40000 (fun a => a = 0x1002) true s = .ok k u →
    Does (.lhelloRefresh p) s (fun t => (t.frzPort p).state = (s.frzPort p).state ∧ (t.frzPort p).myNonce = freeBytes 32 u ∧
      (t.frzPort p).txKey = (s.frzPort p).txKey ∧ (t.frzPort p).rxKey = (s.frzPort p).rxKey))

/-- R452 to R455, R459: link blocks: one whose tag verifies and whose LSEQ follows is taken, one that cannot be
corrected asks for a replay, one with a bad tag retrains the link and raises alarm 0x18, and in HANDSHAKE a block with
a tag is not looked at. R461, R464, R467, R470: time exchanges, the topology and the adverts: each message changes
what it carries. -/
def Obligations.LinkAndMessages : Prop :=
  ((∀ p b s, p < 3 → (s.frzPort p).state = .measure ∨ (s.frzPort p).state = .up ∨ (s.frzPort p).state = .held →
    leAt b 27 1 = (s.frzPort p).rxEpoch % 256 → leAt b 0 8 = (s.frzPort p).rxSeq + 1 →
    gcmTag (s.frzPort p).rxKey ((s.frzPort p).rxIv ++ leBytes 8 (leAt b 0 8)) (b.take 48) (slice b 48 576) = slice b 624 16 →
    Does (.linkBlock p 0 b) s (fun t => (t.frzPort p).rxSeq = leAt b 0 8 ∧ (t.frzPort p).nak = false ∧
      (t.frzPort p).rxKey = (s.frzPort p).rxKey ∧ (t.frzPort p).state = (s.frzPort p).state)) ∧
  (∀ p b s, p < 3 → (s.frzPort p).state = .handshake → allZero (slice b 624 16) = false → Does (.linkBlock p 0 b) s (fun t => t = s)) ∧
  (∀ p b s, p < 3 → (s.frzPort p).state = .handshake → (countFault 0x0B p 0 (bump 0x9068 2 0 (s.modFrzPort p (fun k => { k with nak := true })))).2 = false →
    Does (.linkBlock p 2 b) s (fun t => t.frzPort p = { s.frzPort p with nak := true } ∧ (∀ q, q ≠ p → t.frzPort q = s.frzPort q))) ∧
  (∀ p b s, p < 3 → (s.frzPort p).state = .held → leAt b 27 1 = (s.frzPort p).rxEpoch % 256 →
    gcmTag (s.frzPort p).rxKey ((s.frzPort p).rxIv ++ leBytes 8 (leAt b 0 8)) (b.take 48) (slice b 48 576) ≠ slice b 624 16 →
    exec (.linkBlock p 0 b) s = .next (portRetrain p (raiseAlarm 0x18 (leBytes 1 p) (bump 0x9068 4 0 s))))) ∧
  ((∀ (p t1 t2 t3 t4 : Nat) s, p < 3 → (s.frzPort p).state = .measure →
    Does (.time p t1 t2 t3 t4) s (fun t =>
      (t.frzPort p).exchanges = (s.frzPort p).exchanges + 1 ∧
      (t.frzPort p).delays = ((((((t2 : Int) - t1) + ((t4 : Int) - t3)) * 500).toNat) :: (s.frzPort p).delays).take 16 ∧
      (t.frzPort p).offsets = (((((t2 : Int) - t1) - ((t4 : Int) - t3)) / 2) :: (s.frzPort p).offsets).take 16 ∧
      (t.frzPort p).delay = meanNat (t.frzPort p).delays ∧ (t.frzPort p).state = .measure ∧
      (∀ q, q ≠ p → t.frzPort q = s.frzPort q))) ∧
  (∀ p s, p < 3 → ((s.frzPort p).state = .up ∨ (s.frzPort p).state = .held) ∧ (s.frzPort p).lastExchange + 1000000 ≤ s.time ∨
      (s.frzPort p).state = .measure ∧ (s.frzPort p).lastExchange + 100000 ≤ s.time →
    Does (.timeExchangeTimer p) s (fun t => (t.frzPort p).lastExchange = s.time ∧ (t.frzPort p).state = (s.frzPort p).state ∧
      (∀ q, q ≠ p → t.frzPort q = s.frzPort q))) ∧
  (∀ p (x : Topo) s, x.addr ≠ partAddr s → (∀ o, tfind s.frz.topo x.addr = some o → o.seq < x.seq) →
    Does (.topo p x) s (fun t => tfind t.frz.topo x.addr = some x ∧ t.frz.topoSeq ≥ s.frz.topoSeq)) ∧
  (∀ p (x o : Topo) s, tfind s.frz.topo x.addr = some o → x.seq ≤ o.seq →
    Does (.topo p x) s (fun t => t.frz.topo = s.frz.topo ∧ (∀ q, q ≠ p → t.frzPort q = s.frzPort q) ∧ t = { s with frz := t.frz })) ∧
  (∀ s, s.frz.lastTopo + 10000000000 ≤ s.time →
    Does .topoTimer s (fun t => t.frz.topoSeq = s.frz.topoSeq + 1 ∧ t.frz.lastTopo = s.time ∧ t = { s with frz := t.frz, out := t.out })) ∧
  (∀ p (a : Advert) s, (s.frzPort p).state = .up → a.addr ≠ partAddr s → s.frz.adverts.find? (fun x => x.addr = a.addr) = none →
    Does (.advert p a) s (fun t => t.frz.adverts = s.frz.adverts ++ [{ a with port := p, c0Rate := if a.links = 1 then a.c0Rate else 0, c0Depth := if a.links = 1 then a.c0Depth else 0 }] ∧
      t = { s with frz := t.frz, out := t.out })) ∧
  (∀ p s, upPorts s = [p] → (s.frzPort p).waiting = [] → (s.frzPort p).sent = [] → creditOf (s.frzPort p) 2 = 512 →
    (ownAdvert s p).tenants.length < 4096 →
    Does .advertTimer s (fun t => t.out = .frieze p 2 0x22 (ownAdvert s p).bytes :: s.out ∧ t = { s with frz := t.frz, out := t.out })))

/-- R189 to R191, R472, R473, R475: spilled requests and remote alarms: a request is taken or returned, its response
or its return reaches the request that was spilled, and an alarm newer than the last of its origin is noted. -/
def Obligations.SpillAndAlarms : Prop :=
  (∀ p env msg s, p < 3 → envelopeBad env = true →
    ∃ u, exec (.spillReq p env msg) s = .next (returnSpilled p (if bit (leAt env 2 1) 0 then 1 else 3) env 0x0103 u) ∧
      u.reqs = s.reqs ∧ u.qm = s.qm) ∧
  (∀ p env msg s (q : Request), p < 3 → envelopeBad env = false → bit (leAt env 2 1) 0 = false →
    q = { hdr := Header.ofBytes msg, payload := msg.drop 64, via := .frieze p, tIn := leAt env 8 8, wasSpilled := true,
          originAddr := leAt env 0 2, originRid := leAt env 4 4, envelope := env, extraNs := leAt env 16 4,
          pcie := bit (leAt env 2 1) 1, replayed := bit (leAt env 2 1) 2 } →
    let u := bump 0x9068 5 0 (consume p 0x01 s)
    let q' : Request := { q with budget := declaredBudget u q.hdr q.payload }
    serviceChecks u q' = none → outstanding u q.hdr.tenant < outLimit u q.hdr.tenant → tableUsed u < 262144 → chansIn u ≠ [] →
    heldFrom u p < u.cfg (0x6020 + p) 3 →
    exec (.spillReq p env msg) s = .next (syncQueues (enqueue (firstFree u.reqs 0)
      { q' with bestEffort := q.hdr.class = 0, stage := .queued } (spillQueue { q' with bestEffort := q.hdr.class = 0 } u)))) ∧
  (∀ p env msg s, p < 3 → spilledReq (consume p 0x02 s) (leAt env 4 4) = none → Does (.spillRsp p env msg) s (fun t => t = consume p 0x02 s)) ∧
  (∀ p env msg s q port, p < 3 → s.req? (leAt env 4 4) = some q → q.stage = .spilled port → bit (leAt env 2 1) 2 = false →
    ∃ u, exec (.spillRsp p env msg) s = .next (answer (leAt env 4 4) (leAt msg 2 2) (leAt msg 44 2) (msg.drop 64) u) ∧
      u.req? (leAt env 4 4) = some { q with bestEffort := q.bestEffort || bit (leAt msg 1 1) 0, servedBy := leAt msg 14 2 / 4096, cycles := leAt msg 40 4 } ∧
      u.qm = s.qm) ∧
  (∀ p env s q port, p < 3 → s.req? (leAt env 4 4) = some q → q.stage = .spilled port → q.hdr.class ≠ 0 →
    ∃ u, exec (.spillReturn p env) s = .next (syncQueues u) ∧
      u.req? (leAt env 4 4) = some { q with c0Spill := false, within := false, extraNs := 0, stage := .queued } ∧
      u.queue q.qn = { s.queue q.qn with running := (s.queue q.qn).running - 1, list := leAt env 4 4 :: (s.queue q.qn).list }) ∧
  (∀ p origin serial seq code lvl time s, p < 3 → (s.frzPort p).state = .up → origin ≠ partAddr s →
    (∀ n, tfind s.frz.alarmSeq origin = some n → n < seq) →
    ∃ data u, exec (.alarm p origin serial seq code lvl time) s = .next (alarmReport 0x24 (s.cfg 0x6030 2) data true u) ∧
      tfind u.frz.alarmSeq origin = some seq ∧ (lvl = 4 → origin ∈ u.frz.removed) ∧
      ∃ c o h d, u = { s with frz := u.frz, out := u.out, pat := u.pat, ctr := c, ovf := o, health := h, devEv := d }) ∧
  (∀ p origin serial seq code lvl time n s, p < 3 → (s.frzPort p).state = .up → tfind s.frz.alarmSeq origin = some n → seq ≤ n →
    Does (.alarm p origin serial seq code lvl time) s (fun t => t = consume p 0x20 s)) ∧
  (∀ p src dst ttl data s, data.length < 32 → Does (.mgmt p src dst ttl data) s (fun t => t = consume p 0x08 s)) ∧
  (∀ p src dst ttl data s, 32 ≤ data.length → routeForm (leAt data 0 8) ≠ 1 ∨ dst = partAddr s →
    (∀ e ∈ s.frz.returns, e.1 ≠ leAt data 0 8) → routeOwn s (leAt data 0 8) = true →
    exec (.mgmt p src dst ttl data) s = .next (mgFrameIn 16 (leAt data 0 8) src p (data.drop 8) (consume p 0x08 s))) ∧
  (∀ p s, Does (.mgmtReassemblyTimeout p) s (fun t =>
    (t.frzPort p).partials = (s.frzPort p).partials.filter (fun r => !(decide (r.mtype = 0x08) && decide (r.since + 100000000 ≤ s.time))) ∧
    (∀ q, q ≠ p → t.frzPort q = s.frzPort q) ∧ t = { s with frz := t.frz }))

/-- R476 to R479: domain transactions: the coordinator takes one and decides it, a member votes and learns the
decision, and the timers act when they are due. -/
def Obligations.DomainTransactions : Prop :=
  (∀ p origin txn st l s, ∃ u, exec (.stage p origin txn st l) s = .next (nextCommits u) ∧
    u.mgmt.nextDomain = s.mgmt.nextDomain + 1 ∧
    ∃ x, tfind u.mgmt.coord (partAddr s * 2 ^ 52 + s.mgmt.nextDomain % 2 ^ 52) = some x ∧ x.origin = origin ∧ x.txn = txn ∧
      x.staged = st ∧ x.slots = l ∧ x.members = askedOf s st) ∧
  (∀ p coord origin txn d st l s, tfind s.mgmt.domain d = none → decisionOf s d = none → coord ≠ partAddr s →
    ∃ u, exec (.prepare p coord origin txn d st l) s = .next (nextCommits u) ∧
      (∀ j, j ≠ d → tfind u.mgmt.domain j = tfind s.mgmt.domain j) ∧
      (domainVote origin txn st l (consume p 0x11 s) = none →
        ∃ x, tfind u.mgmt.domain d = some x ∧ x.state = 1 ∧ x.coord = coord ∧ x.origin = origin ∧ x.staged = st ∧ x.slots = l) ∧
      (domainVote origin txn st l (consume p 0x11 s) ≠ none → u.mgmt.domain = s.mgmt.domain)) ∧
  (∀ p src d reason x s, tfind s.mgmt.coord d = some x → x.state = 0 → src ∈ x.members →
    ∃ u x', exec (.vote p src d false reason) s = .next (nextCommits u) ∧ tfind u.mgmt.coord d = some x' ∧ x'.state = 2 ∧
      x'.commit = false ∧ x'.blame = src ∧ x'.reason = reason) ∧
  (∀ p src d reason x s, tfind s.mgmt.coord d = some x → x.state = 0 → src ∈ x.members → src ∉ x.yes →
    votesEnough s { x with yes := x.yes ++ [src] } = false →
    ∃ u, exec (.vote p src d true reason) s = .next (nextCommits u) ∧ tfind u.mgmt.coord d = some { x with yes := x.yes ++ [src] } ∧
      u.mgmt.domain = s.mgmt.domain) ∧
  (∀ p coord d blame reason x s, tfind s.mgmt.domain d = some x → x.state ≠ 3 →
    ∃ u, exec (.decide p coord d true blame reason) s = .next (nextCommits u) ∧
      tfind u.mgmt.domain d = some { x with state := 3, commit := true } ∧ u.mgmt.toApply = s.mgmt.toApply ++ [d] ∧
      decisionOf u d = some true) ∧
  (∀ p coord d blame reason x s, tfind s.mgmt.domain d = some x → x.state ≠ 3 → s.mgmt.job = none → x.origin ≠ partAddr s →
    ∃ u, exec (.decide p coord d false blame reason) s = .next (nextCommits u) ∧
      tfind u.mgmt.domain d = none ∧ u.mgmt.toApply = s.mgmt.toApply ∧ decisionOf u d = some false ∧ u.ks = s.ks ∧ u.od = s.od) ∧
  (∀ p d x s, tfind s.mgmt.domain d = some x → x.state ≠ 3 →
    ∃ u, exec (.outcome p d true) s = .next (nextCommits u) ∧
      tfind u.mgmt.domain d = some { x with state := 3, commit := true } ∧ u.mgmt.toApply = s.mgmt.toApply ++ [d]) ∧
  (∀ p src d s, Does (.domainAck p src d) s (fun t =>
    (∀ j, tfind t.mgmt.coord j = (tfind s.mgmt.coord j).map (fun x => if j = d then { x with awaits := x.awaits.filter (fun a => a != src) } else x)) ∧
    t.mgmt.domain = s.mgmt.domain ∧ t.mgmt.decided = s.mgmt.decided)) ∧
  (∀ p src d s, Does (.query p src d) s (fun t => t.mgmt = s.mgmt ∧ (decisionOf s d = none → t = consume p 0x15 s) ∧
    (∀ c, decisionOf s d = some c → t = domSend src 0x16 (leBytes 8 d ++ [if c then 1 else 0]) (consume p 0x15 s)))) ∧
  (∀ p t r l v mem last s, (domainList s).contains (partAddr s) = false → v ≤ s.mgmt.domVer →
    Does (.sync p t r l v mem last) s (fun u => u = consume p 0x18 s)) ∧
  (∀ p t r v mem last s, (domainList s).contains (partAddr s) = true → v ≤ s.mgmt.domVer → r.replicated = true →
    Does (.sync p t r [] v mem last) s (fun u =>
      u.tenant t = { r with mkg := (s.tenant t).mkg, mkgen := s.ks.mkgen, resync := (s.tenant t).resync && !last } ∧
      (∀ j, j ≠ t → u.tenant j = s.tenant j) ∧ u.ks.slots = s.ks.slots ∧ u.mgmt = s.mgmt)) ∧
  (∀ d x s, tfind s.mgmt.coord d = some x → x.state = 0 → x.since + s.cfg 0x6005 2 * 1000000 ≤ s.time →
    ∃ u x', exec (.prepareTimeout d) s = .next (nextCommits u) ∧ tfind u.mgmt.coord d = some x' ∧ x'.state = 2 ∧ x'.commit = false ∧
      x'.reason = 3) ∧
  (∀ d x s, tfind s.mgmt.coord d = some x → x.state = 2 → x.lastQuery + 100000000 ≤ s.time →
    Does (.decideResend d) s (fun t =>
      tfind t.mgmt.coord d = some { x with awaits := x.awaits.filter (fun a => !s.frz.removed.contains a), lastQuery := s.time } ∧
      t.mgmt.domain = s.mgmt.domain)) ∧
  (∀ d x s, tfind s.mgmt.domain d = some x → x.state = 1 → Nat.max x.since x.lastQuery + 1000000000 ≤ s.time →
    s.frz.removed.contains x.coord = false →
    ∃ u, exec (.queryTimer d) s = .next (nextCommits u) ∧ tfind u.mgmt.domain d = some { x with lastQuery := s.time } ∧
      u.mgmt.decided = s.mgmt.decided) ∧
  (∀ j m d k x s, s.mgmt.job = some j → j.domain = true → j.dtxn = some d → j.sess = some m → s.mgSess m = some k → k.txn = some x →
    j.since + s.cfg 0x6005 2 * 1000000 + 1000000000 ≤ s.time →
    ∃ u v, exec .decisionWaitTimeout s = .next (nextCommits u) ∧ u.mgmt.job = none ∧ Replied m 0x11 0x0E v u ∧
      v.mgSess m = some { k with txn := some { x with state := .domainPending } } ∧ v.mgmt.domain = s.mgmt.domain) ∧
  (∀ m k d x s, Asks s m k → k.role = 1 → d < 2 ^ 64 → tfind s.mgmt.domain d = some x → x.state = 1 → x.origin ≠ partAddr s →
    s.mgmt.job = none → s.mgmt.toApply = [] → s.mgmt.commits = [] →
    Does (.abandonDtxn m d) s (fun t => ∃ u, Replied m 2 0 u t ∧ tfind u.mgmt.domain d = none ∧ decisionOf u d = some false ∧ u.od = s.od)) ∧
  (∀ m k d s, Asks s m k → k.role = 1 → d < 2 ^ 64 → tfind s.mgmt.domain d = none →
    Does (.abandonDtxn m d) s (fun t => Replied m 2 0 (heard m k s) t))

/-- R483 to R486, R488, R491, R493, R495: detectors and the alarm machine: a report makes its alarm ACTIVE at its
level and joins the window, an L4 sensor report erases the master key register at once, and a detector that no longer
reports leaves its alarm HELD. -/
def Obligations.AlarmReports : Prop :=
  (∀ a d s, a ≤ 0x22 → a ≠ 0x14 → a ≠ 0x15 → watching s = true → (s.alarm a).state = .clear →
    Does (.alarmReport a d) s (fun t =>
      (t.alarm a).state = .active ∧ (t.alarm a).raised = alarmLevel s a ∧ (t.alarm a).activeSince = s.time ∧
      (∀ j, j ≠ a → t.alarm j = s.alarm j) ∧ inWindow t a = true ∧
      (a ≤ 0x11 → alarmLevel s a = 4 → t.ks.w0 = 0 ∧ t.ks.w1 = 0 ∧ t.ks.w2 = 0 ∧ t.ks.w3 = 0 ∧ t.ks.zeroized = true) ∧
      (0x11 < a ∨ alarmLevel s a ≠ 4 → t.ks = s.ks))) ∧
  (∀ a d s, 0x22 < a ∨ watching s = false → Does (.alarmReport a d) s (fun t => t = s)) ∧
  (∀ a s, (s.alarm a).state = .active → inWindow s a = true →
    exec (.alarmDeassert a) s = .next (s.setAlarm a { s.alarm a with oneShot := true })) ∧
  (∀ a s, (s.alarm a).state = .active → inWindow s a = false →
    Does (.alarmDeassert a) s (fun t => (t.alarm a).state = .held ∧ (t.alarm a).raised = (s.alarm a).raised ∧ (t.alarm a).leftAt = s.time ∧
      (∀ j, j ≠ a → t.alarm j = s.alarm j) ∧ t.window = s.window ∧ t.ks = s.ks)) ∧
  (∀ a s, (s.alarm a).state ≠ .active → Does (.alarmDeassert a) s (fun t => t = s)) ∧
  (∀ n s, n < 256 → watching s = true → (s.alarm 0).state = .clear → true ∈ (tget [] s.arm.hist n).take 3 →
    Does (.armaturePatternPeriod [n]) s (fun t =>
      (t.alarm 0).state = .active ∧ (∀ j, j ≠ 0 → t.alarm j = s.alarm j) ∧ tget [] t.arm.hist n = (true :: tget [] s.arm.hist n).take 4)) ∧
  (∀ s, Does (.armaturePatternPeriod []) s (fun t => t = { s with arm := { s.arm with hist := t.arm.hist } } ∧
    ∀ n, n < 256 → tget [] t.arm.hist n = if (s.arm.hist.any (fun e => e.1 = n)) = true ∧ true ∈ ((tget [] s.arm.hist n).take 3)
      then (false :: tget [] s.arm.hist n).take 4 else [])) ∧
  (∀ g r c s, g < 32 → tget 0 s.arm.baseR g ≠ 0 → tget 0 s.arm.baseR g * 110 < r * 100 → tget false s.arm.deviated g = true →
    watching s = true → (s.alarm 1).state = .clear →
    Does (.armatureRcMeasure g r c) s (fun t => (t.alarm 1).state = .active ∧ (∀ j, j ≠ 1 → t.alarm j = s.alarm j) ∧
      tget 0 t.arm.lastR g = r % 2 ^ 32 ∧ tget 0 t.arm.lastC g = c % 2 ^ 32)) ∧
  (∀ g r c s, tget 0 s.arm.baseR g = 0 → tget 0 s.arm.baseC g = 0 →
    Does (.armatureRcMeasure g r c) s (fun t => t = { s with arm := t.arm } ∧ tget false t.arm.deviated g = false)) ∧
  (∀ a s, watching s = true → (s.alarm 0x1D).state = .clear →
    Does (.detectorSelfTest a false) s (fun t => a ∈ t.arm.failed ∧ (t.alarm 0x1D).state = .active ∧ (∀ j, j ≠ 0x1D → t.alarm j = s.alarm j))) ∧
  (∀ a s, s.arm.failed.filter (fun x => x != a) ≠ [] ∨ s.arm.failed = [] →
    Does (.detectorSelfTest a true) s (fun t => t = { s with arm := { s.arm with failed := s.arm.failed.filter (fun x => x != a) } })) ∧
  (∀ n v s, n < 4 → watching s = true → tampWindow (tampMode s n) (tget 0 s.arm.trained n) v = true → (s.alarm (0x0E + n)).state = .clear →
    Does (.tampInSample n true v) s (fun t => (t.alarm (0x0E + n)).state = .active ∧ (∀ j, j ≠ 0x0E + n → t.alarm j = s.alarm j) ∧
      tget 0 t.arm.tampR n = v % 2 ^ 32)) ∧
  (∀ n v x s, n < 4 → watching s = true → tampLevel (tampMode s n) v = true → tfind s.arm.tampSince n = some x →
    x + s.cfg 0x7009 (n + 1) * 1000 ≤ s.time → (s.alarm (0x0A + n)).state = .clear →
    Does (.tampInSample n false v) s (fun t => (t.alarm (0x0A + n)).state = .active ∧ (∀ j, j ≠ 0x0A + n → t.alarm j = s.alarm j))) ∧
  (∀ n v s, n < 4 → watching s = true → tampLevel (tampMode s n) v = false →
    Does (.tampInSample n false v) s (fun t => t = { s with arm := { s.arm with tampSince := tdel s.arm.tampSince n } }))

/-- R492 to R495: the end of a decision window writes its raise entries and takes the actions of the levels it
reaches; held responses end with their hold time or by a write, and the erase's readback goes into its entries. R498
to R501, R614: the battery domain: main power fails without an entry, and a sample on the backup cell records the
count and erases the master key register for an armed source of L2 or above. -/
def Obligations.AlarmResponses : Prop :=
  ((∀ w s, s.window = some w → cerOpen s = false → (∀ r ∈ w.reports, r.alarm ≤ 0x24 ∧ r.level ≤ w.before ∧ (s.alarm r.alarm).oneShot = false) →
    Does .decisionWindowClose s (fun t => t.window = none ∧ t.alarms = s.alarms ∧
      t.pat.queue = s.pat.queue ++ ((sortReports w.reports).zip (List.range (sortReports w.reports).length)).map (fun e =>
        raiseEntry e.1.alarm e.1.level (sortReports w.reports).length e.2 w.openedAt e.1.sdata ((sortReports w.reports).foldl (fun m r => Nat.max m r.level) 0)
          (if e.1.level = 4 then (s.alarm e.1.alarm).erase else 0)) ∧ t.ks = s.ks)) ∧
  (∀ w s, s.window = some w → w.before < 4 → (∃ r ∈ w.reports, r.level = 4) → (∀ r ∈ w.reports, r.level ≤ 4) →
    Does .decisionWindowClose s (fun t => t.ks.zeroized = true ∧ t.ks.w0 = 0 ∧ t.ks.w1 = 0 ∧ t.ks.w2 = 0 ∧ t.ks.w3 = 0 ∧
      t.clear.l0 = true ∧ t.clear.l1 = true ∧ t.clear.l2 = true ∧
      (s.life.state = .initial ∨ s.life.state = .operational ∨ s.life.state = .recovery → t.life.state = .zeroized))) ∧
  (∀ w s, s.window = some w → w.before < 3 → (∃ r ∈ w.reports, r.level = 3) → (∀ r ∈ w.reports, r.level ≤ 3) →
    Does .decisionWindowClose s (fun t => t.clear.l0 = true ∧ t.clear.l1 = true ∧ t.clear.l2 = true)) ∧
  (∀ s, s.window = none → Does .decisionWindowClose s (fun t => t = s)) ∧
  (∀ a s, (s.alarm a).state = .held → alarmLatched s a = false → (s.alarm a).raised < 4 → (s.alarm a).leftAt + s.cfg 0x7003 1 * 1000000000 ≤ s.time →
    ∃ u, exec (.holdTimeExpiry a) s = .next (levelFell (levelHeld s) u) ∧ (u.alarm a).state = .clear ∧ (u.alarm a).raised = 0 ∧
      (∀ j, j ≠ a → u.alarm j = s.alarm j)) ∧
  (∀ a s, (s.alarm a).state = .held → alarmLatched s a = true ∨ s.time < (s.alarm a).leftAt + s.cfg 0x7003 1 * 1000000000 →
    Does (.holdTimeExpiry a) s (fun t => t = s)) ∧
  (∀ z s, Does (.eraseReadback z) s (fun t => t.batt.eraseBad = (s.batt.eraseBad || !z) ∧
    (∀ a, (s.alarm a).state ≠ .clear → (s.alarm a).raised = 4 → (s.alarm a).erase ≠ 2 → (t.alarm a).erase = if z then 1 else 2) ∧
    (∀ a, (s.alarm a).raised ≠ 4 → t.alarm a = s.alarm a) ∧ t.ks = s.ks)) ∧
  (∀ m k a s, Asks s m k → k.role = 1 → a ≤ 0x24 → (s.alarm a).state = .held → alarmLatched s a = true → (s.alarm a).raised ≤ 2 →
    inWindow s a = false → Does (.endResponseWrite m a) s (fun t => ∃ u, Replied m 2 0 u t ∧
      (u.alarm a).state = .clear ∧ (∀ j, j ≠ a → u.alarm j = s.alarm j))) ∧
  (∀ m k a s, Asks s m k → k.role = 1 → a ≤ 0x24 → (s.alarm a).state = .active ∨ 2 < (s.alarm a).raised ∨ inWindow s a = true →
    Does (.endResponseWrite m a) s (fun t => Replied m 2 0 (heard m k s) t))) ∧
  ((∀ s, s.batt.mainPower = true → Does .mainPowerFail s (fun t =>
    t.batt.mainPower = false ∧ t.pins.held = true ∧ t.pins.alm0 = false ∧ t.pins.alm1 = false ∧ t.life.step = 0 ∧ t.sessions = [] ∧
    t.reqs = [] ∧ t.chans = [] ∧ t.mem = [] ∧ t.pat.buffer = s.pat.buffer ∧ t.od = s.od ∧
    t.ks.w0 = s.ks.w0 ∧ t.ks.slots = [])) ∧
  (∀ s, s.batt.mainPower = false → Does .mainPowerFail s (fun t => t = s)) ∧
  (∀ rtc z s, watching s = false → s.batt.reporting = [] →
    Does (.unpoweredSample rtc z []) s (fun t => t = { s with batt := { s.batt with rtc := rtc, rtcAt := s.time } })) ∧
  (∀ rtc z a d s, watching s = false → a < 0x25 → sampled s a = true → armedErases s a = true →
    Does (.unpoweredSample rtc z [(a, d)]) s (fun t => t.ks.zeroized = true ∧ t.ks.w0 = 0 ∧ t.ks.w1 = 0 ∧ t.ks.w2 = 0 ∧ t.ks.w3 = 0 ∧
      t.batt.erased = true ∧ t.batt.eraseBad = (s.batt.eraseBad || !z))) ∧
  (∀ rtc z a d s, watching s = false → a < 0x25 → a ≠ 0x1F → sampled s a = true → armedErases s a = false →
    Does (.unpoweredSample rtc z [(a, d)]) s (fun t => t.ks = s.ks ∧ (t.alarm a).state = .active ∧ t.batt.reporting = [a])) ∧
  (∀ rtc z r s, watching s = true → Does (.unpoweredSample rtc z r) s (fun t => t = s)))

/-- R503, R506, R515: entries that PATINA_BUFFER_WRITE moves join the chain in order: the retained log still verifies.
-/
def Obligations.LogChain : Prop :=
  ∀ n s, chainBad s = none → retained s ≠ [] ∨ (s.pat.blocks = [] ∧ headLink s = linkZero s) →
    Does (.patinaBufferWrite n) s (fun t => chainBad t = none ∧ t.pat.blocks = s.pat.blocks ∧
      ∃ l, l.length ≤ Nat.min 4 n ∧ t.pat.buffer = s.pat.buffer ++ l ∧ t.pat.headSeq = s.pat.headSeq + l.length)

/-- R507 to R515: log pages, checkpoints, their acknowledgements, recycling and verification. -/
def Obligations.LogKeeping : Prop :=
  (∀ b s, canProgram s = true → 4 ≤ s.pat.buffer.length → openLog s = some b →
    Does (.patinaPageProgram true) s (fun t => t.pat.buffer = s.pat.buffer.drop 4 ∧
      t.pat.blocks = s.pat.blocks.dropLast ++ [{ b with pages := b.pages + 1, entries := b.entries ++ s.pat.buffer.take 4, closed := decide (511 ≤ b.pages + 1) }] ∧
      t.pat.headSeq = s.pat.headSeq ∧ t.flash.pages = (s.flash.putPage (logPage s b (b.pages + 1)) ((s.pat.buffer.take 4).map (fun e => e.bytes)).flatten).pages)) ∧
  (∀ b s, canProgram s = true → 4 ≤ s.pat.buffer.length → openLog s = some b →
    Does (.patinaPageProgram false) s (fun t => t.pat.buffer = s.pat.buffer ∧ t.pat.blocks = s.pat.blocks.dropLast ++ [{ b with closed := true }] ∧
      (t.flash.block (s.flash.phys (164 + b.pos))).closed = true)) ∧
  (∀ b e l s, canProgram s = true → s.pat.buffer = e :: l → l.length < 3 → e.entered + 50000000 ≤ s.time → openLog s = some b →
    Does (.patinaPadTimeout true) s (fun t => t.pat.buffer = [] ∧ t.pat.headSeq = s.pat.headSeq + (3 - l.length))) ∧
  (∀ e l ok s, s.pat.buffer = e :: l → s.time < e.entered + 50000000 → Does (.patinaPadTimeout ok) s (fun t => t = s)) ∧
  (∀ s, s.pat.lastCpTime + s.cfg 0x7110 2 * 1000000000 ≤ s.time →
    Does .checkpointIntervalExpiry s (fun t => t.pat.queue.any isCheckpoint = true ∧ t.pat.buffer = s.pat.buffer)) ∧
  (∀ s, s.time < s.pat.lastCpTime + s.cfg 0x7110 2 * 1000000000 → Does .checkpointIntervalExpiry s (fun t => t = s)) ∧
  (∀ m k s, Asks s m k → k.role = 1 →
    Does (.checkpointNow m) s (fun t => ∃ u, Replied m 2 0 u t ∧ u.pat.queue.any isCheckpoint = true ∧ u.pat.buffer = s.pat.buffer)) ∧
  (∀ m k e l s, Asks s m k → k.role = 1 ∨ k.role = 2 → s.pat.openCps = e :: l → e.seq < 2 ^ 64 → e.link.length = 16 → s.pat.readCps.contains e.seq = true →
    Does (.checkpointAck m (leBytes 8 e.seq ++ e.link)) s (fun t => ∃ u, Replied m 2 0 u t ∧
      u.pat.openCps = l ∧ u.pat.lastAck = e.seq ∧ u.pat.blocks = s.pat.blocks)) ∧
  (∀ m k q e s, Asks s m k → k.role = 1 ∨ k.role = 2 → k.txn = none → selValue k 0x7111 1 = q → s.plink.state = .up → serviceCount s ≠ 0 →
    checkpointAt s q = some e →
    Does (.checkpointRead m) s (fun t => ∃ u, Replied m 1 0 u t ∧ q ∈ u.pat.readCps ∧ u.pat.buffer = s.pat.buffer ∧ u.pat.openCps = s.pat.openCps)) ∧
  (∀ b l s, s.pat.blocks = b :: l → freeBlocks s ≤ 4 → recyclable s = true →
    Does .blockRecycle s (fun t => t.pat.blocks = l ∧ t.pat.buffer = s.pat.buffer ∧ t.pat.headSeq = s.pat.headSeq)) ∧
  (∀ s, recyclable s = false ∨ 4 < freeBlocks s → Does .blockRecycle s (fun t => t = s)) ∧
  (∀ s, chainBad s = none → Does (.chainVerify none) s (fun t => t = s)) ∧
  (∀ bad s, bad ≠ none ∨ chainBad s ≠ none → watching s = true → (s.alarm 0x21).state = .clear →
    Does (.chainVerify bad) s (fun t => (t.alarm 0x21).state = .active ∧ (∀ j, j ≠ 0x21 → t.alarm j = s.alarm j) ∧ t.pat = s.pat))

/-- R521 to R526, R530: flash commands: one that is refused leaves its RESULT, one that is taken runs to its end, a
failed program closes its block, and only an erase is suspended and resumed. R522, R525, R528, R529: reads of flash
units: RSTATUS, UNIT and COUNT of each, a count above THRESH warns, more than 24 bit errors are uncorrectable, a unit
of a suspended block reads SUSPENDED, and a scrub of an array without wear moves nothing. -/
def Obligations.FlashArray : Prop :=
  ((∀ op c r s, (op, c) ∈ [(1, Instr.program), (2, .erase), (5, .blankCheck)] → flashRefusal op s = some r →
    Does c s (fun t => t = { s with flash := { s.flash with lastCmd := op, result := r } })) ∧
  (∀ s, flashRefusal 1 s = none → Does .program s (fun t =>
    t.flash.busy = true ∧ t.flash.lastCmd = 1 ∧
    t.flash.running = some (1, s.flash.addr / 256, (List.range 256).map (fun i => tget 0 s.flash.pbuf i)) ∧
    (t.flash.block (s.flash.addr / 0x20000)).nextPage = s.flash.addr / 256 % 512 + 1 ∧ t.flash.pages = s.flash.pages ∧ t = { s with flash := t.flash })) ∧
  (∀ s, flashRefusal 2 s = none → Does .erase s (fun t => t = { s with flash := { s.flash with
    busy := true, lastCmd := 2, runSince := s.time, running := some (2, s.flash.addr / 0x20000, []) } })) ∧
  (∀ s, flashRefusal 5 s = none → Does .blankCheck s (fun t => t = { s with flash := { s.flash with
    busy := true, lastCmd := 5, runSince := s.time, running := some (5, s.flash.addr / 256, []) } })) ∧
  (∀ b d s, s.flash.running = some (2, b, d) → Does .suspend s (fun t =>
    t.flash = { s.flash with busy := false, suspended := true, sblock := b, running := none, lastCmd := 3, result := 0 } ∧
    t.count 0x9071 3 0 = Nat.min (ctrMax 0x9071 3) (s.count 0x9071 3 0 + 1))) ∧
  (∀ s, (∀ b d, s.flash.running ≠ some (2, b, d)) → Does .suspend s (fun t =>
    t = { s with flash := { s.flash with lastCmd := 3, result := if s.flash.busy then 0x01 else 0x07 } })) ∧
  (∀ s, s.flash.busy = false → s.flash.suspended = true → Does .resume s (fun t => t = { s with flash := { s.flash with
    busy := true, suspended := false, running := some (2, s.flash.sblock, []), runSince := s.time, lastCmd := 4, result := 0 } })) ∧
  (∀ s, s.flash.busy = true ∨ s.flash.suspended = false → Does .resume s (fun t => t = { s with flash := { s.flash with
    lastCmd := 4, result := if s.flash.busy then 0x01 else 0x07 } })) ∧
  (∀ p d n s, s.flash.running = some (1, p, d) → n ≤ 200 → Does (.flashCommandComplete true n) s (fun t =>
    t.flash.busy = false ∧ t.flash.result = 0 ∧ t.flash.running = none ∧ t.flash.tProgram = n ∧ t.flash.page p = d ∧
    (∀ q, q ≠ p → t.flash.page q = s.flash.page q) ∧ t.flash.units = s.flash.units ∧ t = { s with flash := t.flash })) ∧
  (∀ p d n s, s.flash.running = some (1, p, d) → Does (.flashCommandComplete false n) s (fun t =>
    t.flash.busy = false ∧ t.flash.result = 0x04 ∧ (t.flash.block (p / 512)).closed = true ∧ t.flash.page p = freeBytes 256 s ∧
    (∀ q, q ≠ p → t.flash.page q = s.flash.page q))) ∧
  (∀ b d n s, s.flash.running = some (2, b, d) → n ≤ 1200 → (s.flash.block b).closed = false →
    Does (.flashCommandComplete true n) s (fun t => t.flash.busy = false ∧ t.flash.result = 0 ∧
      (t.flash.block b).erases = (s.flash.block b).erases + 1 ∧ (t.flash.block b).nextPage = 0 ∧
      (∀ p, p / 512 = b → t.flash.page p = List.replicate 256 0xFF) ∧ (∀ p, p / 512 ≠ b → t.flash.page p = s.flash.page p) ∧
      t = { s with flash := t.flash })) ∧
  (∀ b d n s, s.flash.running = some (2, b, d) → Does (.flashCommandComplete false n) s (fun t =>
    t.flash.busy = false ∧ t.flash.result = 0x05 ∧ t.flash.pages = s.flash.pages)) ∧
  (∀ p d ok n s, s.flash.running = some (5, p, d) → Does (.flashCommandComplete ok n) s (fun t =>
    t = { s with flash := { s.flash with busy := false, running := none, result := if s.flash.blank p then 0 else 0x0A } }))) ∧
  ((∀ u n s, u < 2 ^ 19 → wsNeeded s ≤ s.flash.cfg % 16 → s.flash.suspended = true → s.flash.sblock = u / 2048 →
    Does (.flashUnitRead u n) s (fun t => t.flash.rstatus = 3 ∧ t.flash.runit = u ∧ t.flash.count = 63 ∧
      t.out = .value (leNat (freeBytes 64 s)) :: s.out ∧ t.flash.pages = s.flash.pages ∧ t.ctr = s.ctr)) ∧
  (∀ u n s, u < 2 ^ 19 → wsNeeded s ≤ s.flash.cfg % 16 → s.flash.suspended = false ∨ s.flash.sblock ≠ u / 2048 → n ≤ s.flash.thresh → n ≤ 24 →
    (s.flash.block (u / 2048)).unspecified = false →
    Does (.flashUnitRead u n) s (fun t => t.flash.rstatus = 0 ∧ t.flash.runit = u ∧ t.flash.count = n ∧
      t.out = .value (leNat (slice (s.flash.page (u / 4)) (u % 4 * 64) 64)) :: s.out ∧ t = { s with flash := t.flash, out := t.out })) ∧
  (∀ u n s, u < 2 ^ 19 → wsNeeded s ≤ s.flash.cfg % 16 → s.flash.suspended = false ∨ s.flash.sblock ≠ u / 2048 → s.flash.thresh < n → n ≤ 24 →
    (s.flash.block (u / 2048)).unspecified = false →
    Does (.flashUnitRead u n) s (fun t => t.flash.rstatus = 1 ∧ t.flash.runit = u ∧ t.flash.count = n ∧
      t.out = .value (leNat (slice (s.flash.page (u / 4)) (u % 4 * 64) 64)) :: s.out ∧
      t.flash.warns = sat32 (s.flash.warns + 1) ∧ t.flash.warnEvent = true ∧
      t.count 0x9071 1 0 = Nat.min (ctrMax 0x9071 1) (s.count 0x9071 1 0 + 1) ∧
      (16 ≤ n → (t.flash.block (u / 2048)).closed = true))) ∧
  (∀ u n s, u < 2 ^ 19 → wsNeeded s ≤ s.flash.cfg % 16 → s.flash.suspended = false ∨ s.flash.sblock ≠ u / 2048 → 24 < n →
    Does (.flashUnitRead u n) s (fun t => t.flash.rstatus = 2 ∧ t.flash.runit = u ∧ t.flash.count = 60 ∧
      t.count 0x9071 2 0 = Nat.min (ctrMax 0x9071 2) (s.count 0x9071 2 0 + 1) ∧ t.flash.pages = s.flash.pages)) ∧
  (∀ s, wsNeeded s ≤ s.flash.cfg % 16 → s.flash.suspended = false → s.flash.blocks = [] → s.flash.units = [] →
    Does .flashScrub s (fun t => t.flash.pages = s.flash.pages ∧ t.flash.map = s.flash.map ∧ t.flash.spares = s.flash.spares ∧
      t.flash.blocks = [] ∧ t = { s with flash := t.flash })))

/-- R548 to R550, R444, R539: activation, trial and reversion of a bank, the restart of the supervisor, and a
key-store image taken on command or waited for. -/
def Obligations.BanksAndImages : Prop :=
  (∀ s, s.life.fwRestart = true → Does .plinthFirmwareRestart s (fun t => t.life.fwRestart = false ∧ t.supRestarting = true ∧
    t.life.olds = (if s.life.act = 3 then (List.range 9).filter (fun n => !s.life.olds.contains n) else List.range 9) ∧
    t = { s with life := t.life, supRestarting := true })) ∧
  (∀ s, s.life.fwRestart = false → Does .plinthFirmwareRestart s (fun t => t = s)) ∧
  (∀ s, s.supRestarting = true → s.mgmt.job = none →
    ∃ u, exec .supervisorRestart s = .next (bankMove (nextCommits u)) ∧ u.supRestarting = false ∧ u.mgmt.sess = [] ∧
      (u.core 0x50).run = .running ∧ u.mgmt.cgen = s.mgmt.cgen) ∧
  (∀ s, s.supRestarting = false → Does .supervisorRestart s (fun t => t = s)) ∧
  (∀ s, s.life.act = 2 → s.life.trialAt + s.cfg 0x8020 4 * 1000000000 ≤ s.time → Does .trialExpiry s (fun t =>
    t.life.act = 0 ∧ t.life.fuses.rollback = Nat.max s.life.fuses.rollback (selectedBank s).secver ∧
    selectedBank t = { selectedBank s with state := .confirmed } ∧ t.life.selB = s.life.selB)) ∧
  (∀ s, s.life.act ≠ 2 ∨ s.time < s.life.trialAt + s.cfg 0x8020 4 * 1000000000 → Does .trialExpiry s (fun t => t = s)) ∧
  (∀ m k s, Asks s m k → k.role = 1 → inTrial s = true → Does (.revert m) s (fun t => ∃ u, Replied m 2 0 u t ∧
    u.life.act = 3 ∧ u.life.fwRestart = true ∧ u.life.selB = !s.life.selB ∧ otherBank u = { selectedBank s with state := .loaded } ∧
    selectedBank u = otherBank s)) ∧
  (∀ m k s, Asks s m k → k.role = 1 → inTrial s = false → Does (.revert m) s (fun t => Replied m 2 0 (heard m k s) t)) ∧
  (∀ m k s, Asks s m k → k.role = 1 → s.ks.image = none → imageBuffers s = true →
    Does (.takeImage m) s (fun t => ∃ u i, Replied m 2 0 u t ∧ u.ks.image = some i ∧ i.forCommit = false ∧ i.buffer = s.ks.nextBuffer ∧
      i.gen = (match s.ks.anchor with | some a => a.gen | none => 0) + 1 ∧ u.ks.changed = false ∧ u.ks.slots = s.ks.slots)) ∧
  (∀ m k i s, Asks s m k → k.role = 1 → s.ks.image = some i → Does (.takeImage m) s (fun t => Replied m 2 0 (heard m k s) t)) ∧
  (∀ b s, s.life.wait = .keyStore → s.ddr.cap ≠ 0 → s.ks.anchor ≠ none → b.image = 0 → s.time < s.life.waitSince + s.cfg 0x8010 1 * 1000000000 →
    Does (.keystoreWaitRetry b) s (fun t => t = s)) ∧
  (∀ b s, s.life.wait ≠ .keyStore → s.ks.missing = false ∨ acceptable b s = none → Does (.keystoreWaitRetry b) s (fun t => t = s)) ∧
  (∀ b i s, s.life.wait ≠ .keyStore → s.ks.missing = true → acceptable b s = some i →
    exec (.keystoreWaitRetry b) s = .next (endRecovery (loadImage i s)))

/-- R611 to R613, R467, R538, R541, R550: reset and boot: a long enough low pulse holds the part, boot waits where a
rail, the clock or a partner is absent, and a failed check halts it. -/
def Obligations.ResetAndBoot : Prop :=
  (∀ ns s, 10000 ≤ ns → s.batt.mainPower = true → s.pins.held = false → Does (.sysRstAssert ns) s (fun t =>
    t.pins.held = true ∧ t.pins.sysRst = true ∧ t.batt.mainPower = true ∧ t.life.step = 0 ∧ t.sessions = [] ∧ t.reqs = [] ∧ t.mem = [] ∧
    t.pins.alm0 = true ∧ t.pins.alm1 = true ∧ t.pat.buffer = s.pat.buffer ∧ t.ks.w0 = s.ks.w0 ∧ t.ks.w1 = s.ks.w1 ∧ t.ks.slots = [])) ∧
  (∀ ns s, ns < 1000 → s.batt.mainPower = true → s.pins.held = false → Does (.sysRstAssert ns) s (fun t =>
    t = { s with pins := { s.pins with sysRst := false } })) ∧
  (∀ ns s, 1000 ≤ ns → s.batt.mainPower = true → s.pins.held = false → Does (.sysRstAssert ns) s (fun t =>
    t.pins.held = true ∨ t = { s with pins := { s.pins with sysRst := false }, free := s.free + 1 })) ∧
  (∀ ns s, s.batt.mainPower = false ∨ s.pins.held = true → Does (.sysRstAssert ns) s (fun t =>
    t = { s with pins := { s.pins with sysRst := true } })) ∧
  (∀ b s, s.pins.held = true → b.romFault ≠ 1 → b.rails = false → Does (.resetRelease b) s (fun t =>
    t.pins.held = false ∧ t.batt.mainPower = true ∧ t.life.wait = .supply ∧ (t.core 0x51).run = .running ∧
    t.time = rtcTicks (if s.batt.rtcRuns then Nat.max b.rtc s.batt.rtc else s.batt.rtc))) ∧
  (∀ b s, s.pins.held = true → inTrial s = false → b.romFault ≠ 1 → b.rails = true → b.checkOk = false → Does (.resetRelease b) s (fun t =>
    t.life.halted = true ∧ t.life.result = 0x0101 ∧ t.pins.alm0 = true ∧ t.pins.alm1 = true)) ∧
  (∀ b s, s.pins.held = false → Does (.resetRelease b) s (fun t => t = s)) ∧
  (∀ b s, s.life.wait = .supply → b.romFault ≠ 1 → b.rails = false → Does (.supplyRecheck b) s (fun t => t = s)) ∧
  (∀ b s, s.life.wait = .supply → inTrial s = false → b.romFault ≠ 1 → b.rails = true → b.checkOk = false → Does (.supplyRecheck b) s (fun t =>
    t.life.halted = true ∧ t.life.result = 0x0101)) ∧
  (∀ b s, s.life.wait ≠ .supply → Does (.supplyRecheck b) s (fun t => t = s)) ∧
  (∀ b s, s.life.wait = .clock → b.romFault = 2 → Does (.referenceClockPresent b) s (fun t => t.life.halted = true ∧ t.life.result = 0x0001)) ∧
  (∀ b s, s.life.wait = .clock → exec (.referenceClockPresent b) s = .next (step2 { b with clock := true } s)) ∧
  (∀ b s, s.life.wait ≠ .clock → Does (.referenceClockPresent b) s (fun t => t = s)) ∧
  (∀ s, s.life.wait = .partner → s.life.waitSince + 400000000 ≤ s.time → Does .partnerWaitExpiry s (fun t =>
    t.life.wait = .no ∧ t.life.step = 9)) ∧
  (∀ s, s.life.wait ≠ .partner ∨ s.time < s.life.waitSince + 400000000 → Does .partnerWaitExpiry s (fun t => t = s))

/-- R538, Table 16-11: a boot whose every check passes reaches its wait for a Frieze partner, with the Plinth link up.
-/
def Obligations.CleanBoot : Prop :=
  ∀ b s, s.pins.held = true → inTrial s = false → s.batt.valid = true → s.life.halted = false →
    b.romFault = 0 → b.rails = true → b.checkOk = true → b.clock = true → b.armature = [] → b.link = 0 → b.tests = [] →
    b.bankA = true → b.bankB = true → b.ddr = 8 ∨ b.ddr = 16 ∨ b.ddr = 32 →
    ((selectedBank s).state = .confirmed ∧ s.life.fuses.rollback ≤ (selectedBank s).secver) → s.ks.anchor = none →
    Does (.resetRelease b) s (fun t => t.life.wait = .partner ∧ t.life.step = 7 ∧ t.plink.state = .up ∧ t.pins.held = false ∧
      t.batt.mainPower = true ∧ t.ddr.cap = b.ddr ∧ t.life.halted = false)

/-- R555 to R558, R563, R566: the SD slot: an accepted card is READY, a removed one leaves the slot EMPTY, a card
error ends the set in progress, runs follow each other until the commit block, and a backup is write-protected. R559,
R560, R563, R566 to R568: the dictionary's commands to the card: a card that is ready, or asleep and woken, is
formatted, takes a set where it has room, or has TMP_WRITE_PROTECT cleared; in any other state the slot refuses. -/
def Obligations.SdSlot : Prop :=
  ((∀ card s, s.life.halted = false → s.cards.sd.state = .empty → card.sdhc = true → card.locked = false →
    Does (.sdCardInsert card 0) s (fun t => t.cards.sd.state = .ready ∧ t.cards.sd.card = some card ∧ t.cards.sd.cid = card.cid ∧
      t.cards.sd.mode = (sdMode s card).1 ∧ t.cards.sd.width = (sdMode s card).2 ∧ t.cards.sd.clk = true ∧ t.cards.sd.pwrEn = true ∧
      t.cards.cer = s.cards.cer)) ∧
  (∀ card fail s, s.life.halted = false → s.cards.sd.state = .empty → fail ≠ 0 ∨ card.sdhc = false ∨ card.locked = true →
    Does (.sdCardInsert card fail) s (fun t => t.cards.sd.state = .refused ∧ t.cards.sd.pwrEn = false ∧ t.pat = s.pat)) ∧
  (∀ card fail s, s.life.halted = false → s.cards.sd.state ≠ .empty → Does (.sdCardInsert card fail) s (fun t => t = s)) ∧
  (∀ s, s.cards.sd.state ≠ .empty → Does .sdCardRemove s (fun t => t.cards.sd.state = .empty ∧ t.cards.sd.card = none ∧
    t.cards.sd.job = none ∧ t.cards.sd.pwrEn = false ∧ t.cards.cer = s.cards.cer ∧ t.ks = s.ks)) ∧
  (∀ s, s.cards.sd.state = .empty → Does .sdCardRemove s (fun t => t = s)) ∧
  (∀ s, s.cards.sd.state = .busy → Does .sdBusyTimeout s (fun t => t.cards.sd.state = .failed ∧ t.cards.sd.job = none ∧
    t.cards.sd.clk = false ∧ t.cards.sd.pwrEn = false ∧ t.cards.cer = s.cards.cer)) ∧
  (∀ s, s.cards.sd.state ≠ .busy → Does .sdBusyTimeout s (fun t => t = s)) ∧
  (∀ s, s.cards.sd.state = .ready → s.cards.sd.lastXfer + s.cfg 0x8101 3 * 1000000 ≤ s.time → Does .sdSleep s (fun t =>
    t = { s with cards := { s.cards with sd := { s.cards.sd with state := .asleep, clk := false } }, out := .sd 7 0 :: s.out })) ∧
  (∀ s, s.cards.sd.state ≠ .ready ∨ s.time < s.cards.sd.lastXfer + s.cfg 0x8101 3 * 1000000 → Does .sdSleep s (fun t => t = s)) ∧
  (∀ s, s.cards.sd.state = .busy → s.cards.sd.job = none → Does .cardBusyRelease s (fun t =>
    t = { s with cards := { s.cards with sd := { s.cards.sd with state := .ready, lastXfer := s.time } } })) ∧
  (∀ j s, s.cards.sd.state = .busy → s.cards.sd.job = some j → s.cards.sd.written < j.blocks → Does .cardBusyRelease s (fun t =>
    t.cards.sd.written = s.cards.sd.written + Nat.min 128 (j.blocks - s.cards.sd.written) ∧ t.cards.sd.state = .busy ∧
    t.cards.sd.job = some j ∧ t.out = .sd 25 (j.first + 1 + s.cards.sd.written) :: .sd 23 (Nat.min 128 (j.blocks - s.cards.sd.written)) :: s.out)) ∧
  (∀ j c s, s.cards.sd.state = .busy → s.cards.sd.job = some j → s.cards.sd.card = some c → j.blocks ≤ s.cards.sd.written →
    Does .setWriteComplete s (fun t => t.cards.sd.job = none ∧
      (∃ x, t.cards.sd.card = some x ∧ { j with committed := true } ∈ x.sets ∧ (∀ y ∈ c.sets, y.no < j.no → y ∈ x.sets) ∧
        x.tmp = (c.tmp || decide (j.body.stype = 1)) ∧ x.volume = c.volume) ∧
      t.cards.sd.state = (if j.body.stype = 1 then .busy else .ready) ∧ t.pat.buffer = s.pat.buffer)) ∧
  (∀ s, s.cards.sd.job = none → Does .setWriteComplete s (fun t => t = s))) ∧
  (∀ m k s, Asks s m k → k.role = 1 →
    (∀ c ∈ [Instr.format m, .keyStoreBackup m, .clearTmpWriteProtect m, .applyAcknowledgements m],
      s.cards.sd.state ≠ .ready → s.cards.sd.state ≠ .asleep → Does c s (fun t => Replied m 2 0 (heard m k s) t)) ∧
    (∀ c, s.cards.sd.state = .ready ∨ s.cards.sd.state = .asleep → s.cards.sd.card = some c →
      (cardProtected c = false → Does (.format m) s (fun t => ∃ u, Replied m 2 0 u t ∧ u.cards.sd.state = .busy ∧
        ∃ v, u.cards.sd.card = some { c with volume := some v, sets := [], recoveryRecord := [] })) ∧
      (cardProtected c = true → Does (.format m) s (fun t => ∃ u, Replied m 2 0 u t ∧ u.cards.sd.card = some c ∧ leAt u.cards.sd.outcome 5 1 = 3)) ∧
      (c.perm = false → Does (.clearTmpWriteProtect m) s (fun t => ∃ u, Replied m 2 0 u t ∧ u.cards.sd.state = .busy ∧
        u.cards.sd.card = some { c with tmp := false })) ∧
      (c.perm = true → Does (.clearTmpWriteProtect m) s (fun t => ∃ u, Replied m 2 0 u t ∧ u.cards.sd.card = some c ∧ leAt u.cards.sd.outcome 5 1 = 3)) ∧
      (cardProtected c = true → Does (.keyStoreBackup m) s (fun t => ∃ u, Replied m 2 0 u t ∧ u.cards.sd.job = none ∧ leAt u.cards.sd.outcome 5 1 = 3)) ∧
      (∀ i, i = snapshot ((match s.ks.anchor with | some a => a.gen | none => 0) + 1) (heard m k s) → cardProtected c = false →
        c.volume.isSome = true → nextBlockOf c + (bodyBytes (.backup i) + 479) / 480 + 2 ≤ c.capacity →
        Does (.keyStoreBackup m) s (fun t => ∃ u j, Replied m 2 0 u t ∧ u.cards.sd.state = .busy ∧ u.cards.sd.written = 0 ∧
          u.cards.sd.job = some j ∧ j.no = nextSet c ∧ j.first = nextBlockOf c ∧ j.body.stype = 1 ∧ j.mkid = s.ks.mkid ∧ j.committed = false ∧
          u.ks.slots = s.ks.slots)) ∧
      (∀ b, b = (if s.life.bankA.state = .confirmed then s.life.bankA else s.life.bankB) → b.state = .confirmed → cardProtected c = false →
        c.volume.isSome = true → nextBlockOf c + (b.len + 479) / 480 + 2 ≤ c.capacity →
        Does (.recoverySet m) s (fun t => ∃ u j, Replied m 2 0 u t ∧ u.cards.sd.state = .busy ∧ u.cards.sd.job = some j ∧
          j.body = .recovery b true ∧ j.d1 = b.release)) ∧
      (∀ q e, q < 2 ^ 64 → (retained s).filter (fun x => q ≤ x.seq && x.seq ≤ s.pat.lastCp) = [e] → isCheckpoint e = false → cardProtected c = false →
        c.volume.isSome = true → nextBlockOf c + 3 ≤ c.capacity →
        Does (.patinaExport m q) s (fun t => ∃ u j, Replied m 2 0 u t ∧ u.cards.sd.state = .busy ∧ u.cards.sd.job = some j ∧
          j.body = .exported [e.bytes] [] ∧ j.d1 = q ∧ j.d2 = s.pat.lastCp)) ∧
      ((∀ x ∈ c.sets, x.body.stype ≠ 4) → Does (.applyAcknowledgements m) s (fun t => ∃ u, Replied m 2 0 u t ∧
        u.cards.sd.ackRefused = 0xFFFFFFFF ∧ u.pat.lastAck = s.pat.lastAck))) ∧
    (s.life.bankA.state ≠ .confirmed → s.life.bankB.state ≠ .confirmed → Does (.recoverySet m) s (fun t => Replied m 2 0 (heard m k s) t)) ∧
    (∀ q, q < 2 ^ 64 → (retained s).filter (fun x => q ≤ x.seq && x.seq ≤ s.pat.lastCp) = [] →
      Does (.patinaExport m q) s (fun t => Replied m 2 0 (heard m k s) t)))

/-- R576, R577, R580, Table 17-10: a ceremony opens with the next number over its parameter record, one at a time; it
ends by a cancel or at its time limit, and what it held is cleared. R571 to R574, R580: officer cards: a card is
selected and identified, authenticates in an open ceremony where its officer counts once, is refused when it fails,
and ends the ceremony when it is withdrawn in use or fails to take its share. -/
def Obligations.CeremoniesAndCards : Prop :=
  ((∀ m k s, Asks s m k → roleWrites k.role 0x8110 1 = true →
    (∀ c n, (c, n) ∈ [(Instr.mkGenerate m, 1), (.mkCombine m, 2), (.mkRollover m, 3), (.zeroize m, 4), (.reinit m, 5), (.decommission m, 6),
        (.debugUnlock m, 7), (.endResponse m, 8), (.keyGenerate m, 9), (.keyComponents m, 10), (.publicLoad m, 11), (.restore m, 12),
        (.rosterChange m, 13)] →
      (cerOpen s = false → cerLife n s.life.state = true → (cerNeedsKey n = true → levelHeld s < 3) →
        (n = 8 → maskAlarms s (2 ^ 37 - 1) ≠ []) → cerRecordOk n (heard m k s) = true →
        Does c s (fun t => ∃ u, Replied m 2 0 u t ∧ u.cards.cer.state = .collecting ∧ u.cards.cer.ctype = n ∧
          u.cards.cer.cnum = s.cards.cnum + 1 ∧ u.cards.cnum = s.cards.cnum + 1 ∧ u.cards.cer.record = s.cards.param ∧
          u.cards.cer.start = s.time ∧ u.cards.cer.approvals = [] ∧
          u.cards.cer.cd = digest 2 (serialBytes s ++ leBytes 8 (s.cards.cnum + 1) ++ s.cards.param) 0 ∧ u.ks = s.ks ∧ u.life = s.life)) ∧
      (cerOpen s = true ∨ cerLife n s.life.state = false ∨ (cerNeedsKey n = true ∧ 3 ≤ levelHeld s) →
        Does c s (fun t => Replied m 2 0 (heard m k s) t))) ∧
    (∀ b, b.length ≤ 4096 → cerOpen s = false → Does (.parameterRecordWrite m b) s (fun t =>
      Replied m 2 0 { heard m k s with cards := { s.cards with param := b } } t)) ∧
    (∀ b, b.length ≤ 4096 → cerOpen s = true → Does (.parameterRecordWrite m b) s (fun t => Replied m 2 0 (heard m k s) t)) ∧
    (cerOpen s = true → Does (.ceremonyCancel m) s (fun t => ∃ u, Replied m 2 0 u t ∧ u.cards.cer.state = .ended ∧ u.cards.cer.result = 3 ∧
      u.cards.cer.secret = [] ∧ u.cards.cer.shares = [] ∧ u.cards.cer.given = [] ∧ u.ks = s.ks ∧ u.life = s.life)) ∧
    (cerOpen s = false → Does (.ceremonyCancel m) s (fun t => Replied m 2 0 (heard m k s) t))) ∧
  (∀ s, cerOpen s = true → s.cards.cer.start + s.cfg 0x8110 6 * 1000000000 ≤ s.time → Does .ceremonyTimeout s (fun t =>
    t.cards.cer.state = .ended ∧ t.cards.cer.result = 2 ∧ t.cards.cer.secret = [] ∧ t.cards.cer.shares = [] ∧ t.ks = s.ks ∧ t.life = s.life)) ∧
  (∀ s, cerOpen s = false ∨ s.time < s.cards.cer.start + s.cfg 0x8110 6 * 1000000000 → Does .ceremonyTimeout s (fun t => t = s))) ∧
  ((∀ n atr t1 a s, n < 2 → (officerSlot s n).state = .empty → Does (.officerCardInsert n atr t1 a true) s (fun t =>
    officerSlot t n = { state := .activating, atr := atr.take 33, t1 := t1, classA := a, step := 1 } ∧
    officerSlot t (1 - n) = officerSlot s (1 - n) ∧ t.out = .officer n [0x00, 0xA4, 0x04, 0x00, 0x05, 0xF0, 0x41, 0x58, 0x4F, 0x43] :: s.out ∧
    t.cards.cer = s.cards.cer)) ∧
  (∀ n atr t1 a s, n < 2 → (officerSlot s n).state = .empty → Does (.officerCardInsert n atr t1 a false) s (fun t =>
    (officerSlot t n).state = .refused ∧ (officerSlot t n).step = 0 ∧ officerSlot t (1 - n) = officerSlot s (1 - n) ∧
    t.count 0x9072 3 0 = Nat.min (ctrMax 0x9072 3) (s.count 0x9072 3 0 + 1) ∧ t.cards.cer = s.cards.cer)) ∧
  (∀ n s, n < 2 → cerOpen s = true → (officerSlot s n).state = .inCeremony → (officerSlot s n).step ≠ 0 →
    Does (.officerCardRemove n) s (fun t => t.cards.cer.state = .ended ∧ t.cards.cer.result = 4 ∧ t.cards.cer.secret = [] ∧
      (officerSlot t n).state = .empty ∧ t.ks = s.ks)) ∧
  (∀ n s, n < 2 → cerOpen s = false ∨ (officerSlot s n).state ≠ .inCeremony ∨ (officerSlot s n).step = 0 →
    Does (.officerCardRemove n) s (fun t => officerSlot t n = {} ∧ officerSlot t (1 - n) = officerSlot s (1 - n) ∧ t.cards.cer = s.cards.cer)) ∧
  (∀ n d s, n < 2 → (officerSlot s n).step = 1 → Does (.cardResponse n d 0x9000) s (fun t =>
    officerSlot t n = { officerSlot s n with step := 2 } ∧ t.out = .officer n [0x80, 0x10] :: s.out ∧ t.cards.cer = s.cards.cer)) ∧
  (∀ n d s, n < 2 → (officerSlot s n).step = 2 → d.length = 101 → cerOpen s = false → Does (.cardResponse n d 0x9000) s (fun t =>
    officerSlot t n = { officerSlot s n with state := .ready, step := 0, officer := leAt d 0 4, pub := d.drop 4 } ∧ t.out = s.out)) ∧
  (∀ n d s, n < 2 → (officerSlot s n).step = 3 → cerOpen s = true → d.length = 225 →
    pkVerify 2 2 false (officerSlot s n).pub (digest 2 ((officerSlot s n).sent ++ d.take 97 ++ slice d 97 32) 0) [] (slice d 129 96) = true →
    (cerOfficers s).any (fun e => e.2 = officerHash (officerSlot s n)) = true →
    ∃ u, exec (.cardResponse n d 0x9000) s = .next (advanceCer u) ∧ (officerSlot u n).authed = true ∧ (officerSlot u n).step = 0 ∧
      u.cards.cer.approvals = (if s.cards.cer.approvals.any (fun e => e.2 = officerHash (officerSlot s n)) then s.cards.cer.approvals
        else s.cards.cer.approvals ++ [((officerSlot s n).officer, officerHash (officerSlot s n))])) ∧
  (∀ n d w s, n < 2 → w ≠ 0x9000 → (officerSlot s n).step ≠ 0 → (officerSlot s n).step ≠ 4 → Does (.cardResponse n d w) s (fun t =>
    (officerSlot t n).state = .refused ∧ (officerSlot t n).authed = false ∧ t.cards.cer = s.cards.cer ∧
    t.count 0x9072 3 0 = Nat.min (ctrMax 0x9072 3) (s.count 0x9072 3 0 + 1))) ∧
  (∀ n d w s, n < 2 → w ≠ 0x9000 → (officerSlot s n).step = 4 → cerOpen s = true → Does (.cardResponse n d w) s (fun t =>
    t.cards.cer.state = .ended ∧ t.cards.cer.result = 8 ∧ t.cards.cer.secret = [] ∧ t.cards.cer.shares = [] ∧ t.ks = s.ks)) ∧
  (∀ n d w s, n < 2 → (officerSlot s n).step = 0 → Does (.cardResponse n d w) s (fun t => t = s)) ∧
  (∀ n s, n < 2 → (officerSlot s n).step ≠ 0 → (officerSlot s n).step ≠ 4 → Does (.waitingTimeExpiry n) s (fun t =>
    (officerSlot t n).state = .refused ∧ t.cards.cer = s.cards.cer ∧ t.count 0x9072 3 0 = Nat.min (ctrMax 0x9072 3) (s.count 0x9072 3 0 + 1))) ∧
  (∀ n s, n < 2 → (officerSlot s n).step = 4 → cerOpen s = true → Does (.waitingTimeExpiry n) s (fun t =>
    t.cards.cer.state = .ended ∧ t.cards.cer.result = 8 ∧ t.cards.cer.secret = [] ∧ t.ks = s.ks)))

/-- R576 to R578, R535, R536, Table 17-10: what a ceremony does once its officers have approved: the last confirmed
share of MK_GENERATE installs the master key and the part is OPERATIONAL; the last approval of ZEROIZE erases the
master key and of DEBUG_UNLOCK unlocks. -/
def Obligations.CeremonyEffects : Prop :=
  (∀ n d o s, n < 2 → (officerSlot s n).step = 4 → cerOpen s = true → s.cards.cer.ctype = 1 →
    officerUnseal (officerSlot s n) d = (some ((digest 2 (officerSlot s n).share 0).take 16), o) →
    s.cards.cer.n ≤ s.cards.cer.confirmed.length + 1 →
    Does (.cardResponse n d 0x9000) s (fun t => t.life.state = .operational ∧ t.cards.cer.state = .done ∧ t.cards.cer.result = 1 ∧
      t.ks.w0 = BitVec.ofNat 256 (leNat (s.cards.cer.secret.take 32)) ∧ t.ks.w1 = BitVec.ofNat 256 (leNat (s.cards.cer.secret.drop 32)) ∧
      t.ks.mkgen = 1 ∧ t.ks.zeroized = false ∧ t.cards.cer.secret = [])) ∧
  (∀ n d ct s, n < 2 → (officerSlot s n).step = 3 → s.cards.cer.state = .collecting → s.cards.cer.ctype = ct → d.length = 225 →
    pkVerify 2 2 false (officerSlot s n).pub (digest 2 ((officerSlot s n).sent ++ d.take 97 ++ slice d 97 32) 0) [] (slice d 129 96) = true →
    s.cards.roster.any (fun e => e.2 = officerHash (officerSlot s n)) = true →
    s.cards.cer.approvals.any (fun e => e.2 = officerHash (officerSlot s n)) = false →
    s.cards.cer.m ≠ 0 → s.cards.cer.m ≤ s.cards.cer.approvals.length + 1 →
    (ct = 4 → Does (.cardResponse n d 0x9000) s (fun t => t.ks.zeroized = true ∧ t.ks.w0 = 0 ∧ t.ks.w1 = 0 ∧ t.ks.w2 = 0 ∧ t.ks.w3 = 0 ∧
      t.cards.cer.state = .done ∧ (s.life.state = .initial ∨ s.life.state = .operational ∨ s.life.state = .recovery → t.life.state = .zeroized))) ∧
    (ct = 7 → Does (.cardResponse n d 0x9000) s (fun t => t.life.unlocked = true ∧ t.cards.cer.state = .done ∧ t.ks = s.ks)))

/-- R590, R594, R595, R600: a write of one health entry: a counter is cleared with its overflow flag, a self-test is
asked for, a held channel is tested once more, and a new cell starts the charge at zero. R595 to R597: tests of
quarantined channels and shared blocks, and a divergence, which quarantines its unit. -/
def Obligations.HealthTests : Prop :=
  (∀ m k s, Asks s m k → k.role = 1 →
    (∀ i sub, i < 65535 → sub < 255 → clearable i sub = true → i ≠ 0x9004 → i ≠ 0x9001 → Does (.counterClear m (leBytes 2 i ++ leBytes 1 sub ++ [0])) s (fun t => ∃ u x,
      Replied m 2 0 u t ∧ u.count i sub (selUnit k i) = 0 ∧ ctrKey i sub (selUnit k i) ∉ u.ovf ∧ u.mgSess m = some x ∧
      x.lastCleared = counterValue (heard m k s) { k with lastRx := s.time } i sub ∧
      ∃ r, u.health.ring.head? = some r ∧ r.source = 0xFFFF ∧ r.unit = i ∧ r.count = sub)) ∧
    (∀ i sub, i < 65535 → sub < 255 → clearable i sub = false → Does (.counterClear m (leBytes 2 i ++ leBytes 1 sub ++ [0])) s (fun t =>
      Replied m 2 0 (heard m k s) t)) ∧
    (∀ n, n < 9 → Does (.selfTestRequest m n) s (fun t => Replied m 2 0 { heard m k s with rest := { s.rest with reqNormal := some n } } t)) ∧
    (∀ n, 9 ≤ n → n < 256 → Does (.selfTestRequest m n) s (fun t => Replied m 2 0 (heard m k s) t)) ∧
    (∀ n, n < 9 → (s.chan n).data ≠ .quarantine → (∀ x, s.rest.lastUrgent = some x → x + 10000000000 ≤ s.time) →
      Does (.urgentSelfTest m n) s (fun t => ∃ u, Replied m 2 0 u t ∧ u.rest.lastUrgent = some s.time)) ∧
    (∀ n x, n < 9 → (s.chan n).data = .quarantine ∨ (s.rest.lastUrgent = some x ∧ s.time < x + 10000000000) →
      Does (.urgentSelfTest m n) s (fun t => Replied m 2 0 (heard m k s) t)) ∧
    (∀ n, n < 9 → (s.chan n).data = .quarantine → (s.chan n).heldQuarantine = true → (s.chan n).testPhase = 0 →
      Does (.releaseQuarantine m n) s (fun t => ∃ u, Replied m 2 0 u t ∧ (u.chan n).testPhase = 1 ∧ (u.chan n).testStart = s.time ∧
        (u.chan n).data = .quarantine)) ∧
    (∀ n, n < 9 → (s.chan n).data ≠ .quarantine ∨ (s.chan n).heldQuarantine = false ∨ (s.chan n).testPhase ≠ 0 →
      Does (.releaseQuarantine m n) s (fun t => Replied m 2 0 (heard m k s) t)) ∧
    Does (.newCell m) s (fun t => Replied m 2 0 { heard m k s with health := { s.health with charge := 0 } } t)) ∧
  ((∀ n s, n < 9 → (s.chan n).data = .quarantine → (s.chan n).testPhase = 0 → (s.chan n).heldQuarantine = false → s.supRestarting = false →
    Does (.quarantineTestStart n) s (fun t => (t.chan n).testPhase = 1 ∧ (t.chan n).testStart = s.time ∧ (t.chan n).data = .quarantine ∧
      (∀ j, j ≠ n → t.chan j = s.chan j) ∧ (t.core (8 * n)).run = .running)) ∧
  (∀ n s, (s.chan n).data ≠ .quarantine ∨ (s.chan n).testPhase ≠ 0 ∨ (s.chan n).heldQuarantine = true →
    Does (.quarantineTestStart n) s (fun t => t = s)) ∧
  (∀ b u s, Does (.sharedBlockTestSlice b u true false) s (fun t => t = s)) ∧
  (∀ b u s, Does (.sharedBlockTestSlice b u true true) s (fun t => t = { s with health := { s.health with sharedPassEnd := s.time } })) ∧
  (∀ b u s, b < 2 → Does (.sharedBlockTestSlice b u false false) s (fun t =>
    t = { s with health := { s.health with sharedRetired := tput s.health.sharedRetired (b * 64 + u % 64) 1 } })) ∧
  (∀ u s, u % 2 = 0 → watching s = true → (s.alarm 0x19).state = .clear → Does (.sharedBlockTestSlice 8 u false false) s (fun t =>
    (t.alarm 0x19).state = .active ∧ (∀ j, j ≠ 0x19 → t.alarm j = s.alarm j))) ∧
  (∀ u s, watching s = true → (s.alarm 0x1D).state = .clear → Does (.sharedBlockTestSlice 9 u false false) s (fun t =>
    (t.alarm 0x1D).state = .active ∧ (∀ j, j ≠ 0x1D → t.alarm j = s.alarm j))) ∧
  (∀ g u s, pairedUnit g u = false → Does (.stateDivergence g u) s (fun t => t = s)) ∧
  (∀ u s, u < 9 → haltedCore s u = false → Does (.stateDivergence 0 u) s (fun t => (t.chan u).data = .quarantine)) ∧
  (∀ u s, u < 4 → Does (.stateDivergence 1 u) s (fun t => (t.port u).disabled = true ∧ (t.port u).up = false ∧ (t.port u).mgmtUp = false ∧
    Latched t 0x8040 ∧ (∀ j, j ≠ u → t.port j = s.port j) ∧ t.chans = s.chans)) ∧
  (∀ s, Does (.stateDivergence 2 0) s (fun t => t.pcie.up = false ∧ t.pcie.mgmtUp = false ∧ t.pcie.training = true)) ∧
  (∀ u s, u < 3 → (s.frzPort u).state ≠ .up → Does (.stateDivergence 3 u) s (fun t => (t.frzPort u).state = .failed ∧
    (∀ j, j ≠ u → t.frzPort j = s.frzPort j))))

/-- R584: a fault source's units are counted apart; an event is a lasting fault when the unit's history holds at least
N − 1 events later than t − W, and a transient otherwise. -/
def Obligations.FaultHistories : Prop :=
  ∀ source unit lvl s,
    (∀ n, faultChannel source unit = some n → source = 0x10 ∨ source = 0x11 ∨ chanNotCounted s n = false) →
    ((countFault source unit lvl s).2 = true ↔
      (faultParams s source).1 - 1 ≤ ((s.faultUnit source unit).times.filter (fun x => decide (s.time < x + (faultParams s source).2 * 1000000000))).length) ∧
    (∀ source' unit', faultKey source' unit' ≠ faultKey source unit →
      (countFault source unit lvl s).1.faultUnit source' unit' = s.faultUnit source' unit') ∧
    ((countFault source unit lvl s).2 = true → ((countFault source unit lvl s).1.faultUnit source unit).lasting = sat32 ((s.faultUnit source unit).lasting + 1)) ∧
    ((countFault source unit lvl s).2 = false → ((countFault source unit lvl s).1.faultUnit source unit).transients = sat32 ((s.faultUnit source unit).transients + 1))

/-- R597 to R602, R496: measurements: what is sampled is held, with the lowest and highest since the clear; a load
test gives the resistance of the cell; ALM_N is released when the level and its 1 ms allow. R9, R389, R390: a write by
a master of the interconnect: what the access rules refuse is recorded and has no effect, what is no register is left
alone, and a register takes its value. -/
def Obligations.MeasurementsAndWrites : Prop :=
  ((∀ speed width s, s.pcie.training = true → Does (.pcieTrainingComplete speed width) s (fun t => t = { s with pcie := { s.pcie with
    up := true, mgmtUp := true, training := false, speed := speed, width := width, divergeSince := none } })) ∧
  (∀ speed width s, s.pcie.training = false → Does (.pcieTrainingComplete speed width) s (fun t => t = s)) ∧
  (∀ l s, s.batt.mainPower = true → l.length ≤ 10 → Does (.railSample l) s (fun t =>
    (∀ i v, l[i]? = some v → tfind t.health.railNow i = some (v % 65536) ∧
      (∀ x, tfind s.health.railMin i = some x → tfind t.health.railMin i = some (Nat.min x (v % 65536))) ∧
      (∀ x, tfind s.health.railMax i = some x → tfind t.health.railMax i = some (Nat.max x (v % 65536)))) ∧
    (∀ i, l.length ≤ i → tfind t.health.railNow i = tfind s.health.railNow i) ∧ t = { s with health := t.health })) ∧
  (∀ l s, s.batt.mainPower = true → (l.take 20).any (fun v => decide (1680 < v)) = false → Does (.temperatureSample l) s (fun t =>
    (∀ i v, i < 20 → l[i]? = some v → tfind t.health.temps i = some v) ∧ t = { s with health := { s.health with temps := t.health.temps } })) ∧
  (∀ mv s, s.batt.mainPower = true → Does (.batteryVoltageSample mv) s (fun t =>
    t = { s with health := { s.health with battMv := mv % 65536 } })) ∧
  (∀ v0 v1 s, s.batt.mainPower = true → 2600 ≤ s.health.battMv → (v0 - v1) * 500 ≤ s.cfg 0x2010 4 * 1000 → Does (.batteryLoadTest v0 v1) s (fun t =>
    t = { s with health := { s.health with battRes := (v0 - v1) * 500, battTest := s.time, charge := s.health.charge + 56 } })) ∧
  (∀ v0 v1 s, s.health.battMv < 2600 → Does (.batteryLoadTest v0 v1) s (fun t => t = s)) ∧
  (∀ s, s.batt.mainPower = true → s.pins.almForced = false → Does .almNAssertionExpiry s (fun t =>
    t.pins.alm0 = (decide (s.cfg 0x7004 1 ≤ levelHeld s) || (s.pins.alm0 && decide (s.time < s.pins.alm0At + 1000000))) ∧
    t.pins.alm1 = (decide (s.cfg 0x7004 2 ≤ levelHeld s) || (s.pins.alm1 && decide (s.time < s.pins.alm1At + 1000000))) ∧
    t = { s with pins := t.pins })) ∧
  (∀ s, s.batt.mainPower = false → Does .almNAssertionExpiry s (fun t => t = { s with pins := { s.pins with alm0 := false, alm1 := false } }))) ∧
  ((∀ master a size v w s, accessVerdict s master .write a size = some w →
    exec (.registerWrite master a size v) s = .next (logViolation master .write a w s)) ∧
  (∀ master a size v s, accessVerdict s master .write a size = none → isReg (resolve s master a) = false →
    Does (.registerWrite master a size v) s (fun t => t = s)) ∧
  (∀ master a size v u s, accessVerdict s master .write a size = none → isReg (resolve s master a) = true →
    regWrite master (resolve s master a) size (v % 2 ^ (8 * size)) s = .done u → Does (.registerWrite master a size v) s (fun t => t = u)))

/-- R10, R589: an RS counter stays at its largest value; reaching it sets the overflow flag, raises device event
0x8030, and no other counter changes but that of the full list. R495, R499: the level held is the highest level among
alarms that are ACTIVE or HELD. -/
def Obligations.CountersAndLevel : Prop :=
  (∀ i sub unit n s, ctrKey i sub unit ≠ ctrKey 0x9001 4 0 →
    (bumpBy i sub unit n s).count i sub unit = Nat.min (ctrMax i sub) (s.count i sub unit + n) ∧
    (s.count i sub unit < ctrMax i sub → ctrMax i sub ≤ s.count i sub unit + n →
      ctrKey i sub unit ∈ (bumpBy i sub unit n s).ovf ∧ Latched (bumpBy i sub unit n s) 0x8030 ∧
      (odKey i sub ∈ (bumpBy i sub unit n s).health.saturated ∨ 256 ≤ s.health.saturated.length)) ∧
    (∀ j, j ≠ ctrKey i sub unit → j ≠ ctrKey 0x9001 4 0 → tget 0 (bumpBy i sub unit n s).ctr j = tget 0 s.ctr j)) ∧
  (∀ s, (∀ e ∈ s.alarms, e.2.state ≠ .clear → e.2.raised ≤ levelHeld s) ∧
    (levelHeld s ≠ 0 → ∃ e ∈ s.alarms, e.2.state ≠ .clear ∧ e.2.raised = levelHeld s))

/-- A step takes the command at the front of the queue and is its meaning with the queue's rest; a word of the table
spells no command, as the table gives no row any bits (log 21); with no command waiting, device time advances by one
tick (the model's choice, log 1). -/
def Obligations.StepTakesFront : Prop :=
  (∀ c q s, s.pending = c :: q → step s = exec c { s with pending := q }) ∧
  (∀ nbits w (s : State), decodeTableWord nbits w = none ∧ s.withFetchWord nbits w = s) ∧
  (∀ s, s.pending = [] → ∃ h, step s = .next { s with time := s.time + 1, health := h } ∧
    ((s.time + 1) % 1000000 ≠ 0 → h = s.health))

/-- R611, R496, R467, R534, R455: what the part is right after reset: held until its release, both ALM_N low, no
command, no session, no alarm, every channel off, ports in DETECT; and memory in its canonical form. The lifecycle
MANUFACTURE with no fuse blown (log 88), and the empty master key register and erased flash (log 3), are the model's
choice. -/
def Obligations.ResetState : Prop :=
  State.reset.pending = [] ∧ State.reset.pins.held = true ∧ State.reset.pins.alm0 = true ∧ State.reset.pins.alm1 = true ∧
  State.reset.sessions = [] ∧ State.reset.mgmt.sess = [] ∧ (∀ n, (State.reset.chan n).data = .off) ∧
  (∀ p, (State.reset.frzPort p).state = .detect) ∧ (∀ a, (State.reset.alarm a).state = .clear) ∧ levelHeld State.reset = 0 ∧
  State.reset.life.state = .manufacture ∧ State.reset.life.fuses.rollback = 0 ∧ State.reset.ks.w0 = 0 ∧ State.reset.flash.cfg % 16 = 15 ∧
  (∀ p, State.reset.flash.page p = List.replicate 256 0xFF) ∧ memWf State.reset.mem = true

/-- No command, in no state, ends in a fault or a refusal. -/
def Obligations.EveryStepRuns : Prop :=
  ∀ s, Runs s

/-- The memory keeps its canonical form over every step (log 4). -/
def Obligations.MemoryStaysCanonical : Prop :=
  ∀ s t, step s = .next t → memWf s.mem = true → memWf t.mem = true

/-- R532, R548: blowing a fuse is permanent: no step lowers the ROLLBACK version or takes back a blown SHIPPED or
DECOMMISSIONED triplet, and none changes the part's identity. -/
def Obligations.FusesStayBlown : Prop :=
  ∀ s t, step s = .next t →
    s.life.fuses.rollback ≤ t.life.fuses.rollback ∧
    (2 ≤ s.life.fuses.shipped → 2 ≤ t.life.fuses.shipped) ∧ (2 ≤ s.life.fuses.decommissioned → 2 ≤ t.life.fuses.decommissioned) ∧
    t.life.fuses.idSeed = s.life.fuses.idSeed ∧ t.life.fuses.pairingKey = s.life.fuses.pairingKey ∧ t.life.fuses.serial = s.life.fuses.serial

/-- R315 to R341: an Ortan instruction's word decodes to the instruction, whatever its operands. A block instruction
that has no unit count of its own in its word takes all of them. -/
def Obligations.OrtanRoundTrip : Prop :=
  ∀ i w, wellFormed i = true → Ortan.encode i = some w →
    (∀ c q rd ra rb sd sa u, i = .bcopy c q rd ra rb sd sa u → u = Ortan.allUnits) →
    (∀ c q rd ra rb sd u, i = .bfill c q rd ra rb sd u → u = Ortan.allUnits) →
    (∀ c q rd ra rb sd sa pd u, i = .bcmpeq c q rd ra rb sd sa pd u → u = Ortan.allUnits) →
    w < 2 ^ 64 ∧ ∃ c, Ortan.decode c (BitVec.ofNat 64 w) = i

/-- R315, R340, R341: every 64-bit word decodes to a well-formed instruction: one whose own word it is, UDF, or a
reserved encoding. -/
def Obligations.OrtanWordsDecode : Prop :=
  ∀ c w, (c < 72 ∨ c = 0x50 ∨ c = 0x51) → wellFormed (Ortan.decode c w) = true ∧ Ortan.encode (Ortan.decode c w) = some w.toNat ∧
    (Ortan.isUdf w = true ↔ Ortan.decode c w = .udf c w)

/-- R315 to R340: words written out by the tables of the chapter decode to their instructions: ADD.W, MOVI, CMP, LD,
BRL, FMAC, CALLS, FENCE.ACL and UDF. -/
def Obligations.OrtanWords : Prop :=
  Ortan.decode 3 0b000_0_000001_00101_00110_00111_1_0000000_0000000000000000000000000000000 = .add 3 ⟨0, false⟩ 5 6 (.reg 7) true ∧
  Ortan.decode 3 0b010_1_000011_00001_1_00000000000000000000000000000000_1010101111001101 = .movi 3 ⟨2, true⟩ 1 (.high 0xABCD) ∧
  Ortan.decode 0 0b000_0_001000_001_010_00011_00100_0101_0_1_00000000000000000000000000000000 = .cmp 0 ⟨0, false⟩ 1 2 3 (.reg 4) .geu true ∧
  Ortan.decode 0 0b001_0_010000_00010_00011_100_11_0_000000_11111111111111111111111111111000 = .ld 0 ⟨1, false⟩ 2 3 4 3 false 0xFFFFFFF8 ∧
  Ortan.decode 0 0b000_0_010101_11110_00000_000000000000_00000000000000000000000000010000 = .brl 0 ⟨0, false⟩ 30 16 ∧
  Ortan.decode 0 0b000_0_011000_00000_01_00010_00011_011_10_1_0000_000000_000000000000000000000 = .fmac 0 ⟨0, false⟩ 1 2 3 3 2 true ∧
  Ortan.decode 0 0b000_0_100000_00000_00000_00000001_00000000000000000000_0000000000000101 = .calls 0 ⟨0, false⟩ 5 ∧
  Ortan.decode 0 0b000_0_100000_00000_00000_00000100_00000000000000000000_0000000000000000 = .fenceAcl 0 ⟨0, false⟩ ∧
  Ortan.decode 0 0xFFFFFFFFFFFFFFFF = .udf 0 0xFFFFFFFFFFFFFFFF
end

