-- ==== Sys2Proof/Laws/Tables.lean ====
section
/-! SUPPORT. The laws of tables and of memory bytes: a read after a write, and the canonical form. -/

namespace Sys2Proof.Machine

variable {α : Type}

@[simp] theorem tfind_nil (k : Nat) : tfind ([] : Tab α) k = none := rfl

theorem tfind_tput_same (t : Tab α) (k : Nat) (v : α) : tfind (tput t k v) k = some v := by
  induction t with
  | nil => simp [tput, tfind]
  | cons e t ih =>
    obtain ⟨k', v'⟩ := e
    simp only [tput]
    split
    · simp [tfind]
    · split
      · simp [tfind]
      · have : ¬k' = k := fun h => by omega
        simp [tfind, this, ih]

theorem tfind_tput_other (t : Tab α) {k j : Nat} (v : α) (h : j ≠ k) : tfind (tput t k v) j = tfind t j := by
  induction t with
  | nil => simp [tput, tfind, Ne.symm h]
  | cons e t ih =>
    obtain ⟨k', v'⟩ := e
    simp only [tput]
    split
    · simp [tfind, Ne.symm h]
    · split
      · next hk => subst hk; simp [tfind, Ne.symm h]
      · simp only [tfind, ih]

theorem tfind_tdel_same (t : Tab α) (k : Nat) : tfind (tdel t k) k = none := by
  induction t with
  | nil => rfl
  | cons e t ih =>
    obtain ⟨k', v'⟩ := e
    by_cases h : k' = k
    · simpa [tdel, h] using ih
    · simpa [tdel, h, tfind] using ih

theorem tfind_tdel_other (t : Tab α) {k j : Nat} (h : j ≠ k) : tfind (tdel t k) j = tfind t j := by
  induction t with
  | nil => rfl
  | cons e t ih =>
    obtain ⟨k', v'⟩ := e
    by_cases hk : k' = k
    · have : ¬k' = j := fun x => h (x.symm.trans hk)
      simpa [tdel, hk, tfind, this, Ne.symm h] using ih
    · have ih' : tfind (t.filter fun e => !(e.1 == k)) j = tfind t j := ih
      simp [tdel, hk, tfind, ih']

/-- A filter that keeps every entry of a key leaves its value. -/
theorem tfind_filter_keep (p : Nat × α → Bool) (t : Tab α) (j : Nat) (h : ∀ v, p (j, v) = true) :
    tfind (t.filter p) j = tfind t j := by
  induction t with
  | nil => rfl
  | cons e t ih =>
    obtain ⟨k, v⟩ := e
    by_cases hk : k = j
    · subst hk; simp [tfind, h]
    · by_cases hp : p (k, v) <;> simp [hp, tfind, hk, ih]

/-- A filter that drops every entry of a key leaves none. -/
theorem tfind_filter_drop (p : Nat × α → Bool) (t : Tab α) (j : Nat) (h : ∀ v, p (j, v) = false) :
    tfind (t.filter p) j = none := by
  induction t with
  | nil => rfl
  | cons e t ih =>
    obtain ⟨k, v⟩ := e
    by_cases hp : p (k, v)
    · by_cases hk : k = j
      · subst hk; simp [h] at hp
      · simp [hp, tfind, hk, ih]
    · simp [hp, ih]

@[simp] theorem tget_tset_same [DecidableEq α] (d : α) (t : Tab α) (k : Nat) (v : α) :
    tget d (tset d t k v) k = v := by
  unfold tset tget
  split
  · next h => simp [tfind_tdel_same, h]
  · simp [tfind_tput_same]

theorem tget_tset_other [DecidableEq α] (d : α) (t : Tab α) {k j : Nat} (v : α) (h : j ≠ k) :
    tget d (tset d t k v) j = tget d t j := by
  unfold tset tget
  split
  · rw [tfind_tdel_other t h]
  · rw [tfind_tput_other t v h]

-- The canonical form.

/-- Every key of a table is above a bound. -/
def above (b : Nat) (t : Tab α) : Prop := ∀ e ∈ t, b < e.1

theorem tsorted_cons_iff (k : Nat) (v : α) (t : Tab α) :
    tsorted ((k, v) :: t) = true ↔ above k t ∧ tsorted t = true := by
  induction t generalizing k v with
  | nil => simp [tsorted, above]
  | cons e t ih =>
    obtain ⟨k', v'⟩ := e
    simp only [tsorted, Bool.and_eq_true, decide_eq_true_eq]
    constructor
    · rintro ⟨h, ht⟩
      refine ⟨?_, ht⟩
      intro x hx
      rcases List.mem_cons.1 hx with rfl | hx
      · exact h
      · exact Nat.lt_trans h (((ih k' v').1 ht).1 x hx)
    · rintro ⟨h, ht⟩
      exact ⟨h _ (List.mem_cons_self ..), ht⟩

theorem above_tput {b k : Nat} {t : Tab α} (v : α) (hk : b < k) (h : above b t) : above b (tput t k v) := by
  induction t with
  | nil => intro e he; simp [tput] at he; subst he; exact hk
  | cons e t ih =>
    obtain ⟨k', v'⟩ := e
    have ht : above b t := fun x hx => h x (List.mem_cons_of_mem _ hx)
    have hk' : b < k' := h (k', v') (List.mem_cons_self ..)
    simp only [tput]
    split
    · intro x hx
      rcases List.mem_cons.1 hx with rfl | hx
      · exact hk
      · exact h x hx
    · split
      · intro x hx
        rcases List.mem_cons.1 hx with rfl | hx
        · exact hk
        · exact ht x hx
      · intro x hx
        rcases List.mem_cons.1 hx with rfl | hx
        · exact hk'
        · exact ih ht x hx

theorem tsorted_tput (t : Tab α) (k : Nat) (v : α) (h : tsorted t = true) : tsorted (tput t k v) = true := by
  induction t with
  | nil => rfl
  | cons e t ih =>
    obtain ⟨k', v'⟩ := e
    have ⟨ha, ht⟩ := (tsorted_cons_iff k' v' t).1 h
    simp only [tput]
    split
    · next hk =>
      refine (tsorted_cons_iff _ _ _).2 ⟨?_, h⟩
      intro x hx
      rcases List.mem_cons.1 hx with rfl | hx
      · exact hk
      · exact Nat.lt_trans hk (ha x hx)
    · split
      · next hk => subst hk; exact (tsorted_cons_iff _ _ _).2 ⟨ha, ht⟩
      · exact (tsorted_cons_iff _ _ _).2 ⟨above_tput v (by omega) ha, ih ht⟩

theorem tsorted_filter (p : Nat × α → Bool) (t : Tab α) (h : tsorted t = true) : tsorted (t.filter p) = true := by
  induction t with
  | nil => rfl
  | cons e t ih =>
    obtain ⟨k', v'⟩ := e
    have ⟨ha, ht⟩ := (tsorted_cons_iff k' v' t).1 h
    rw [List.filter_cons]
    split
    · exact (tsorted_cons_iff _ _ _).2 ⟨fun x hx => ha x (List.mem_filter.1 hx).1, ih ht⟩
    · exact ih ht

theorem mem_tput {t : Tab α} {k : Nat} {v : α} {e : Nat × α} (h : e ∈ tput t k v) : e = (k, v) ∨ e ∈ t := by
  induction t with
  | nil => simpa [tput] using h
  | cons x t ih =>
    obtain ⟨k', v'⟩ := x
    simp only [tput] at h
    split at h
    · exact List.mem_cons.1 h
    · split at h
      · exact (List.mem_cons.1 h).imp id (List.mem_cons_of_mem _)
      · rcases List.mem_cons.1 h with rfl | h
        · exact .inr (List.mem_cons_self ..)
        · exact (ih h).imp id (List.mem_cons_of_mem _)

theorem twf_filter [DecidableEq α] (d : α) (p : Nat × α → Bool) (t : Tab α) (h : twf d t = true) :
    twf d (t.filter p) = true := by
  simp only [twf, Bool.and_eq_true, List.all_eq_true] at h ⊢
  exact ⟨tsorted_filter p t h.1, fun e he => h.2 e (List.mem_filter.1 he).1⟩

/-- A table in canonical form stays so when a key is set. -/
theorem twf_tset [DecidableEq α] (d : α) (t : Tab α) (k : Nat) (v : α) (h : twf d t = true) :
    twf d (tset d t k v) = true := by
  unfold tset
  split
  · exact twf_filter d _ t h
  · next hv =>
    simp only [twf, Bool.and_eq_true, List.all_eq_true] at h ⊢
    refine ⟨tsorted_tput t k v h.1, fun e he => ?_⟩
    rcases mem_tput he with rfl | he
    · simp [hv]
    · exact h.2 e he

-- Memory bytes.

theorem memWf_memPut (m : List Host.Cell) (k : Nat) (b : Bytes) (h : memWf m = true) : memWf (memPut m k b) = true := by
  induction b generalizing m k with
  | nil => exact h
  | cons x b ih => exact ih _ _ (twf_tset memDefault m k x h)

/-- A write leaves every byte outside its range. -/
theorem memByte_memPut_outside (m : List Host.Cell) (k a : Nat) (b : Bytes) (h : a < k ∨ k + b.length ≤ a) :
    memByte (memPut m k b) a = memByte m a := by
  induction b generalizing m k with
  | nil => rfl
  | cons x b ih =>
    simp only [List.length_cons] at h
    have h1 : a < k + 1 ∨ k + 1 + b.length ≤ a := by omega
    have h2 : a ≠ k := by omega
    rw [memPut, ih _ _ h1]
    exact tget_tset_other memDefault m x h2

/-- A read of the bytes written gives them. -/
theorem memBytes_memPut_same (m : List Host.Cell) (k : Nat) (b : Bytes) : memBytes (memPut m k b) k b.length = b := by
  induction b generalizing m k with
  | nil => rfl
  | cons x b ih =>
    have h : memByte (memPut (tset memDefault m k x) (k + 1) b) k = x := by
      rw [memByte_memPut_outside _ _ _ _ (.inl (Nat.lt_succ_self k))]
      exact tget_tset_same memDefault m k x
    simp only [memPut, List.length_cons, memBytes, h, ih]

/-- Reset's memory has the canonical form. -/
theorem memWf_reset : memWf State.reset.mem = true := rfl

end Sys2Proof.Machine
end

