-- ==== Sys2Proof/Laws/State.lean ====
section
/-! SUPPORT. Fields after each named update of the state: one lemma per field per update, so that no later proof
unfolds a record update; and a unit read back after it is set. -/

namespace Sys2Proof.Machine

-- emit
@[simp] theorem emit_pending (s : State) (o : Out) : (emit o s).pending = s.pending := rfl
@[simp] theorem emit_time (s : State) (o : Out) : (emit o s).time = s.time := rfl
@[simp] theorem emit_free (s : State) (o : Out) : (emit o s).free = s.free := rfl
@[simp] theorem emit_out (s : State) (o : Out) : (emit o s).out = o :: s.out := rfl
@[simp] theorem emit_pins (s : State) (o : Out) : (emit o s).pins = s.pins := rfl
@[simp] theorem emit_cores (s : State) (o : Out) : (emit o s).cores = s.cores := rfl
@[simp] theorem emit_intc (s : State) (o : Out) : (emit o s).intc = s.intc := rfl
@[simp] theorem emit_devEv (s : State) (o : Out) : (emit o s).devEv = s.devEv := rfl
@[simp] theorem emit_acl (s : State) (o : Out) : (emit o s).acl = s.acl := rfl
@[simp] theorem emit_mpe (s : State) (o : Out) : (emit o s).mpe = s.mpe := rfl
@[simp] theorem emit_ddr (s : State) (o : Out) : (emit o s).ddr = s.ddr := rfl
@[simp] theorem emit_ecc (s : State) (o : Out) : (emit o s).ecc = s.ecc := rfl
@[simp] theorem emit_mem (s : State) (o : Out) : (emit o s).mem = s.mem := rfl
@[simp] theorem emit_dbg (s : State) (o : Out) : (emit o s).dbg = s.dbg := rfl
@[simp] theorem emit_lockup (s : State) (o : Out) : (emit o s).lockup = s.lockup := rfl
@[simp] theorem emit_supRestarting (s : State) (o : Out) : (emit o s).supRestarting = s.supRestarting := rfl
@[simp] theorem emit_devEvMax (s : State) (o : Out) : (emit o s).devEvMax = s.devEvMax := rfl
@[simp] theorem emit_plink (s : State) (o : Out) : (emit o s).plink = s.plink := rfl
@[simp] theorem emit_clear (s : State) (o : Out) : (emit o s).clear = s.clear := rfl
@[simp] theorem emit_chans (s : State) (o : Out) : (emit o s).chans = s.chans := rfl
@[simp] theorem emit_rest (s : State) (o : Out) : (emit o s).rest = s.rest := rfl
@[simp] theorem emit_reqs (s : State) (o : Out) : (emit o s).reqs = s.reqs := rfl
@[simp] theorem emit_sessions (s : State) (o : Out) : (emit o s).sessions = s.sessions := rfl
@[simp] theorem emit_nextSession (s : State) (o : Out) : (emit o s).nextSession = s.nextSession := rfl
@[simp] theorem emit_resets (s : State) (o : Out) : (emit o s).resets = s.resets := rfl
@[simp] theorem emit_rings (s : State) (o : Out) : (emit o s).rings = s.rings := rfl
@[simp] theorem emit_eth (s : State) (o : Out) : (emit o s).eth = s.eth := rfl
@[simp] theorem emit_pcie (s : State) (o : Out) : (emit o s).pcie = s.pcie := rfl
@[simp] theorem emit_qm (s : State) (o : Out) : (emit o s).qm = s.qm := rfl
@[simp] theorem emit_svc (s : State) (o : Out) : (emit o s).svc = s.svc := rfl
@[simp] theorem emit_frz (s : State) (o : Out) : (emit o s).frz = s.frz := rfl
@[simp] theorem emit_mgmt (s : State) (o : Out) : (emit o s).mgmt = s.mgmt := rfl
@[simp] theorem emit_alarms (s : State) (o : Out) : (emit o s).alarms = s.alarms := rfl
@[simp] theorem emit_window (s : State) (o : Out) : (emit o s).window = s.window := rfl
@[simp] theorem emit_arm (s : State) (o : Out) : (emit o s).arm = s.arm := rfl
@[simp] theorem emit_batt (s : State) (o : Out) : (emit o s).batt = s.batt := rfl
@[simp] theorem emit_pat (s : State) (o : Out) : (emit o s).pat = s.pat := rfl
@[simp] theorem emit_health (s : State) (o : Out) : (emit o s).health = s.health := rfl
@[simp] theorem emit_eng (s : State) (o : Out) : (emit o s).eng = s.eng := rfl
@[simp] theorem emit_ks (s : State) (o : Out) : (emit o s).ks = s.ks := rfl
@[simp] theorem emit_gens (s : State) (o : Out) : (emit o s).gens = s.gens := rfl
@[simp] theorem emit_noiseJitterBad (s : State) (o : Out) : (emit o s).noiseJitterBad = s.noiseJitterBad := rfl
@[simp] theorem emit_noiseLatchBad (s : State) (o : Out) : (emit o s).noiseLatchBad = s.noiseLatchBad := rfl
@[simp] theorem emit_life (s : State) (o : Out) : (emit o s).life = s.life := rfl
@[simp] theorem emit_flash (s : State) (o : Out) : (emit o s).flash = s.flash := rfl
@[simp] theorem emit_cards (s : State) (o : Out) : (emit o s).cards = s.cards := rfl
@[simp] theorem emit_od (s : State) (o : Out) : (emit o s).od = s.od := rfl
@[simp] theorem emit_odb (s : State) (o : Out) : (emit o s).odb = s.odb := rfl
@[simp] theorem emit_ctr (s : State) (o : Out) : (emit o s).ctr = s.ctr := rfl
@[simp] theorem emit_ovf (s : State) (o : Out) : (emit o s).ovf = s.ovf := rfl

-- useFree
@[simp] theorem useFree_pending (s : State)  : (useFree s).pending = s.pending := rfl
@[simp] theorem useFree_time (s : State)  : (useFree s).time = s.time := rfl
@[simp] theorem useFree_free (s : State)  : (useFree s).free = s.free + 1 := rfl
@[simp] theorem useFree_out (s : State)  : (useFree s).out = s.out := rfl
@[simp] theorem useFree_pins (s : State)  : (useFree s).pins = s.pins := rfl
@[simp] theorem useFree_cores (s : State)  : (useFree s).cores = s.cores := rfl
@[simp] theorem useFree_intc (s : State)  : (useFree s).intc = s.intc := rfl
@[simp] theorem useFree_devEv (s : State)  : (useFree s).devEv = s.devEv := rfl
@[simp] theorem useFree_acl (s : State)  : (useFree s).acl = s.acl := rfl
@[simp] theorem useFree_mpe (s : State)  : (useFree s).mpe = s.mpe := rfl
@[simp] theorem useFree_ddr (s : State)  : (useFree s).ddr = s.ddr := rfl
@[simp] theorem useFree_ecc (s : State)  : (useFree s).ecc = s.ecc := rfl
@[simp] theorem useFree_mem (s : State)  : (useFree s).mem = s.mem := rfl
@[simp] theorem useFree_dbg (s : State)  : (useFree s).dbg = s.dbg := rfl
@[simp] theorem useFree_lockup (s : State)  : (useFree s).lockup = s.lockup := rfl
@[simp] theorem useFree_supRestarting (s : State)  : (useFree s).supRestarting = s.supRestarting := rfl
@[simp] theorem useFree_devEvMax (s : State)  : (useFree s).devEvMax = s.devEvMax := rfl
@[simp] theorem useFree_plink (s : State)  : (useFree s).plink = s.plink := rfl
@[simp] theorem useFree_clear (s : State)  : (useFree s).clear = s.clear := rfl
@[simp] theorem useFree_chans (s : State)  : (useFree s).chans = s.chans := rfl
@[simp] theorem useFree_rest (s : State)  : (useFree s).rest = s.rest := rfl
@[simp] theorem useFree_reqs (s : State)  : (useFree s).reqs = s.reqs := rfl
@[simp] theorem useFree_sessions (s : State)  : (useFree s).sessions = s.sessions := rfl
@[simp] theorem useFree_nextSession (s : State)  : (useFree s).nextSession = s.nextSession := rfl
@[simp] theorem useFree_resets (s : State)  : (useFree s).resets = s.resets := rfl
@[simp] theorem useFree_rings (s : State)  : (useFree s).rings = s.rings := rfl
@[simp] theorem useFree_eth (s : State)  : (useFree s).eth = s.eth := rfl
@[simp] theorem useFree_pcie (s : State)  : (useFree s).pcie = s.pcie := rfl
@[simp] theorem useFree_qm (s : State)  : (useFree s).qm = s.qm := rfl
@[simp] theorem useFree_svc (s : State)  : (useFree s).svc = s.svc := rfl
@[simp] theorem useFree_frz (s : State)  : (useFree s).frz = s.frz := rfl
@[simp] theorem useFree_mgmt (s : State)  : (useFree s).mgmt = s.mgmt := rfl
@[simp] theorem useFree_alarms (s : State)  : (useFree s).alarms = s.alarms := rfl
@[simp] theorem useFree_window (s : State)  : (useFree s).window = s.window := rfl
@[simp] theorem useFree_arm (s : State)  : (useFree s).arm = s.arm := rfl
@[simp] theorem useFree_batt (s : State)  : (useFree s).batt = s.batt := rfl
@[simp] theorem useFree_pat (s : State)  : (useFree s).pat = s.pat := rfl
@[simp] theorem useFree_health (s : State)  : (useFree s).health = s.health := rfl
@[simp] theorem useFree_eng (s : State)  : (useFree s).eng = s.eng := rfl
@[simp] theorem useFree_ks (s : State)  : (useFree s).ks = s.ks := rfl
@[simp] theorem useFree_gens (s : State)  : (useFree s).gens = s.gens := rfl
@[simp] theorem useFree_noiseJitterBad (s : State)  : (useFree s).noiseJitterBad = s.noiseJitterBad := rfl
@[simp] theorem useFree_noiseLatchBad (s : State)  : (useFree s).noiseLatchBad = s.noiseLatchBad := rfl
@[simp] theorem useFree_life (s : State)  : (useFree s).life = s.life := rfl
@[simp] theorem useFree_flash (s : State)  : (useFree s).flash = s.flash := rfl
@[simp] theorem useFree_cards (s : State)  : (useFree s).cards = s.cards := rfl
@[simp] theorem useFree_od (s : State)  : (useFree s).od = s.od := rfl
@[simp] theorem useFree_odb (s : State)  : (useFree s).odb = s.odb := rfl
@[simp] theorem useFree_ctr (s : State)  : (useFree s).ctr = s.ctr := rfl
@[simp] theorem useFree_ovf (s : State)  : (useFree s).ovf = s.ovf := rfl

-- memWrite
@[simp] theorem memWrite_pending (s : State) (k : Nat) (b : Bytes) : (s.memWrite k b).pending = s.pending := rfl
@[simp] theorem memWrite_time (s : State) (k : Nat) (b : Bytes) : (s.memWrite k b).time = s.time := rfl
@[simp] theorem memWrite_free (s : State) (k : Nat) (b : Bytes) : (s.memWrite k b).free = s.free := rfl
@[simp] theorem memWrite_out (s : State) (k : Nat) (b : Bytes) : (s.memWrite k b).out = s.out := rfl
@[simp] theorem memWrite_pins (s : State) (k : Nat) (b : Bytes) : (s.memWrite k b).pins = s.pins := rfl
@[simp] theorem memWrite_cores (s : State) (k : Nat) (b : Bytes) : (s.memWrite k b).cores = s.cores := rfl
@[simp] theorem memWrite_intc (s : State) (k : Nat) (b : Bytes) : (s.memWrite k b).intc = s.intc := rfl
@[simp] theorem memWrite_devEv (s : State) (k : Nat) (b : Bytes) : (s.memWrite k b).devEv = s.devEv := rfl
@[simp] theorem memWrite_acl (s : State) (k : Nat) (b : Bytes) : (s.memWrite k b).acl = s.acl := rfl
@[simp] theorem memWrite_mpe (s : State) (k : Nat) (b : Bytes) : (s.memWrite k b).mpe = s.mpe := rfl
@[simp] theorem memWrite_ddr (s : State) (k : Nat) (b : Bytes) : (s.memWrite k b).ddr = s.ddr := rfl
@[simp] theorem memWrite_ecc (s : State) (k : Nat) (b : Bytes) : (s.memWrite k b).ecc = s.ecc := rfl
@[simp] theorem memWrite_mem (s : State) (k : Nat) (b : Bytes) : (s.memWrite k b).mem = memPut s.mem k b := rfl
@[simp] theorem memWrite_dbg (s : State) (k : Nat) (b : Bytes) : (s.memWrite k b).dbg = s.dbg := rfl
@[simp] theorem memWrite_lockup (s : State) (k : Nat) (b : Bytes) : (s.memWrite k b).lockup = s.lockup := rfl
@[simp] theorem memWrite_supRestarting (s : State) (k : Nat) (b : Bytes) : (s.memWrite k b).supRestarting = s.supRestarting := rfl
@[simp] theorem memWrite_devEvMax (s : State) (k : Nat) (b : Bytes) : (s.memWrite k b).devEvMax = s.devEvMax := rfl
@[simp] theorem memWrite_plink (s : State) (k : Nat) (b : Bytes) : (s.memWrite k b).plink = s.plink := rfl
@[simp] theorem memWrite_clear (s : State) (k : Nat) (b : Bytes) : (s.memWrite k b).clear = s.clear := rfl
@[simp] theorem memWrite_chans (s : State) (k : Nat) (b : Bytes) : (s.memWrite k b).chans = s.chans := rfl
@[simp] theorem memWrite_rest (s : State) (k : Nat) (b : Bytes) : (s.memWrite k b).rest = s.rest := rfl
@[simp] theorem memWrite_reqs (s : State) (k : Nat) (b : Bytes) : (s.memWrite k b).reqs = s.reqs := rfl
@[simp] theorem memWrite_sessions (s : State) (k : Nat) (b : Bytes) : (s.memWrite k b).sessions = s.sessions := rfl
@[simp] theorem memWrite_nextSession (s : State) (k : Nat) (b : Bytes) : (s.memWrite k b).nextSession = s.nextSession := rfl
@[simp] theorem memWrite_resets (s : State) (k : Nat) (b : Bytes) : (s.memWrite k b).resets = s.resets := rfl
@[simp] theorem memWrite_rings (s : State) (k : Nat) (b : Bytes) : (s.memWrite k b).rings = s.rings := rfl
@[simp] theorem memWrite_eth (s : State) (k : Nat) (b : Bytes) : (s.memWrite k b).eth = s.eth := rfl
@[simp] theorem memWrite_pcie (s : State) (k : Nat) (b : Bytes) : (s.memWrite k b).pcie = s.pcie := rfl
@[simp] theorem memWrite_qm (s : State) (k : Nat) (b : Bytes) : (s.memWrite k b).qm = s.qm := rfl
@[simp] theorem memWrite_svc (s : State) (k : Nat) (b : Bytes) : (s.memWrite k b).svc = s.svc := rfl
@[simp] theorem memWrite_frz (s : State) (k : Nat) (b : Bytes) : (s.memWrite k b).frz = s.frz := rfl
@[simp] theorem memWrite_mgmt (s : State) (k : Nat) (b : Bytes) : (s.memWrite k b).mgmt = s.mgmt := rfl
@[simp] theorem memWrite_alarms (s : State) (k : Nat) (b : Bytes) : (s.memWrite k b).alarms = s.alarms := rfl
@[simp] theorem memWrite_window (s : State) (k : Nat) (b : Bytes) : (s.memWrite k b).window = s.window := rfl
@[simp] theorem memWrite_arm (s : State) (k : Nat) (b : Bytes) : (s.memWrite k b).arm = s.arm := rfl
@[simp] theorem memWrite_batt (s : State) (k : Nat) (b : Bytes) : (s.memWrite k b).batt = s.batt := rfl
@[simp] theorem memWrite_pat (s : State) (k : Nat) (b : Bytes) : (s.memWrite k b).pat = s.pat := rfl
@[simp] theorem memWrite_health (s : State) (k : Nat) (b : Bytes) : (s.memWrite k b).health = s.health := rfl
@[simp] theorem memWrite_eng (s : State) (k : Nat) (b : Bytes) : (s.memWrite k b).eng = s.eng := rfl
@[simp] theorem memWrite_ks (s : State) (k : Nat) (b : Bytes) : (s.memWrite k b).ks = s.ks := rfl
@[simp] theorem memWrite_gens (s : State) (k : Nat) (b : Bytes) : (s.memWrite k b).gens = s.gens := rfl
@[simp] theorem memWrite_noiseJitterBad (s : State) (k : Nat) (b : Bytes) : (s.memWrite k b).noiseJitterBad = s.noiseJitterBad := rfl
@[simp] theorem memWrite_noiseLatchBad (s : State) (k : Nat) (b : Bytes) : (s.memWrite k b).noiseLatchBad = s.noiseLatchBad := rfl
@[simp] theorem memWrite_life (s : State) (k : Nat) (b : Bytes) : (s.memWrite k b).life = s.life := rfl
@[simp] theorem memWrite_flash (s : State) (k : Nat) (b : Bytes) : (s.memWrite k b).flash = s.flash := rfl
@[simp] theorem memWrite_cards (s : State) (k : Nat) (b : Bytes) : (s.memWrite k b).cards = s.cards := rfl
@[simp] theorem memWrite_od (s : State) (k : Nat) (b : Bytes) : (s.memWrite k b).od = s.od := rfl
@[simp] theorem memWrite_odb (s : State) (k : Nat) (b : Bytes) : (s.memWrite k b).odb = s.odb := rfl
@[simp] theorem memWrite_ctr (s : State) (k : Nat) (b : Bytes) : (s.memWrite k b).ctr = s.ctr := rfl
@[simp] theorem memWrite_ovf (s : State) (k : Nat) (b : Bytes) : (s.memWrite k b).ovf = s.ovf := rfl

-- setCore
@[simp] theorem setCore_pending (s : State) (c : Nat) (k : Core) : (s.setCore c k).pending = s.pending := rfl
@[simp] theorem setCore_time (s : State) (c : Nat) (k : Core) : (s.setCore c k).time = s.time := rfl
@[simp] theorem setCore_free (s : State) (c : Nat) (k : Core) : (s.setCore c k).free = s.free := rfl
@[simp] theorem setCore_out (s : State) (c : Nat) (k : Core) : (s.setCore c k).out = s.out := rfl
@[simp] theorem setCore_pins (s : State) (c : Nat) (k : Core) : (s.setCore c k).pins = s.pins := rfl
@[simp] theorem setCore_cores (s : State) (c : Nat) (k : Core) : (s.setCore c k).cores = tset {} s.cores c k := rfl
@[simp] theorem setCore_intc (s : State) (c : Nat) (k : Core) : (s.setCore c k).intc = s.intc := rfl
@[simp] theorem setCore_devEv (s : State) (c : Nat) (k : Core) : (s.setCore c k).devEv = s.devEv := rfl
@[simp] theorem setCore_acl (s : State) (c : Nat) (k : Core) : (s.setCore c k).acl = s.acl := rfl
@[simp] theorem setCore_mpe (s : State) (c : Nat) (k : Core) : (s.setCore c k).mpe = s.mpe := rfl
@[simp] theorem setCore_ddr (s : State) (c : Nat) (k : Core) : (s.setCore c k).ddr = s.ddr := rfl
@[simp] theorem setCore_ecc (s : State) (c : Nat) (k : Core) : (s.setCore c k).ecc = s.ecc := rfl
@[simp] theorem setCore_mem (s : State) (c : Nat) (k : Core) : (s.setCore c k).mem = s.mem := rfl
@[simp] theorem setCore_dbg (s : State) (c : Nat) (k : Core) : (s.setCore c k).dbg = s.dbg := rfl
@[simp] theorem setCore_lockup (s : State) (c : Nat) (k : Core) : (s.setCore c k).lockup = s.lockup := rfl
@[simp] theorem setCore_supRestarting (s : State) (c : Nat) (k : Core) : (s.setCore c k).supRestarting = s.supRestarting := rfl
@[simp] theorem setCore_devEvMax (s : State) (c : Nat) (k : Core) : (s.setCore c k).devEvMax = s.devEvMax := rfl
@[simp] theorem setCore_plink (s : State) (c : Nat) (k : Core) : (s.setCore c k).plink = s.plink := rfl
@[simp] theorem setCore_clear (s : State) (c : Nat) (k : Core) : (s.setCore c k).clear = s.clear := rfl
@[simp] theorem setCore_chans (s : State) (c : Nat) (k : Core) : (s.setCore c k).chans = s.chans := rfl
@[simp] theorem setCore_rest (s : State) (c : Nat) (k : Core) : (s.setCore c k).rest = s.rest := rfl
@[simp] theorem setCore_reqs (s : State) (c : Nat) (k : Core) : (s.setCore c k).reqs = s.reqs := rfl
@[simp] theorem setCore_sessions (s : State) (c : Nat) (k : Core) : (s.setCore c k).sessions = s.sessions := rfl
@[simp] theorem setCore_nextSession (s : State) (c : Nat) (k : Core) : (s.setCore c k).nextSession = s.nextSession := rfl
@[simp] theorem setCore_resets (s : State) (c : Nat) (k : Core) : (s.setCore c k).resets = s.resets := rfl
@[simp] theorem setCore_rings (s : State) (c : Nat) (k : Core) : (s.setCore c k).rings = s.rings := rfl
@[simp] theorem setCore_eth (s : State) (c : Nat) (k : Core) : (s.setCore c k).eth = s.eth := rfl
@[simp] theorem setCore_pcie (s : State) (c : Nat) (k : Core) : (s.setCore c k).pcie = s.pcie := rfl
@[simp] theorem setCore_qm (s : State) (c : Nat) (k : Core) : (s.setCore c k).qm = s.qm := rfl
@[simp] theorem setCore_svc (s : State) (c : Nat) (k : Core) : (s.setCore c k).svc = s.svc := rfl
@[simp] theorem setCore_frz (s : State) (c : Nat) (k : Core) : (s.setCore c k).frz = s.frz := rfl
@[simp] theorem setCore_mgmt (s : State) (c : Nat) (k : Core) : (s.setCore c k).mgmt = s.mgmt := rfl
@[simp] theorem setCore_alarms (s : State) (c : Nat) (k : Core) : (s.setCore c k).alarms = s.alarms := rfl
@[simp] theorem setCore_window (s : State) (c : Nat) (k : Core) : (s.setCore c k).window = s.window := rfl
@[simp] theorem setCore_arm (s : State) (c : Nat) (k : Core) : (s.setCore c k).arm = s.arm := rfl
@[simp] theorem setCore_batt (s : State) (c : Nat) (k : Core) : (s.setCore c k).batt = s.batt := rfl
@[simp] theorem setCore_pat (s : State) (c : Nat) (k : Core) : (s.setCore c k).pat = s.pat := rfl
@[simp] theorem setCore_health (s : State) (c : Nat) (k : Core) : (s.setCore c k).health = s.health := rfl
@[simp] theorem setCore_eng (s : State) (c : Nat) (k : Core) : (s.setCore c k).eng = s.eng := rfl
@[simp] theorem setCore_ks (s : State) (c : Nat) (k : Core) : (s.setCore c k).ks = s.ks := rfl
@[simp] theorem setCore_gens (s : State) (c : Nat) (k : Core) : (s.setCore c k).gens = s.gens := rfl
@[simp] theorem setCore_noiseJitterBad (s : State) (c : Nat) (k : Core) : (s.setCore c k).noiseJitterBad = s.noiseJitterBad := rfl
@[simp] theorem setCore_noiseLatchBad (s : State) (c : Nat) (k : Core) : (s.setCore c k).noiseLatchBad = s.noiseLatchBad := rfl
@[simp] theorem setCore_life (s : State) (c : Nat) (k : Core) : (s.setCore c k).life = s.life := rfl
@[simp] theorem setCore_flash (s : State) (c : Nat) (k : Core) : (s.setCore c k).flash = s.flash := rfl
@[simp] theorem setCore_cards (s : State) (c : Nat) (k : Core) : (s.setCore c k).cards = s.cards := rfl
@[simp] theorem setCore_od (s : State) (c : Nat) (k : Core) : (s.setCore c k).od = s.od := rfl
@[simp] theorem setCore_odb (s : State) (c : Nat) (k : Core) : (s.setCore c k).odb = s.odb := rfl
@[simp] theorem setCore_ctr (s : State) (c : Nat) (k : Core) : (s.setCore c k).ctr = s.ctr := rfl
@[simp] theorem setCore_ovf (s : State) (c : Nat) (k : Core) : (s.setCore c k).ovf = s.ovf := rfl

-- setIntc
@[simp] theorem setIntc_pending (s : State) (n : Nat) (k : Intc) : (s.setIntc n k).pending = s.pending := rfl
@[simp] theorem setIntc_time (s : State) (n : Nat) (k : Intc) : (s.setIntc n k).time = s.time := rfl
@[simp] theorem setIntc_free (s : State) (n : Nat) (k : Intc) : (s.setIntc n k).free = s.free := rfl
@[simp] theorem setIntc_out (s : State) (n : Nat) (k : Intc) : (s.setIntc n k).out = s.out := rfl
@[simp] theorem setIntc_pins (s : State) (n : Nat) (k : Intc) : (s.setIntc n k).pins = s.pins := rfl
@[simp] theorem setIntc_cores (s : State) (n : Nat) (k : Intc) : (s.setIntc n k).cores = s.cores := rfl
@[simp] theorem setIntc_intc (s : State) (n : Nat) (k : Intc) : (s.setIntc n k).intc = tset {} s.intc n k := rfl
@[simp] theorem setIntc_devEv (s : State) (n : Nat) (k : Intc) : (s.setIntc n k).devEv = s.devEv := rfl
@[simp] theorem setIntc_acl (s : State) (n : Nat) (k : Intc) : (s.setIntc n k).acl = s.acl := rfl
@[simp] theorem setIntc_mpe (s : State) (n : Nat) (k : Intc) : (s.setIntc n k).mpe = s.mpe := rfl
@[simp] theorem setIntc_ddr (s : State) (n : Nat) (k : Intc) : (s.setIntc n k).ddr = s.ddr := rfl
@[simp] theorem setIntc_ecc (s : State) (n : Nat) (k : Intc) : (s.setIntc n k).ecc = s.ecc := rfl
@[simp] theorem setIntc_mem (s : State) (n : Nat) (k : Intc) : (s.setIntc n k).mem = s.mem := rfl
@[simp] theorem setIntc_dbg (s : State) (n : Nat) (k : Intc) : (s.setIntc n k).dbg = s.dbg := rfl
@[simp] theorem setIntc_lockup (s : State) (n : Nat) (k : Intc) : (s.setIntc n k).lockup = s.lockup := rfl
@[simp] theorem setIntc_supRestarting (s : State) (n : Nat) (k : Intc) : (s.setIntc n k).supRestarting = s.supRestarting := rfl
@[simp] theorem setIntc_devEvMax (s : State) (n : Nat) (k : Intc) : (s.setIntc n k).devEvMax = s.devEvMax := rfl
@[simp] theorem setIntc_plink (s : State) (n : Nat) (k : Intc) : (s.setIntc n k).plink = s.plink := rfl
@[simp] theorem setIntc_clear (s : State) (n : Nat) (k : Intc) : (s.setIntc n k).clear = s.clear := rfl
@[simp] theorem setIntc_chans (s : State) (n : Nat) (k : Intc) : (s.setIntc n k).chans = s.chans := rfl
@[simp] theorem setIntc_rest (s : State) (n : Nat) (k : Intc) : (s.setIntc n k).rest = s.rest := rfl
@[simp] theorem setIntc_reqs (s : State) (n : Nat) (k : Intc) : (s.setIntc n k).reqs = s.reqs := rfl
@[simp] theorem setIntc_sessions (s : State) (n : Nat) (k : Intc) : (s.setIntc n k).sessions = s.sessions := rfl
@[simp] theorem setIntc_nextSession (s : State) (n : Nat) (k : Intc) : (s.setIntc n k).nextSession = s.nextSession := rfl
@[simp] theorem setIntc_resets (s : State) (n : Nat) (k : Intc) : (s.setIntc n k).resets = s.resets := rfl
@[simp] theorem setIntc_rings (s : State) (n : Nat) (k : Intc) : (s.setIntc n k).rings = s.rings := rfl
@[simp] theorem setIntc_eth (s : State) (n : Nat) (k : Intc) : (s.setIntc n k).eth = s.eth := rfl
@[simp] theorem setIntc_pcie (s : State) (n : Nat) (k : Intc) : (s.setIntc n k).pcie = s.pcie := rfl
@[simp] theorem setIntc_qm (s : State) (n : Nat) (k : Intc) : (s.setIntc n k).qm = s.qm := rfl
@[simp] theorem setIntc_svc (s : State) (n : Nat) (k : Intc) : (s.setIntc n k).svc = s.svc := rfl
@[simp] theorem setIntc_frz (s : State) (n : Nat) (k : Intc) : (s.setIntc n k).frz = s.frz := rfl
@[simp] theorem setIntc_mgmt (s : State) (n : Nat) (k : Intc) : (s.setIntc n k).mgmt = s.mgmt := rfl
@[simp] theorem setIntc_alarms (s : State) (n : Nat) (k : Intc) : (s.setIntc n k).alarms = s.alarms := rfl
@[simp] theorem setIntc_window (s : State) (n : Nat) (k : Intc) : (s.setIntc n k).window = s.window := rfl
@[simp] theorem setIntc_arm (s : State) (n : Nat) (k : Intc) : (s.setIntc n k).arm = s.arm := rfl
@[simp] theorem setIntc_batt (s : State) (n : Nat) (k : Intc) : (s.setIntc n k).batt = s.batt := rfl
@[simp] theorem setIntc_pat (s : State) (n : Nat) (k : Intc) : (s.setIntc n k).pat = s.pat := rfl
@[simp] theorem setIntc_health (s : State) (n : Nat) (k : Intc) : (s.setIntc n k).health = s.health := rfl
@[simp] theorem setIntc_eng (s : State) (n : Nat) (k : Intc) : (s.setIntc n k).eng = s.eng := rfl
@[simp] theorem setIntc_ks (s : State) (n : Nat) (k : Intc) : (s.setIntc n k).ks = s.ks := rfl
@[simp] theorem setIntc_gens (s : State) (n : Nat) (k : Intc) : (s.setIntc n k).gens = s.gens := rfl
@[simp] theorem setIntc_noiseJitterBad (s : State) (n : Nat) (k : Intc) : (s.setIntc n k).noiseJitterBad = s.noiseJitterBad := rfl
@[simp] theorem setIntc_noiseLatchBad (s : State) (n : Nat) (k : Intc) : (s.setIntc n k).noiseLatchBad = s.noiseLatchBad := rfl
@[simp] theorem setIntc_life (s : State) (n : Nat) (k : Intc) : (s.setIntc n k).life = s.life := rfl
@[simp] theorem setIntc_flash (s : State) (n : Nat) (k : Intc) : (s.setIntc n k).flash = s.flash := rfl
@[simp] theorem setIntc_cards (s : State) (n : Nat) (k : Intc) : (s.setIntc n k).cards = s.cards := rfl
@[simp] theorem setIntc_od (s : State) (n : Nat) (k : Intc) : (s.setIntc n k).od = s.od := rfl
@[simp] theorem setIntc_odb (s : State) (n : Nat) (k : Intc) : (s.setIntc n k).odb = s.odb := rfl
@[simp] theorem setIntc_ctr (s : State) (n : Nat) (k : Intc) : (s.setIntc n k).ctr = s.ctr := rfl
@[simp] theorem setIntc_ovf (s : State) (n : Nat) (k : Intc) : (s.setIntc n k).ovf = s.ovf := rfl

-- setChan
@[simp] theorem setChan_pending (s : State) (n : Nat) (k : Channel) : (s.setChan n k).pending = s.pending := rfl
@[simp] theorem setChan_time (s : State) (n : Nat) (k : Channel) : (s.setChan n k).time = s.time := rfl
@[simp] theorem setChan_free (s : State) (n : Nat) (k : Channel) : (s.setChan n k).free = s.free := rfl
@[simp] theorem setChan_out (s : State) (n : Nat) (k : Channel) : (s.setChan n k).out = s.out := rfl
@[simp] theorem setChan_pins (s : State) (n : Nat) (k : Channel) : (s.setChan n k).pins = s.pins := rfl
@[simp] theorem setChan_cores (s : State) (n : Nat) (k : Channel) : (s.setChan n k).cores = s.cores := rfl
@[simp] theorem setChan_intc (s : State) (n : Nat) (k : Channel) : (s.setChan n k).intc = s.intc := rfl
@[simp] theorem setChan_devEv (s : State) (n : Nat) (k : Channel) : (s.setChan n k).devEv = s.devEv := rfl
@[simp] theorem setChan_acl (s : State) (n : Nat) (k : Channel) : (s.setChan n k).acl = s.acl := rfl
@[simp] theorem setChan_mpe (s : State) (n : Nat) (k : Channel) : (s.setChan n k).mpe = s.mpe := rfl
@[simp] theorem setChan_ddr (s : State) (n : Nat) (k : Channel) : (s.setChan n k).ddr = s.ddr := rfl
@[simp] theorem setChan_ecc (s : State) (n : Nat) (k : Channel) : (s.setChan n k).ecc = s.ecc := rfl
@[simp] theorem setChan_mem (s : State) (n : Nat) (k : Channel) : (s.setChan n k).mem = s.mem := rfl
@[simp] theorem setChan_dbg (s : State) (n : Nat) (k : Channel) : (s.setChan n k).dbg = s.dbg := rfl
@[simp] theorem setChan_lockup (s : State) (n : Nat) (k : Channel) : (s.setChan n k).lockup = s.lockup := rfl
@[simp] theorem setChan_supRestarting (s : State) (n : Nat) (k : Channel) : (s.setChan n k).supRestarting = s.supRestarting := rfl
@[simp] theorem setChan_devEvMax (s : State) (n : Nat) (k : Channel) : (s.setChan n k).devEvMax = s.devEvMax := rfl
@[simp] theorem setChan_plink (s : State) (n : Nat) (k : Channel) : (s.setChan n k).plink = s.plink := rfl
@[simp] theorem setChan_clear (s : State) (n : Nat) (k : Channel) : (s.setChan n k).clear = s.clear := rfl
@[simp] theorem setChan_chans (s : State) (n : Nat) (k : Channel) : (s.setChan n k).chans = tset {} s.chans n k := rfl
@[simp] theorem setChan_rest (s : State) (n : Nat) (k : Channel) : (s.setChan n k).rest = s.rest := rfl
@[simp] theorem setChan_reqs (s : State) (n : Nat) (k : Channel) : (s.setChan n k).reqs = s.reqs := rfl
@[simp] theorem setChan_sessions (s : State) (n : Nat) (k : Channel) : (s.setChan n k).sessions = s.sessions := rfl
@[simp] theorem setChan_nextSession (s : State) (n : Nat) (k : Channel) : (s.setChan n k).nextSession = s.nextSession := rfl
@[simp] theorem setChan_resets (s : State) (n : Nat) (k : Channel) : (s.setChan n k).resets = s.resets := rfl
@[simp] theorem setChan_rings (s : State) (n : Nat) (k : Channel) : (s.setChan n k).rings = s.rings := rfl
@[simp] theorem setChan_eth (s : State) (n : Nat) (k : Channel) : (s.setChan n k).eth = s.eth := rfl
@[simp] theorem setChan_pcie (s : State) (n : Nat) (k : Channel) : (s.setChan n k).pcie = s.pcie := rfl
@[simp] theorem setChan_qm (s : State) (n : Nat) (k : Channel) : (s.setChan n k).qm = s.qm := rfl
@[simp] theorem setChan_svc (s : State) (n : Nat) (k : Channel) : (s.setChan n k).svc = s.svc := rfl
@[simp] theorem setChan_frz (s : State) (n : Nat) (k : Channel) : (s.setChan n k).frz = s.frz := rfl
@[simp] theorem setChan_mgmt (s : State) (n : Nat) (k : Channel) : (s.setChan n k).mgmt = s.mgmt := rfl
@[simp] theorem setChan_alarms (s : State) (n : Nat) (k : Channel) : (s.setChan n k).alarms = s.alarms := rfl
@[simp] theorem setChan_window (s : State) (n : Nat) (k : Channel) : (s.setChan n k).window = s.window := rfl
@[simp] theorem setChan_arm (s : State) (n : Nat) (k : Channel) : (s.setChan n k).arm = s.arm := rfl
@[simp] theorem setChan_batt (s : State) (n : Nat) (k : Channel) : (s.setChan n k).batt = s.batt := rfl
@[simp] theorem setChan_pat (s : State) (n : Nat) (k : Channel) : (s.setChan n k).pat = s.pat := rfl
@[simp] theorem setChan_health (s : State) (n : Nat) (k : Channel) : (s.setChan n k).health = s.health := rfl
@[simp] theorem setChan_eng (s : State) (n : Nat) (k : Channel) : (s.setChan n k).eng = s.eng := rfl
@[simp] theorem setChan_ks (s : State) (n : Nat) (k : Channel) : (s.setChan n k).ks = s.ks := rfl
@[simp] theorem setChan_gens (s : State) (n : Nat) (k : Channel) : (s.setChan n k).gens = s.gens := rfl
@[simp] theorem setChan_noiseJitterBad (s : State) (n : Nat) (k : Channel) : (s.setChan n k).noiseJitterBad = s.noiseJitterBad := rfl
@[simp] theorem setChan_noiseLatchBad (s : State) (n : Nat) (k : Channel) : (s.setChan n k).noiseLatchBad = s.noiseLatchBad := rfl
@[simp] theorem setChan_life (s : State) (n : Nat) (k : Channel) : (s.setChan n k).life = s.life := rfl
@[simp] theorem setChan_flash (s : State) (n : Nat) (k : Channel) : (s.setChan n k).flash = s.flash := rfl
@[simp] theorem setChan_cards (s : State) (n : Nat) (k : Channel) : (s.setChan n k).cards = s.cards := rfl
@[simp] theorem setChan_od (s : State) (n : Nat) (k : Channel) : (s.setChan n k).od = s.od := rfl
@[simp] theorem setChan_odb (s : State) (n : Nat) (k : Channel) : (s.setChan n k).odb = s.odb := rfl
@[simp] theorem setChan_ctr (s : State) (n : Nat) (k : Channel) : (s.setChan n k).ctr = s.ctr := rfl
@[simp] theorem setChan_ovf (s : State) (n : Nat) (k : Channel) : (s.setChan n k).ovf = s.ovf := rfl

-- setReq
@[simp] theorem setReq_pending (s : State) (r : Nat) (k : Request) : (s.setReq r k).pending = s.pending := rfl
@[simp] theorem setReq_time (s : State) (r : Nat) (k : Request) : (s.setReq r k).time = s.time := rfl
@[simp] theorem setReq_free (s : State) (r : Nat) (k : Request) : (s.setReq r k).free = s.free := rfl
@[simp] theorem setReq_out (s : State) (r : Nat) (k : Request) : (s.setReq r k).out = s.out := rfl
@[simp] theorem setReq_pins (s : State) (r : Nat) (k : Request) : (s.setReq r k).pins = s.pins := rfl
@[simp] theorem setReq_cores (s : State) (r : Nat) (k : Request) : (s.setReq r k).cores = s.cores := rfl
@[simp] theorem setReq_intc (s : State) (r : Nat) (k : Request) : (s.setReq r k).intc = s.intc := rfl
@[simp] theorem setReq_devEv (s : State) (r : Nat) (k : Request) : (s.setReq r k).devEv = s.devEv := rfl
@[simp] theorem setReq_acl (s : State) (r : Nat) (k : Request) : (s.setReq r k).acl = s.acl := rfl
@[simp] theorem setReq_mpe (s : State) (r : Nat) (k : Request) : (s.setReq r k).mpe = s.mpe := rfl
@[simp] theorem setReq_ddr (s : State) (r : Nat) (k : Request) : (s.setReq r k).ddr = s.ddr := rfl
@[simp] theorem setReq_ecc (s : State) (r : Nat) (k : Request) : (s.setReq r k).ecc = s.ecc := rfl
@[simp] theorem setReq_mem (s : State) (r : Nat) (k : Request) : (s.setReq r k).mem = s.mem := rfl
@[simp] theorem setReq_dbg (s : State) (r : Nat) (k : Request) : (s.setReq r k).dbg = s.dbg := rfl
@[simp] theorem setReq_lockup (s : State) (r : Nat) (k : Request) : (s.setReq r k).lockup = s.lockup := rfl
@[simp] theorem setReq_supRestarting (s : State) (r : Nat) (k : Request) : (s.setReq r k).supRestarting = s.supRestarting := rfl
@[simp] theorem setReq_devEvMax (s : State) (r : Nat) (k : Request) : (s.setReq r k).devEvMax = s.devEvMax := rfl
@[simp] theorem setReq_plink (s : State) (r : Nat) (k : Request) : (s.setReq r k).plink = s.plink := rfl
@[simp] theorem setReq_clear (s : State) (r : Nat) (k : Request) : (s.setReq r k).clear = s.clear := rfl
@[simp] theorem setReq_chans (s : State) (r : Nat) (k : Request) : (s.setReq r k).chans = s.chans := rfl
@[simp] theorem setReq_rest (s : State) (r : Nat) (k : Request) : (s.setReq r k).rest = s.rest := rfl
@[simp] theorem setReq_reqs (s : State) (r : Nat) (k : Request) : (s.setReq r k).reqs = tput s.reqs r k := rfl
@[simp] theorem setReq_sessions (s : State) (r : Nat) (k : Request) : (s.setReq r k).sessions = s.sessions := rfl
@[simp] theorem setReq_nextSession (s : State) (r : Nat) (k : Request) : (s.setReq r k).nextSession = s.nextSession := rfl
@[simp] theorem setReq_resets (s : State) (r : Nat) (k : Request) : (s.setReq r k).resets = s.resets := rfl
@[simp] theorem setReq_rings (s : State) (r : Nat) (k : Request) : (s.setReq r k).rings = s.rings := rfl
@[simp] theorem setReq_eth (s : State) (r : Nat) (k : Request) : (s.setReq r k).eth = s.eth := rfl
@[simp] theorem setReq_pcie (s : State) (r : Nat) (k : Request) : (s.setReq r k).pcie = s.pcie := rfl
@[simp] theorem setReq_qm (s : State) (r : Nat) (k : Request) : (s.setReq r k).qm = s.qm := rfl
@[simp] theorem setReq_svc (s : State) (r : Nat) (k : Request) : (s.setReq r k).svc = s.svc := rfl
@[simp] theorem setReq_frz (s : State) (r : Nat) (k : Request) : (s.setReq r k).frz = s.frz := rfl
@[simp] theorem setReq_mgmt (s : State) (r : Nat) (k : Request) : (s.setReq r k).mgmt = s.mgmt := rfl
@[simp] theorem setReq_alarms (s : State) (r : Nat) (k : Request) : (s.setReq r k).alarms = s.alarms := rfl
@[simp] theorem setReq_window (s : State) (r : Nat) (k : Request) : (s.setReq r k).window = s.window := rfl
@[simp] theorem setReq_arm (s : State) (r : Nat) (k : Request) : (s.setReq r k).arm = s.arm := rfl
@[simp] theorem setReq_batt (s : State) (r : Nat) (k : Request) : (s.setReq r k).batt = s.batt := rfl
@[simp] theorem setReq_pat (s : State) (r : Nat) (k : Request) : (s.setReq r k).pat = s.pat := rfl
@[simp] theorem setReq_health (s : State) (r : Nat) (k : Request) : (s.setReq r k).health = s.health := rfl
@[simp] theorem setReq_eng (s : State) (r : Nat) (k : Request) : (s.setReq r k).eng = s.eng := rfl
@[simp] theorem setReq_ks (s : State) (r : Nat) (k : Request) : (s.setReq r k).ks = s.ks := rfl
@[simp] theorem setReq_gens (s : State) (r : Nat) (k : Request) : (s.setReq r k).gens = s.gens := rfl
@[simp] theorem setReq_noiseJitterBad (s : State) (r : Nat) (k : Request) : (s.setReq r k).noiseJitterBad = s.noiseJitterBad := rfl
@[simp] theorem setReq_noiseLatchBad (s : State) (r : Nat) (k : Request) : (s.setReq r k).noiseLatchBad = s.noiseLatchBad := rfl
@[simp] theorem setReq_life (s : State) (r : Nat) (k : Request) : (s.setReq r k).life = s.life := rfl
@[simp] theorem setReq_flash (s : State) (r : Nat) (k : Request) : (s.setReq r k).flash = s.flash := rfl
@[simp] theorem setReq_cards (s : State) (r : Nat) (k : Request) : (s.setReq r k).cards = s.cards := rfl
@[simp] theorem setReq_od (s : State) (r : Nat) (k : Request) : (s.setReq r k).od = s.od := rfl
@[simp] theorem setReq_odb (s : State) (r : Nat) (k : Request) : (s.setReq r k).odb = s.odb := rfl
@[simp] theorem setReq_ctr (s : State) (r : Nat) (k : Request) : (s.setReq r k).ctr = s.ctr := rfl
@[simp] theorem setReq_ovf (s : State) (r : Nat) (k : Request) : (s.setReq r k).ovf = s.ovf := rfl

-- setPort
@[simp] theorem setPort_pending (s : State) (p : Nat) (k : EthPort) : (s.setPort p k).pending = s.pending := rfl
@[simp] theorem setPort_time (s : State) (p : Nat) (k : EthPort) : (s.setPort p k).time = s.time := rfl
@[simp] theorem setPort_free (s : State) (p : Nat) (k : EthPort) : (s.setPort p k).free = s.free := rfl
@[simp] theorem setPort_out (s : State) (p : Nat) (k : EthPort) : (s.setPort p k).out = s.out := rfl
@[simp] theorem setPort_pins (s : State) (p : Nat) (k : EthPort) : (s.setPort p k).pins = s.pins := rfl
@[simp] theorem setPort_cores (s : State) (p : Nat) (k : EthPort) : (s.setPort p k).cores = s.cores := rfl
@[simp] theorem setPort_intc (s : State) (p : Nat) (k : EthPort) : (s.setPort p k).intc = s.intc := rfl
@[simp] theorem setPort_devEv (s : State) (p : Nat) (k : EthPort) : (s.setPort p k).devEv = s.devEv := rfl
@[simp] theorem setPort_acl (s : State) (p : Nat) (k : EthPort) : (s.setPort p k).acl = s.acl := rfl
@[simp] theorem setPort_mpe (s : State) (p : Nat) (k : EthPort) : (s.setPort p k).mpe = s.mpe := rfl
@[simp] theorem setPort_ddr (s : State) (p : Nat) (k : EthPort) : (s.setPort p k).ddr = s.ddr := rfl
@[simp] theorem setPort_ecc (s : State) (p : Nat) (k : EthPort) : (s.setPort p k).ecc = s.ecc := rfl
@[simp] theorem setPort_mem (s : State) (p : Nat) (k : EthPort) : (s.setPort p k).mem = s.mem := rfl
@[simp] theorem setPort_dbg (s : State) (p : Nat) (k : EthPort) : (s.setPort p k).dbg = s.dbg := rfl
@[simp] theorem setPort_lockup (s : State) (p : Nat) (k : EthPort) : (s.setPort p k).lockup = s.lockup := rfl
@[simp] theorem setPort_supRestarting (s : State) (p : Nat) (k : EthPort) : (s.setPort p k).supRestarting = s.supRestarting := rfl
@[simp] theorem setPort_devEvMax (s : State) (p : Nat) (k : EthPort) : (s.setPort p k).devEvMax = s.devEvMax := rfl
@[simp] theorem setPort_plink (s : State) (p : Nat) (k : EthPort) : (s.setPort p k).plink = s.plink := rfl
@[simp] theorem setPort_clear (s : State) (p : Nat) (k : EthPort) : (s.setPort p k).clear = s.clear := rfl
@[simp] theorem setPort_chans (s : State) (p : Nat) (k : EthPort) : (s.setPort p k).chans = s.chans := rfl
@[simp] theorem setPort_rest (s : State) (p : Nat) (k : EthPort) : (s.setPort p k).rest = s.rest := rfl
@[simp] theorem setPort_reqs (s : State) (p : Nat) (k : EthPort) : (s.setPort p k).reqs = s.reqs := rfl
@[simp] theorem setPort_sessions (s : State) (p : Nat) (k : EthPort) : (s.setPort p k).sessions = s.sessions := rfl
@[simp] theorem setPort_nextSession (s : State) (p : Nat) (k : EthPort) : (s.setPort p k).nextSession = s.nextSession := rfl
@[simp] theorem setPort_resets (s : State) (p : Nat) (k : EthPort) : (s.setPort p k).resets = s.resets := rfl
@[simp] theorem setPort_rings (s : State) (p : Nat) (k : EthPort) : (s.setPort p k).rings = s.rings := rfl
@[simp] theorem setPort_eth (s : State) (p : Nat) (k : EthPort) : (s.setPort p k).eth = tset {} s.eth p k := rfl
@[simp] theorem setPort_pcie (s : State) (p : Nat) (k : EthPort) : (s.setPort p k).pcie = s.pcie := rfl
@[simp] theorem setPort_qm (s : State) (p : Nat) (k : EthPort) : (s.setPort p k).qm = s.qm := rfl
@[simp] theorem setPort_svc (s : State) (p : Nat) (k : EthPort) : (s.setPort p k).svc = s.svc := rfl
@[simp] theorem setPort_frz (s : State) (p : Nat) (k : EthPort) : (s.setPort p k).frz = s.frz := rfl
@[simp] theorem setPort_mgmt (s : State) (p : Nat) (k : EthPort) : (s.setPort p k).mgmt = s.mgmt := rfl
@[simp] theorem setPort_alarms (s : State) (p : Nat) (k : EthPort) : (s.setPort p k).alarms = s.alarms := rfl
@[simp] theorem setPort_window (s : State) (p : Nat) (k : EthPort) : (s.setPort p k).window = s.window := rfl
@[simp] theorem setPort_arm (s : State) (p : Nat) (k : EthPort) : (s.setPort p k).arm = s.arm := rfl
@[simp] theorem setPort_batt (s : State) (p : Nat) (k : EthPort) : (s.setPort p k).batt = s.batt := rfl
@[simp] theorem setPort_pat (s : State) (p : Nat) (k : EthPort) : (s.setPort p k).pat = s.pat := rfl
@[simp] theorem setPort_health (s : State) (p : Nat) (k : EthPort) : (s.setPort p k).health = s.health := rfl
@[simp] theorem setPort_eng (s : State) (p : Nat) (k : EthPort) : (s.setPort p k).eng = s.eng := rfl
@[simp] theorem setPort_ks (s : State) (p : Nat) (k : EthPort) : (s.setPort p k).ks = s.ks := rfl
@[simp] theorem setPort_gens (s : State) (p : Nat) (k : EthPort) : (s.setPort p k).gens = s.gens := rfl
@[simp] theorem setPort_noiseJitterBad (s : State) (p : Nat) (k : EthPort) : (s.setPort p k).noiseJitterBad = s.noiseJitterBad := rfl
@[simp] theorem setPort_noiseLatchBad (s : State) (p : Nat) (k : EthPort) : (s.setPort p k).noiseLatchBad = s.noiseLatchBad := rfl
@[simp] theorem setPort_life (s : State) (p : Nat) (k : EthPort) : (s.setPort p k).life = s.life := rfl
@[simp] theorem setPort_flash (s : State) (p : Nat) (k : EthPort) : (s.setPort p k).flash = s.flash := rfl
@[simp] theorem setPort_cards (s : State) (p : Nat) (k : EthPort) : (s.setPort p k).cards = s.cards := rfl
@[simp] theorem setPort_od (s : State) (p : Nat) (k : EthPort) : (s.setPort p k).od = s.od := rfl
@[simp] theorem setPort_odb (s : State) (p : Nat) (k : EthPort) : (s.setPort p k).odb = s.odb := rfl
@[simp] theorem setPort_ctr (s : State) (p : Nat) (k : EthPort) : (s.setPort p k).ctr = s.ctr := rfl
@[simp] theorem setPort_ovf (s : State) (p : Nat) (k : EthPort) : (s.setPort p k).ovf = s.ovf := rfl

-- setRing
@[simp] theorem setRing_pending (s : State) (f r : Nat) (k : Ring) : (s.setRing f r k).pending = s.pending := rfl
@[simp] theorem setRing_time (s : State) (f r : Nat) (k : Ring) : (s.setRing f r k).time = s.time := rfl
@[simp] theorem setRing_free (s : State) (f r : Nat) (k : Ring) : (s.setRing f r k).free = s.free := rfl
@[simp] theorem setRing_out (s : State) (f r : Nat) (k : Ring) : (s.setRing f r k).out = s.out := rfl
@[simp] theorem setRing_pins (s : State) (f r : Nat) (k : Ring) : (s.setRing f r k).pins = s.pins := rfl
@[simp] theorem setRing_cores (s : State) (f r : Nat) (k : Ring) : (s.setRing f r k).cores = s.cores := rfl
@[simp] theorem setRing_intc (s : State) (f r : Nat) (k : Ring) : (s.setRing f r k).intc = s.intc := rfl
@[simp] theorem setRing_devEv (s : State) (f r : Nat) (k : Ring) : (s.setRing f r k).devEv = s.devEv := rfl
@[simp] theorem setRing_acl (s : State) (f r : Nat) (k : Ring) : (s.setRing f r k).acl = s.acl := rfl
@[simp] theorem setRing_mpe (s : State) (f r : Nat) (k : Ring) : (s.setRing f r k).mpe = s.mpe := rfl
@[simp] theorem setRing_ddr (s : State) (f r : Nat) (k : Ring) : (s.setRing f r k).ddr = s.ddr := rfl
@[simp] theorem setRing_ecc (s : State) (f r : Nat) (k : Ring) : (s.setRing f r k).ecc = s.ecc := rfl
@[simp] theorem setRing_mem (s : State) (f r : Nat) (k : Ring) : (s.setRing f r k).mem = s.mem := rfl
@[simp] theorem setRing_dbg (s : State) (f r : Nat) (k : Ring) : (s.setRing f r k).dbg = s.dbg := rfl
@[simp] theorem setRing_lockup (s : State) (f r : Nat) (k : Ring) : (s.setRing f r k).lockup = s.lockup := rfl
@[simp] theorem setRing_supRestarting (s : State) (f r : Nat) (k : Ring) : (s.setRing f r k).supRestarting = s.supRestarting := rfl
@[simp] theorem setRing_devEvMax (s : State) (f r : Nat) (k : Ring) : (s.setRing f r k).devEvMax = s.devEvMax := rfl
@[simp] theorem setRing_plink (s : State) (f r : Nat) (k : Ring) : (s.setRing f r k).plink = s.plink := rfl
@[simp] theorem setRing_clear (s : State) (f r : Nat) (k : Ring) : (s.setRing f r k).clear = s.clear := rfl
@[simp] theorem setRing_chans (s : State) (f r : Nat) (k : Ring) : (s.setRing f r k).chans = s.chans := rfl
@[simp] theorem setRing_rest (s : State) (f r : Nat) (k : Ring) : (s.setRing f r k).rest = s.rest := rfl
@[simp] theorem setRing_reqs (s : State) (f r : Nat) (k : Ring) : (s.setRing f r k).reqs = s.reqs := rfl
@[simp] theorem setRing_sessions (s : State) (f r : Nat) (k : Ring) : (s.setRing f r k).sessions = s.sessions := rfl
@[simp] theorem setRing_nextSession (s : State) (f r : Nat) (k : Ring) : (s.setRing f r k).nextSession = s.nextSession := rfl
@[simp] theorem setRing_resets (s : State) (f r : Nat) (k : Ring) : (s.setRing f r k).resets = s.resets := rfl
@[simp] theorem setRing_rings (s : State) (f r : Nat) (k : Ring) : (s.setRing f r k).rings = tset {} s.rings (f * 256 + r) k := rfl
@[simp] theorem setRing_eth (s : State) (f r : Nat) (k : Ring) : (s.setRing f r k).eth = s.eth := rfl
@[simp] theorem setRing_pcie (s : State) (f r : Nat) (k : Ring) : (s.setRing f r k).pcie = s.pcie := rfl
@[simp] theorem setRing_qm (s : State) (f r : Nat) (k : Ring) : (s.setRing f r k).qm = s.qm := rfl
@[simp] theorem setRing_svc (s : State) (f r : Nat) (k : Ring) : (s.setRing f r k).svc = s.svc := rfl
@[simp] theorem setRing_frz (s : State) (f r : Nat) (k : Ring) : (s.setRing f r k).frz = s.frz := rfl
@[simp] theorem setRing_mgmt (s : State) (f r : Nat) (k : Ring) : (s.setRing f r k).mgmt = s.mgmt := rfl
@[simp] theorem setRing_alarms (s : State) (f r : Nat) (k : Ring) : (s.setRing f r k).alarms = s.alarms := rfl
@[simp] theorem setRing_window (s : State) (f r : Nat) (k : Ring) : (s.setRing f r k).window = s.window := rfl
@[simp] theorem setRing_arm (s : State) (f r : Nat) (k : Ring) : (s.setRing f r k).arm = s.arm := rfl
@[simp] theorem setRing_batt (s : State) (f r : Nat) (k : Ring) : (s.setRing f r k).batt = s.batt := rfl
@[simp] theorem setRing_pat (s : State) (f r : Nat) (k : Ring) : (s.setRing f r k).pat = s.pat := rfl
@[simp] theorem setRing_health (s : State) (f r : Nat) (k : Ring) : (s.setRing f r k).health = s.health := rfl
@[simp] theorem setRing_eng (s : State) (f r : Nat) (k : Ring) : (s.setRing f r k).eng = s.eng := rfl
@[simp] theorem setRing_ks (s : State) (f r : Nat) (k : Ring) : (s.setRing f r k).ks = s.ks := rfl
@[simp] theorem setRing_gens (s : State) (f r : Nat) (k : Ring) : (s.setRing f r k).gens = s.gens := rfl
@[simp] theorem setRing_noiseJitterBad (s : State) (f r : Nat) (k : Ring) : (s.setRing f r k).noiseJitterBad = s.noiseJitterBad := rfl
@[simp] theorem setRing_noiseLatchBad (s : State) (f r : Nat) (k : Ring) : (s.setRing f r k).noiseLatchBad = s.noiseLatchBad := rfl
@[simp] theorem setRing_life (s : State) (f r : Nat) (k : Ring) : (s.setRing f r k).life = s.life := rfl
@[simp] theorem setRing_flash (s : State) (f r : Nat) (k : Ring) : (s.setRing f r k).flash = s.flash := rfl
@[simp] theorem setRing_cards (s : State) (f r : Nat) (k : Ring) : (s.setRing f r k).cards = s.cards := rfl
@[simp] theorem setRing_od (s : State) (f r : Nat) (k : Ring) : (s.setRing f r k).od = s.od := rfl
@[simp] theorem setRing_odb (s : State) (f r : Nat) (k : Ring) : (s.setRing f r k).odb = s.odb := rfl
@[simp] theorem setRing_ctr (s : State) (f r : Nat) (k : Ring) : (s.setRing f r k).ctr = s.ctr := rfl
@[simp] theorem setRing_ovf (s : State) (f r : Nat) (k : Ring) : (s.setRing f r k).ovf = s.ovf := rfl

-- setAlarm
@[simp] theorem setAlarm_pending (s : State) (a : Nat) (k : Alarm) : (s.setAlarm a k).pending = s.pending := rfl
@[simp] theorem setAlarm_time (s : State) (a : Nat) (k : Alarm) : (s.setAlarm a k).time = s.time := rfl
@[simp] theorem setAlarm_free (s : State) (a : Nat) (k : Alarm) : (s.setAlarm a k).free = s.free := rfl
@[simp] theorem setAlarm_out (s : State) (a : Nat) (k : Alarm) : (s.setAlarm a k).out = s.out := rfl
@[simp] theorem setAlarm_pins (s : State) (a : Nat) (k : Alarm) : (s.setAlarm a k).pins = s.pins := rfl
@[simp] theorem setAlarm_cores (s : State) (a : Nat) (k : Alarm) : (s.setAlarm a k).cores = s.cores := rfl
@[simp] theorem setAlarm_intc (s : State) (a : Nat) (k : Alarm) : (s.setAlarm a k).intc = s.intc := rfl
@[simp] theorem setAlarm_devEv (s : State) (a : Nat) (k : Alarm) : (s.setAlarm a k).devEv = s.devEv := rfl
@[simp] theorem setAlarm_acl (s : State) (a : Nat) (k : Alarm) : (s.setAlarm a k).acl = s.acl := rfl
@[simp] theorem setAlarm_mpe (s : State) (a : Nat) (k : Alarm) : (s.setAlarm a k).mpe = s.mpe := rfl
@[simp] theorem setAlarm_ddr (s : State) (a : Nat) (k : Alarm) : (s.setAlarm a k).ddr = s.ddr := rfl
@[simp] theorem setAlarm_ecc (s : State) (a : Nat) (k : Alarm) : (s.setAlarm a k).ecc = s.ecc := rfl
@[simp] theorem setAlarm_mem (s : State) (a : Nat) (k : Alarm) : (s.setAlarm a k).mem = s.mem := rfl
@[simp] theorem setAlarm_dbg (s : State) (a : Nat) (k : Alarm) : (s.setAlarm a k).dbg = s.dbg := rfl
@[simp] theorem setAlarm_lockup (s : State) (a : Nat) (k : Alarm) : (s.setAlarm a k).lockup = s.lockup := rfl
@[simp] theorem setAlarm_supRestarting (s : State) (a : Nat) (k : Alarm) : (s.setAlarm a k).supRestarting = s.supRestarting := rfl
@[simp] theorem setAlarm_devEvMax (s : State) (a : Nat) (k : Alarm) : (s.setAlarm a k).devEvMax = s.devEvMax := rfl
@[simp] theorem setAlarm_plink (s : State) (a : Nat) (k : Alarm) : (s.setAlarm a k).plink = s.plink := rfl
@[simp] theorem setAlarm_clear (s : State) (a : Nat) (k : Alarm) : (s.setAlarm a k).clear = s.clear := rfl
@[simp] theorem setAlarm_chans (s : State) (a : Nat) (k : Alarm) : (s.setAlarm a k).chans = s.chans := rfl
@[simp] theorem setAlarm_rest (s : State) (a : Nat) (k : Alarm) : (s.setAlarm a k).rest = s.rest := rfl
@[simp] theorem setAlarm_reqs (s : State) (a : Nat) (k : Alarm) : (s.setAlarm a k).reqs = s.reqs := rfl
@[simp] theorem setAlarm_sessions (s : State) (a : Nat) (k : Alarm) : (s.setAlarm a k).sessions = s.sessions := rfl
@[simp] theorem setAlarm_nextSession (s : State) (a : Nat) (k : Alarm) : (s.setAlarm a k).nextSession = s.nextSession := rfl
@[simp] theorem setAlarm_resets (s : State) (a : Nat) (k : Alarm) : (s.setAlarm a k).resets = s.resets := rfl
@[simp] theorem setAlarm_rings (s : State) (a : Nat) (k : Alarm) : (s.setAlarm a k).rings = s.rings := rfl
@[simp] theorem setAlarm_eth (s : State) (a : Nat) (k : Alarm) : (s.setAlarm a k).eth = s.eth := rfl
@[simp] theorem setAlarm_pcie (s : State) (a : Nat) (k : Alarm) : (s.setAlarm a k).pcie = s.pcie := rfl
@[simp] theorem setAlarm_qm (s : State) (a : Nat) (k : Alarm) : (s.setAlarm a k).qm = s.qm := rfl
@[simp] theorem setAlarm_svc (s : State) (a : Nat) (k : Alarm) : (s.setAlarm a k).svc = s.svc := rfl
@[simp] theorem setAlarm_frz (s : State) (a : Nat) (k : Alarm) : (s.setAlarm a k).frz = s.frz := rfl
@[simp] theorem setAlarm_mgmt (s : State) (a : Nat) (k : Alarm) : (s.setAlarm a k).mgmt = s.mgmt := rfl
@[simp] theorem setAlarm_alarms (s : State) (a : Nat) (k : Alarm) : (s.setAlarm a k).alarms = tset {} s.alarms a k := rfl
@[simp] theorem setAlarm_window (s : State) (a : Nat) (k : Alarm) : (s.setAlarm a k).window = s.window := rfl
@[simp] theorem setAlarm_arm (s : State) (a : Nat) (k : Alarm) : (s.setAlarm a k).arm = s.arm := rfl
@[simp] theorem setAlarm_batt (s : State) (a : Nat) (k : Alarm) : (s.setAlarm a k).batt = s.batt := rfl
@[simp] theorem setAlarm_pat (s : State) (a : Nat) (k : Alarm) : (s.setAlarm a k).pat = s.pat := rfl
@[simp] theorem setAlarm_health (s : State) (a : Nat) (k : Alarm) : (s.setAlarm a k).health = s.health := rfl
@[simp] theorem setAlarm_eng (s : State) (a : Nat) (k : Alarm) : (s.setAlarm a k).eng = s.eng := rfl
@[simp] theorem setAlarm_ks (s : State) (a : Nat) (k : Alarm) : (s.setAlarm a k).ks = s.ks := rfl
@[simp] theorem setAlarm_gens (s : State) (a : Nat) (k : Alarm) : (s.setAlarm a k).gens = s.gens := rfl
@[simp] theorem setAlarm_noiseJitterBad (s : State) (a : Nat) (k : Alarm) : (s.setAlarm a k).noiseJitterBad = s.noiseJitterBad := rfl
@[simp] theorem setAlarm_noiseLatchBad (s : State) (a : Nat) (k : Alarm) : (s.setAlarm a k).noiseLatchBad = s.noiseLatchBad := rfl
@[simp] theorem setAlarm_life (s : State) (a : Nat) (k : Alarm) : (s.setAlarm a k).life = s.life := rfl
@[simp] theorem setAlarm_flash (s : State) (a : Nat) (k : Alarm) : (s.setAlarm a k).flash = s.flash := rfl
@[simp] theorem setAlarm_cards (s : State) (a : Nat) (k : Alarm) : (s.setAlarm a k).cards = s.cards := rfl
@[simp] theorem setAlarm_od (s : State) (a : Nat) (k : Alarm) : (s.setAlarm a k).od = s.od := rfl
@[simp] theorem setAlarm_odb (s : State) (a : Nat) (k : Alarm) : (s.setAlarm a k).odb = s.odb := rfl
@[simp] theorem setAlarm_ctr (s : State) (a : Nat) (k : Alarm) : (s.setAlarm a k).ctr = s.ctr := rfl
@[simp] theorem setAlarm_ovf (s : State) (a : Nat) (k : Alarm) : (s.setAlarm a k).ovf = s.ovf := rfl

-- modEng
@[simp] theorem modEng_pending (s : State) (n : Nat) (f : Engines → Engines) : (s.modEng n f).pending = s.pending := rfl
@[simp] theorem modEng_time (s : State) (n : Nat) (f : Engines → Engines) : (s.modEng n f).time = s.time := rfl
@[simp] theorem modEng_free (s : State) (n : Nat) (f : Engines → Engines) : (s.modEng n f).free = s.free := rfl
@[simp] theorem modEng_out (s : State) (n : Nat) (f : Engines → Engines) : (s.modEng n f).out = s.out := rfl
@[simp] theorem modEng_pins (s : State) (n : Nat) (f : Engines → Engines) : (s.modEng n f).pins = s.pins := rfl
@[simp] theorem modEng_cores (s : State) (n : Nat) (f : Engines → Engines) : (s.modEng n f).cores = s.cores := rfl
@[simp] theorem modEng_intc (s : State) (n : Nat) (f : Engines → Engines) : (s.modEng n f).intc = s.intc := rfl
@[simp] theorem modEng_devEv (s : State) (n : Nat) (f : Engines → Engines) : (s.modEng n f).devEv = s.devEv := rfl
@[simp] theorem modEng_acl (s : State) (n : Nat) (f : Engines → Engines) : (s.modEng n f).acl = s.acl := rfl
@[simp] theorem modEng_mpe (s : State) (n : Nat) (f : Engines → Engines) : (s.modEng n f).mpe = s.mpe := rfl
@[simp] theorem modEng_ddr (s : State) (n : Nat) (f : Engines → Engines) : (s.modEng n f).ddr = s.ddr := rfl
@[simp] theorem modEng_ecc (s : State) (n : Nat) (f : Engines → Engines) : (s.modEng n f).ecc = s.ecc := rfl
@[simp] theorem modEng_mem (s : State) (n : Nat) (f : Engines → Engines) : (s.modEng n f).mem = s.mem := rfl
@[simp] theorem modEng_dbg (s : State) (n : Nat) (f : Engines → Engines) : (s.modEng n f).dbg = s.dbg := rfl
@[simp] theorem modEng_lockup (s : State) (n : Nat) (f : Engines → Engines) : (s.modEng n f).lockup = s.lockup := rfl
@[simp] theorem modEng_supRestarting (s : State) (n : Nat) (f : Engines → Engines) : (s.modEng n f).supRestarting = s.supRestarting := rfl
@[simp] theorem modEng_devEvMax (s : State) (n : Nat) (f : Engines → Engines) : (s.modEng n f).devEvMax = s.devEvMax := rfl
@[simp] theorem modEng_plink (s : State) (n : Nat) (f : Engines → Engines) : (s.modEng n f).plink = s.plink := rfl
@[simp] theorem modEng_clear (s : State) (n : Nat) (f : Engines → Engines) : (s.modEng n f).clear = s.clear := rfl
@[simp] theorem modEng_chans (s : State) (n : Nat) (f : Engines → Engines) : (s.modEng n f).chans = s.chans := rfl
@[simp] theorem modEng_rest (s : State) (n : Nat) (f : Engines → Engines) : (s.modEng n f).rest = s.rest := rfl
@[simp] theorem modEng_reqs (s : State) (n : Nat) (f : Engines → Engines) : (s.modEng n f).reqs = s.reqs := rfl
@[simp] theorem modEng_sessions (s : State) (n : Nat) (f : Engines → Engines) : (s.modEng n f).sessions = s.sessions := rfl
@[simp] theorem modEng_nextSession (s : State) (n : Nat) (f : Engines → Engines) : (s.modEng n f).nextSession = s.nextSession := rfl
@[simp] theorem modEng_resets (s : State) (n : Nat) (f : Engines → Engines) : (s.modEng n f).resets = s.resets := rfl
@[simp] theorem modEng_rings (s : State) (n : Nat) (f : Engines → Engines) : (s.modEng n f).rings = s.rings := rfl
@[simp] theorem modEng_eth (s : State) (n : Nat) (f : Engines → Engines) : (s.modEng n f).eth = s.eth := rfl
@[simp] theorem modEng_pcie (s : State) (n : Nat) (f : Engines → Engines) : (s.modEng n f).pcie = s.pcie := rfl
@[simp] theorem modEng_qm (s : State) (n : Nat) (f : Engines → Engines) : (s.modEng n f).qm = s.qm := rfl
@[simp] theorem modEng_svc (s : State) (n : Nat) (f : Engines → Engines) : (s.modEng n f).svc = s.svc := rfl
@[simp] theorem modEng_frz (s : State) (n : Nat) (f : Engines → Engines) : (s.modEng n f).frz = s.frz := rfl
@[simp] theorem modEng_mgmt (s : State) (n : Nat) (f : Engines → Engines) : (s.modEng n f).mgmt = s.mgmt := rfl
@[simp] theorem modEng_alarms (s : State) (n : Nat) (f : Engines → Engines) : (s.modEng n f).alarms = s.alarms := rfl
@[simp] theorem modEng_window (s : State) (n : Nat) (f : Engines → Engines) : (s.modEng n f).window = s.window := rfl
@[simp] theorem modEng_arm (s : State) (n : Nat) (f : Engines → Engines) : (s.modEng n f).arm = s.arm := rfl
@[simp] theorem modEng_batt (s : State) (n : Nat) (f : Engines → Engines) : (s.modEng n f).batt = s.batt := rfl
@[simp] theorem modEng_pat (s : State) (n : Nat) (f : Engines → Engines) : (s.modEng n f).pat = s.pat := rfl
@[simp] theorem modEng_health (s : State) (n : Nat) (f : Engines → Engines) : (s.modEng n f).health = s.health := rfl
@[simp] theorem modEng_eng (s : State) (n : Nat) (f : Engines → Engines) : (s.modEng n f).eng = tset {} s.eng n (f (s.engOf n)) := rfl
@[simp] theorem modEng_ks (s : State) (n : Nat) (f : Engines → Engines) : (s.modEng n f).ks = s.ks := rfl
@[simp] theorem modEng_gens (s : State) (n : Nat) (f : Engines → Engines) : (s.modEng n f).gens = s.gens := rfl
@[simp] theorem modEng_noiseJitterBad (s : State) (n : Nat) (f : Engines → Engines) : (s.modEng n f).noiseJitterBad = s.noiseJitterBad := rfl
@[simp] theorem modEng_noiseLatchBad (s : State) (n : Nat) (f : Engines → Engines) : (s.modEng n f).noiseLatchBad = s.noiseLatchBad := rfl
@[simp] theorem modEng_life (s : State) (n : Nat) (f : Engines → Engines) : (s.modEng n f).life = s.life := rfl
@[simp] theorem modEng_flash (s : State) (n : Nat) (f : Engines → Engines) : (s.modEng n f).flash = s.flash := rfl
@[simp] theorem modEng_cards (s : State) (n : Nat) (f : Engines → Engines) : (s.modEng n f).cards = s.cards := rfl
@[simp] theorem modEng_od (s : State) (n : Nat) (f : Engines → Engines) : (s.modEng n f).od = s.od := rfl
@[simp] theorem modEng_odb (s : State) (n : Nat) (f : Engines → Engines) : (s.modEng n f).odb = s.odb := rfl
@[simp] theorem modEng_ctr (s : State) (n : Nat) (f : Engines → Engines) : (s.modEng n f).ctr = s.ctr := rfl
@[simp] theorem modEng_ovf (s : State) (n : Nat) (f : Engines → Engines) : (s.modEng n f).ovf = s.ovf := rfl

-- setOd
@[simp] theorem setOd_pending (s : State) (index sub : Nat) (v : Int) : (s.setOd index sub v).pending = s.pending := rfl
@[simp] theorem setOd_time (s : State) (index sub : Nat) (v : Int) : (s.setOd index sub v).time = s.time := rfl
@[simp] theorem setOd_free (s : State) (index sub : Nat) (v : Int) : (s.setOd index sub v).free = s.free := rfl
@[simp] theorem setOd_out (s : State) (index sub : Nat) (v : Int) : (s.setOd index sub v).out = s.out := rfl
@[simp] theorem setOd_pins (s : State) (index sub : Nat) (v : Int) : (s.setOd index sub v).pins = s.pins := rfl
@[simp] theorem setOd_cores (s : State) (index sub : Nat) (v : Int) : (s.setOd index sub v).cores = s.cores := rfl
@[simp] theorem setOd_intc (s : State) (index sub : Nat) (v : Int) : (s.setOd index sub v).intc = s.intc := rfl
@[simp] theorem setOd_devEv (s : State) (index sub : Nat) (v : Int) : (s.setOd index sub v).devEv = s.devEv := rfl
@[simp] theorem setOd_acl (s : State) (index sub : Nat) (v : Int) : (s.setOd index sub v).acl = s.acl := rfl
@[simp] theorem setOd_mpe (s : State) (index sub : Nat) (v : Int) : (s.setOd index sub v).mpe = s.mpe := rfl
@[simp] theorem setOd_ddr (s : State) (index sub : Nat) (v : Int) : (s.setOd index sub v).ddr = s.ddr := rfl
@[simp] theorem setOd_ecc (s : State) (index sub : Nat) (v : Int) : (s.setOd index sub v).ecc = s.ecc := rfl
@[simp] theorem setOd_mem (s : State) (index sub : Nat) (v : Int) : (s.setOd index sub v).mem = s.mem := rfl
@[simp] theorem setOd_dbg (s : State) (index sub : Nat) (v : Int) : (s.setOd index sub v).dbg = s.dbg := rfl
@[simp] theorem setOd_lockup (s : State) (index sub : Nat) (v : Int) : (s.setOd index sub v).lockup = s.lockup := rfl
@[simp] theorem setOd_supRestarting (s : State) (index sub : Nat) (v : Int) : (s.setOd index sub v).supRestarting = s.supRestarting := rfl
@[simp] theorem setOd_devEvMax (s : State) (index sub : Nat) (v : Int) : (s.setOd index sub v).devEvMax = s.devEvMax := rfl
@[simp] theorem setOd_plink (s : State) (index sub : Nat) (v : Int) : (s.setOd index sub v).plink = s.plink := rfl
@[simp] theorem setOd_clear (s : State) (index sub : Nat) (v : Int) : (s.setOd index sub v).clear = s.clear := rfl
@[simp] theorem setOd_chans (s : State) (index sub : Nat) (v : Int) : (s.setOd index sub v).chans = s.chans := rfl
@[simp] theorem setOd_rest (s : State) (index sub : Nat) (v : Int) : (s.setOd index sub v).rest = s.rest := rfl
@[simp] theorem setOd_reqs (s : State) (index sub : Nat) (v : Int) : (s.setOd index sub v).reqs = s.reqs := rfl
@[simp] theorem setOd_sessions (s : State) (index sub : Nat) (v : Int) : (s.setOd index sub v).sessions = s.sessions := rfl
@[simp] theorem setOd_nextSession (s : State) (index sub : Nat) (v : Int) : (s.setOd index sub v).nextSession = s.nextSession := rfl
@[simp] theorem setOd_resets (s : State) (index sub : Nat) (v : Int) : (s.setOd index sub v).resets = s.resets := rfl
@[simp] theorem setOd_rings (s : State) (index sub : Nat) (v : Int) : (s.setOd index sub v).rings = s.rings := rfl
@[simp] theorem setOd_eth (s : State) (index sub : Nat) (v : Int) : (s.setOd index sub v).eth = s.eth := rfl
@[simp] theorem setOd_pcie (s : State) (index sub : Nat) (v : Int) : (s.setOd index sub v).pcie = s.pcie := rfl
@[simp] theorem setOd_qm (s : State) (index sub : Nat) (v : Int) : (s.setOd index sub v).qm = s.qm := rfl
@[simp] theorem setOd_svc (s : State) (index sub : Nat) (v : Int) : (s.setOd index sub v).svc = s.svc := rfl
@[simp] theorem setOd_frz (s : State) (index sub : Nat) (v : Int) : (s.setOd index sub v).frz = s.frz := rfl
@[simp] theorem setOd_mgmt (s : State) (index sub : Nat) (v : Int) : (s.setOd index sub v).mgmt = s.mgmt := rfl
@[simp] theorem setOd_alarms (s : State) (index sub : Nat) (v : Int) : (s.setOd index sub v).alarms = s.alarms := rfl
@[simp] theorem setOd_window (s : State) (index sub : Nat) (v : Int) : (s.setOd index sub v).window = s.window := rfl
@[simp] theorem setOd_arm (s : State) (index sub : Nat) (v : Int) : (s.setOd index sub v).arm = s.arm := rfl
@[simp] theorem setOd_batt (s : State) (index sub : Nat) (v : Int) : (s.setOd index sub v).batt = s.batt := rfl
@[simp] theorem setOd_pat (s : State) (index sub : Nat) (v : Int) : (s.setOd index sub v).pat = s.pat := rfl
@[simp] theorem setOd_health (s : State) (index sub : Nat) (v : Int) : (s.setOd index sub v).health = s.health := rfl
@[simp] theorem setOd_eng (s : State) (index sub : Nat) (v : Int) : (s.setOd index sub v).eng = s.eng := rfl
@[simp] theorem setOd_ks (s : State) (index sub : Nat) (v : Int) : (s.setOd index sub v).ks = s.ks := rfl
@[simp] theorem setOd_gens (s : State) (index sub : Nat) (v : Int) : (s.setOd index sub v).gens = s.gens := rfl
@[simp] theorem setOd_noiseJitterBad (s : State) (index sub : Nat) (v : Int) : (s.setOd index sub v).noiseJitterBad = s.noiseJitterBad := rfl
@[simp] theorem setOd_noiseLatchBad (s : State) (index sub : Nat) (v : Int) : (s.setOd index sub v).noiseLatchBad = s.noiseLatchBad := rfl
@[simp] theorem setOd_life (s : State) (index sub : Nat) (v : Int) : (s.setOd index sub v).life = s.life := rfl
@[simp] theorem setOd_flash (s : State) (index sub : Nat) (v : Int) : (s.setOd index sub v).flash = s.flash := rfl
@[simp] theorem setOd_cards (s : State) (index sub : Nat) (v : Int) : (s.setOd index sub v).cards = s.cards := rfl
@[simp] theorem setOd_od (s : State) (index sub : Nat) (v : Int) : (s.setOd index sub v).od = tset (odDefault (odKey index sub)) s.od (odKey index sub) v := rfl
@[simp] theorem setOd_odb (s : State) (index sub : Nat) (v : Int) : (s.setOd index sub v).odb = s.odb := rfl
@[simp] theorem setOd_ctr (s : State) (index sub : Nat) (v : Int) : (s.setOd index sub v).ctr = s.ctr := rfl
@[simp] theorem setOd_ovf (s : State) (index sub : Nat) (v : Int) : (s.setOd index sub v).ovf = s.ovf := rfl

-- setOctets
@[simp] theorem setOctets_pending (s : State) (index sub : Nat) (v : Bytes) : (s.setOctets index sub v).pending = s.pending := rfl
@[simp] theorem setOctets_time (s : State) (index sub : Nat) (v : Bytes) : (s.setOctets index sub v).time = s.time := rfl
@[simp] theorem setOctets_free (s : State) (index sub : Nat) (v : Bytes) : (s.setOctets index sub v).free = s.free := rfl
@[simp] theorem setOctets_out (s : State) (index sub : Nat) (v : Bytes) : (s.setOctets index sub v).out = s.out := rfl
@[simp] theorem setOctets_pins (s : State) (index sub : Nat) (v : Bytes) : (s.setOctets index sub v).pins = s.pins := rfl
@[simp] theorem setOctets_cores (s : State) (index sub : Nat) (v : Bytes) : (s.setOctets index sub v).cores = s.cores := rfl
@[simp] theorem setOctets_intc (s : State) (index sub : Nat) (v : Bytes) : (s.setOctets index sub v).intc = s.intc := rfl
@[simp] theorem setOctets_devEv (s : State) (index sub : Nat) (v : Bytes) : (s.setOctets index sub v).devEv = s.devEv := rfl
@[simp] theorem setOctets_acl (s : State) (index sub : Nat) (v : Bytes) : (s.setOctets index sub v).acl = s.acl := rfl
@[simp] theorem setOctets_mpe (s : State) (index sub : Nat) (v : Bytes) : (s.setOctets index sub v).mpe = s.mpe := rfl
@[simp] theorem setOctets_ddr (s : State) (index sub : Nat) (v : Bytes) : (s.setOctets index sub v).ddr = s.ddr := rfl
@[simp] theorem setOctets_ecc (s : State) (index sub : Nat) (v : Bytes) : (s.setOctets index sub v).ecc = s.ecc := rfl
@[simp] theorem setOctets_mem (s : State) (index sub : Nat) (v : Bytes) : (s.setOctets index sub v).mem = s.mem := rfl
@[simp] theorem setOctets_dbg (s : State) (index sub : Nat) (v : Bytes) : (s.setOctets index sub v).dbg = s.dbg := rfl
@[simp] theorem setOctets_lockup (s : State) (index sub : Nat) (v : Bytes) : (s.setOctets index sub v).lockup = s.lockup := rfl
@[simp] theorem setOctets_supRestarting (s : State) (index sub : Nat) (v : Bytes) : (s.setOctets index sub v).supRestarting = s.supRestarting := rfl
@[simp] theorem setOctets_devEvMax (s : State) (index sub : Nat) (v : Bytes) : (s.setOctets index sub v).devEvMax = s.devEvMax := rfl
@[simp] theorem setOctets_plink (s : State) (index sub : Nat) (v : Bytes) : (s.setOctets index sub v).plink = s.plink := rfl
@[simp] theorem setOctets_clear (s : State) (index sub : Nat) (v : Bytes) : (s.setOctets index sub v).clear = s.clear := rfl
@[simp] theorem setOctets_chans (s : State) (index sub : Nat) (v : Bytes) : (s.setOctets index sub v).chans = s.chans := rfl
@[simp] theorem setOctets_rest (s : State) (index sub : Nat) (v : Bytes) : (s.setOctets index sub v).rest = s.rest := rfl
@[simp] theorem setOctets_reqs (s : State) (index sub : Nat) (v : Bytes) : (s.setOctets index sub v).reqs = s.reqs := rfl
@[simp] theorem setOctets_sessions (s : State) (index sub : Nat) (v : Bytes) : (s.setOctets index sub v).sessions = s.sessions := rfl
@[simp] theorem setOctets_nextSession (s : State) (index sub : Nat) (v : Bytes) : (s.setOctets index sub v).nextSession = s.nextSession := rfl
@[simp] theorem setOctets_resets (s : State) (index sub : Nat) (v : Bytes) : (s.setOctets index sub v).resets = s.resets := rfl
@[simp] theorem setOctets_rings (s : State) (index sub : Nat) (v : Bytes) : (s.setOctets index sub v).rings = s.rings := rfl
@[simp] theorem setOctets_eth (s : State) (index sub : Nat) (v : Bytes) : (s.setOctets index sub v).eth = s.eth := rfl
@[simp] theorem setOctets_pcie (s : State) (index sub : Nat) (v : Bytes) : (s.setOctets index sub v).pcie = s.pcie := rfl
@[simp] theorem setOctets_qm (s : State) (index sub : Nat) (v : Bytes) : (s.setOctets index sub v).qm = s.qm := rfl
@[simp] theorem setOctets_svc (s : State) (index sub : Nat) (v : Bytes) : (s.setOctets index sub v).svc = s.svc := rfl
@[simp] theorem setOctets_frz (s : State) (index sub : Nat) (v : Bytes) : (s.setOctets index sub v).frz = s.frz := rfl
@[simp] theorem setOctets_mgmt (s : State) (index sub : Nat) (v : Bytes) : (s.setOctets index sub v).mgmt = s.mgmt := rfl
@[simp] theorem setOctets_alarms (s : State) (index sub : Nat) (v : Bytes) : (s.setOctets index sub v).alarms = s.alarms := rfl
@[simp] theorem setOctets_window (s : State) (index sub : Nat) (v : Bytes) : (s.setOctets index sub v).window = s.window := rfl
@[simp] theorem setOctets_arm (s : State) (index sub : Nat) (v : Bytes) : (s.setOctets index sub v).arm = s.arm := rfl
@[simp] theorem setOctets_batt (s : State) (index sub : Nat) (v : Bytes) : (s.setOctets index sub v).batt = s.batt := rfl
@[simp] theorem setOctets_pat (s : State) (index sub : Nat) (v : Bytes) : (s.setOctets index sub v).pat = s.pat := rfl
@[simp] theorem setOctets_health (s : State) (index sub : Nat) (v : Bytes) : (s.setOctets index sub v).health = s.health := rfl
@[simp] theorem setOctets_eng (s : State) (index sub : Nat) (v : Bytes) : (s.setOctets index sub v).eng = s.eng := rfl
@[simp] theorem setOctets_ks (s : State) (index sub : Nat) (v : Bytes) : (s.setOctets index sub v).ks = s.ks := rfl
@[simp] theorem setOctets_gens (s : State) (index sub : Nat) (v : Bytes) : (s.setOctets index sub v).gens = s.gens := rfl
@[simp] theorem setOctets_noiseJitterBad (s : State) (index sub : Nat) (v : Bytes) : (s.setOctets index sub v).noiseJitterBad = s.noiseJitterBad := rfl
@[simp] theorem setOctets_noiseLatchBad (s : State) (index sub : Nat) (v : Bytes) : (s.setOctets index sub v).noiseLatchBad = s.noiseLatchBad := rfl
@[simp] theorem setOctets_life (s : State) (index sub : Nat) (v : Bytes) : (s.setOctets index sub v).life = s.life := rfl
@[simp] theorem setOctets_flash (s : State) (index sub : Nat) (v : Bytes) : (s.setOctets index sub v).flash = s.flash := rfl
@[simp] theorem setOctets_cards (s : State) (index sub : Nat) (v : Bytes) : (s.setOctets index sub v).cards = s.cards := rfl
@[simp] theorem setOctets_od (s : State) (index sub : Nat) (v : Bytes) : (s.setOctets index sub v).od = s.od := rfl
@[simp] theorem setOctets_odb (s : State) (index sub : Nat) (v : Bytes) : (s.setOctets index sub v).odb = tset [] s.odb (odKey index sub) v := rfl
@[simp] theorem setOctets_ctr (s : State) (index sub : Nat) (v : Bytes) : (s.setOctets index sub v).ctr = s.ctr := rfl
@[simp] theorem setOctets_ovf (s : State) (index sub : Nat) (v : Bytes) : (s.setOctets index sub v).ovf = s.ovf := rfl

-- setSlot
@[simp] theorem setSlot_pending (s : State) (i : Nat) (k : Slot) : (s.setSlot i k).pending = s.pending := rfl
@[simp] theorem setSlot_time (s : State) (i : Nat) (k : Slot) : (s.setSlot i k).time = s.time := rfl
@[simp] theorem setSlot_free (s : State) (i : Nat) (k : Slot) : (s.setSlot i k).free = s.free := rfl
@[simp] theorem setSlot_out (s : State) (i : Nat) (k : Slot) : (s.setSlot i k).out = s.out := rfl
@[simp] theorem setSlot_pins (s : State) (i : Nat) (k : Slot) : (s.setSlot i k).pins = s.pins := rfl
@[simp] theorem setSlot_cores (s : State) (i : Nat) (k : Slot) : (s.setSlot i k).cores = s.cores := rfl
@[simp] theorem setSlot_intc (s : State) (i : Nat) (k : Slot) : (s.setSlot i k).intc = s.intc := rfl
@[simp] theorem setSlot_devEv (s : State) (i : Nat) (k : Slot) : (s.setSlot i k).devEv = s.devEv := rfl
@[simp] theorem setSlot_acl (s : State) (i : Nat) (k : Slot) : (s.setSlot i k).acl = s.acl := rfl
@[simp] theorem setSlot_mpe (s : State) (i : Nat) (k : Slot) : (s.setSlot i k).mpe = s.mpe := rfl
@[simp] theorem setSlot_ddr (s : State) (i : Nat) (k : Slot) : (s.setSlot i k).ddr = s.ddr := rfl
@[simp] theorem setSlot_ecc (s : State) (i : Nat) (k : Slot) : (s.setSlot i k).ecc = s.ecc := rfl
@[simp] theorem setSlot_mem (s : State) (i : Nat) (k : Slot) : (s.setSlot i k).mem = s.mem := rfl
@[simp] theorem setSlot_dbg (s : State) (i : Nat) (k : Slot) : (s.setSlot i k).dbg = s.dbg := rfl
@[simp] theorem setSlot_lockup (s : State) (i : Nat) (k : Slot) : (s.setSlot i k).lockup = s.lockup := rfl
@[simp] theorem setSlot_supRestarting (s : State) (i : Nat) (k : Slot) : (s.setSlot i k).supRestarting = s.supRestarting := rfl
@[simp] theorem setSlot_devEvMax (s : State) (i : Nat) (k : Slot) : (s.setSlot i k).devEvMax = s.devEvMax := rfl
@[simp] theorem setSlot_plink (s : State) (i : Nat) (k : Slot) : (s.setSlot i k).plink = s.plink := rfl
@[simp] theorem setSlot_clear (s : State) (i : Nat) (k : Slot) : (s.setSlot i k).clear = s.clear := rfl
@[simp] theorem setSlot_chans (s : State) (i : Nat) (k : Slot) : (s.setSlot i k).chans = s.chans := rfl
@[simp] theorem setSlot_rest (s : State) (i : Nat) (k : Slot) : (s.setSlot i k).rest = s.rest := rfl
@[simp] theorem setSlot_reqs (s : State) (i : Nat) (k : Slot) : (s.setSlot i k).reqs = s.reqs := rfl
@[simp] theorem setSlot_sessions (s : State) (i : Nat) (k : Slot) : (s.setSlot i k).sessions = s.sessions := rfl
@[simp] theorem setSlot_nextSession (s : State) (i : Nat) (k : Slot) : (s.setSlot i k).nextSession = s.nextSession := rfl
@[simp] theorem setSlot_resets (s : State) (i : Nat) (k : Slot) : (s.setSlot i k).resets = s.resets := rfl
@[simp] theorem setSlot_rings (s : State) (i : Nat) (k : Slot) : (s.setSlot i k).rings = s.rings := rfl
@[simp] theorem setSlot_eth (s : State) (i : Nat) (k : Slot) : (s.setSlot i k).eth = s.eth := rfl
@[simp] theorem setSlot_pcie (s : State) (i : Nat) (k : Slot) : (s.setSlot i k).pcie = s.pcie := rfl
@[simp] theorem setSlot_qm (s : State) (i : Nat) (k : Slot) : (s.setSlot i k).qm = s.qm := rfl
@[simp] theorem setSlot_svc (s : State) (i : Nat) (k : Slot) : (s.setSlot i k).svc = s.svc := rfl
@[simp] theorem setSlot_frz (s : State) (i : Nat) (k : Slot) : (s.setSlot i k).frz = s.frz := rfl
@[simp] theorem setSlot_mgmt (s : State) (i : Nat) (k : Slot) : (s.setSlot i k).mgmt = s.mgmt := rfl
@[simp] theorem setSlot_alarms (s : State) (i : Nat) (k : Slot) : (s.setSlot i k).alarms = s.alarms := rfl
@[simp] theorem setSlot_window (s : State) (i : Nat) (k : Slot) : (s.setSlot i k).window = s.window := rfl
@[simp] theorem setSlot_arm (s : State) (i : Nat) (k : Slot) : (s.setSlot i k).arm = s.arm := rfl
@[simp] theorem setSlot_batt (s : State) (i : Nat) (k : Slot) : (s.setSlot i k).batt = s.batt := rfl
@[simp] theorem setSlot_pat (s : State) (i : Nat) (k : Slot) : (s.setSlot i k).pat = s.pat := rfl
@[simp] theorem setSlot_health (s : State) (i : Nat) (k : Slot) : (s.setSlot i k).health = s.health := rfl
@[simp] theorem setSlot_eng (s : State) (i : Nat) (k : Slot) : (s.setSlot i k).eng = s.eng := rfl
@[simp] theorem setSlot_ks (s : State) (i : Nat) (k : Slot) : (s.setSlot i k).ks = { s.ks with slots := tset {} s.ks.slots i k } := rfl
@[simp] theorem setSlot_gens (s : State) (i : Nat) (k : Slot) : (s.setSlot i k).gens = s.gens := rfl
@[simp] theorem setSlot_noiseJitterBad (s : State) (i : Nat) (k : Slot) : (s.setSlot i k).noiseJitterBad = s.noiseJitterBad := rfl
@[simp] theorem setSlot_noiseLatchBad (s : State) (i : Nat) (k : Slot) : (s.setSlot i k).noiseLatchBad = s.noiseLatchBad := rfl
@[simp] theorem setSlot_life (s : State) (i : Nat) (k : Slot) : (s.setSlot i k).life = s.life := rfl
@[simp] theorem setSlot_flash (s : State) (i : Nat) (k : Slot) : (s.setSlot i k).flash = s.flash := rfl
@[simp] theorem setSlot_cards (s : State) (i : Nat) (k : Slot) : (s.setSlot i k).cards = s.cards := rfl
@[simp] theorem setSlot_od (s : State) (i : Nat) (k : Slot) : (s.setSlot i k).od = s.od := rfl
@[simp] theorem setSlot_odb (s : State) (i : Nat) (k : Slot) : (s.setSlot i k).odb = s.odb := rfl
@[simp] theorem setSlot_ctr (s : State) (i : Nat) (k : Slot) : (s.setSlot i k).ctr = s.ctr := rfl
@[simp] theorem setSlot_ovf (s : State) (i : Nat) (k : Slot) : (s.setSlot i k).ovf = s.ovf := rfl

-- setTenant
@[simp] theorem setTenant_pending (s : State) (n : Nat) (k : Tenant) : (s.setTenant n k).pending = s.pending := rfl
@[simp] theorem setTenant_time (s : State) (n : Nat) (k : Tenant) : (s.setTenant n k).time = s.time := rfl
@[simp] theorem setTenant_free (s : State) (n : Nat) (k : Tenant) : (s.setTenant n k).free = s.free := rfl
@[simp] theorem setTenant_out (s : State) (n : Nat) (k : Tenant) : (s.setTenant n k).out = s.out := rfl
@[simp] theorem setTenant_pins (s : State) (n : Nat) (k : Tenant) : (s.setTenant n k).pins = s.pins := rfl
@[simp] theorem setTenant_cores (s : State) (n : Nat) (k : Tenant) : (s.setTenant n k).cores = s.cores := rfl
@[simp] theorem setTenant_intc (s : State) (n : Nat) (k : Tenant) : (s.setTenant n k).intc = s.intc := rfl
@[simp] theorem setTenant_devEv (s : State) (n : Nat) (k : Tenant) : (s.setTenant n k).devEv = s.devEv := rfl
@[simp] theorem setTenant_acl (s : State) (n : Nat) (k : Tenant) : (s.setTenant n k).acl = s.acl := rfl
@[simp] theorem setTenant_mpe (s : State) (n : Nat) (k : Tenant) : (s.setTenant n k).mpe = s.mpe := rfl
@[simp] theorem setTenant_ddr (s : State) (n : Nat) (k : Tenant) : (s.setTenant n k).ddr = s.ddr := rfl
@[simp] theorem setTenant_ecc (s : State) (n : Nat) (k : Tenant) : (s.setTenant n k).ecc = s.ecc := rfl
@[simp] theorem setTenant_mem (s : State) (n : Nat) (k : Tenant) : (s.setTenant n k).mem = s.mem := rfl
@[simp] theorem setTenant_dbg (s : State) (n : Nat) (k : Tenant) : (s.setTenant n k).dbg = s.dbg := rfl
@[simp] theorem setTenant_lockup (s : State) (n : Nat) (k : Tenant) : (s.setTenant n k).lockup = s.lockup := rfl
@[simp] theorem setTenant_supRestarting (s : State) (n : Nat) (k : Tenant) : (s.setTenant n k).supRestarting = s.supRestarting := rfl
@[simp] theorem setTenant_devEvMax (s : State) (n : Nat) (k : Tenant) : (s.setTenant n k).devEvMax = s.devEvMax := rfl
@[simp] theorem setTenant_plink (s : State) (n : Nat) (k : Tenant) : (s.setTenant n k).plink = s.plink := rfl
@[simp] theorem setTenant_clear (s : State) (n : Nat) (k : Tenant) : (s.setTenant n k).clear = s.clear := rfl
@[simp] theorem setTenant_chans (s : State) (n : Nat) (k : Tenant) : (s.setTenant n k).chans = s.chans := rfl
@[simp] theorem setTenant_rest (s : State) (n : Nat) (k : Tenant) : (s.setTenant n k).rest = s.rest := rfl
@[simp] theorem setTenant_reqs (s : State) (n : Nat) (k : Tenant) : (s.setTenant n k).reqs = s.reqs := rfl
@[simp] theorem setTenant_sessions (s : State) (n : Nat) (k : Tenant) : (s.setTenant n k).sessions = s.sessions := rfl
@[simp] theorem setTenant_nextSession (s : State) (n : Nat) (k : Tenant) : (s.setTenant n k).nextSession = s.nextSession := rfl
@[simp] theorem setTenant_resets (s : State) (n : Nat) (k : Tenant) : (s.setTenant n k).resets = s.resets := rfl
@[simp] theorem setTenant_rings (s : State) (n : Nat) (k : Tenant) : (s.setTenant n k).rings = s.rings := rfl
@[simp] theorem setTenant_eth (s : State) (n : Nat) (k : Tenant) : (s.setTenant n k).eth = s.eth := rfl
@[simp] theorem setTenant_pcie (s : State) (n : Nat) (k : Tenant) : (s.setTenant n k).pcie = s.pcie := rfl
@[simp] theorem setTenant_qm (s : State) (n : Nat) (k : Tenant) : (s.setTenant n k).qm = s.qm := rfl
@[simp] theorem setTenant_svc (s : State) (n : Nat) (k : Tenant) : (s.setTenant n k).svc = s.svc := rfl
@[simp] theorem setTenant_frz (s : State) (n : Nat) (k : Tenant) : (s.setTenant n k).frz = s.frz := rfl
@[simp] theorem setTenant_mgmt (s : State) (n : Nat) (k : Tenant) : (s.setTenant n k).mgmt = s.mgmt := rfl
@[simp] theorem setTenant_alarms (s : State) (n : Nat) (k : Tenant) : (s.setTenant n k).alarms = s.alarms := rfl
@[simp] theorem setTenant_window (s : State) (n : Nat) (k : Tenant) : (s.setTenant n k).window = s.window := rfl
@[simp] theorem setTenant_arm (s : State) (n : Nat) (k : Tenant) : (s.setTenant n k).arm = s.arm := rfl
@[simp] theorem setTenant_batt (s : State) (n : Nat) (k : Tenant) : (s.setTenant n k).batt = s.batt := rfl
@[simp] theorem setTenant_pat (s : State) (n : Nat) (k : Tenant) : (s.setTenant n k).pat = s.pat := rfl
@[simp] theorem setTenant_health (s : State) (n : Nat) (k : Tenant) : (s.setTenant n k).health = s.health := rfl
@[simp] theorem setTenant_eng (s : State) (n : Nat) (k : Tenant) : (s.setTenant n k).eng = s.eng := rfl
@[simp] theorem setTenant_ks (s : State) (n : Nat) (k : Tenant) : (s.setTenant n k).ks = { s.ks with tenants := tset {} s.ks.tenants n k } := rfl
@[simp] theorem setTenant_gens (s : State) (n : Nat) (k : Tenant) : (s.setTenant n k).gens = s.gens := rfl
@[simp] theorem setTenant_noiseJitterBad (s : State) (n : Nat) (k : Tenant) : (s.setTenant n k).noiseJitterBad = s.noiseJitterBad := rfl
@[simp] theorem setTenant_noiseLatchBad (s : State) (n : Nat) (k : Tenant) : (s.setTenant n k).noiseLatchBad = s.noiseLatchBad := rfl
@[simp] theorem setTenant_life (s : State) (n : Nat) (k : Tenant) : (s.setTenant n k).life = s.life := rfl
@[simp] theorem setTenant_flash (s : State) (n : Nat) (k : Tenant) : (s.setTenant n k).flash = s.flash := rfl
@[simp] theorem setTenant_cards (s : State) (n : Nat) (k : Tenant) : (s.setTenant n k).cards = s.cards := rfl
@[simp] theorem setTenant_od (s : State) (n : Nat) (k : Tenant) : (s.setTenant n k).od = s.od := rfl
@[simp] theorem setTenant_odb (s : State) (n : Nat) (k : Tenant) : (s.setTenant n k).odb = s.odb := rfl
@[simp] theorem setTenant_ctr (s : State) (n : Nat) (k : Tenant) : (s.setTenant n k).ctr = s.ctr := rfl
@[simp] theorem setTenant_ovf (s : State) (n : Nat) (k : Tenant) : (s.setTenant n k).ovf = s.ovf := rfl

-- setQueue
@[simp] theorem setQueue_pending (s : State) (q : Nat) (k : Queue) : (s.setQueue q k).pending = s.pending := rfl
@[simp] theorem setQueue_time (s : State) (q : Nat) (k : Queue) : (s.setQueue q k).time = s.time := rfl
@[simp] theorem setQueue_free (s : State) (q : Nat) (k : Queue) : (s.setQueue q k).free = s.free := rfl
@[simp] theorem setQueue_out (s : State) (q : Nat) (k : Queue) : (s.setQueue q k).out = s.out := rfl
@[simp] theorem setQueue_pins (s : State) (q : Nat) (k : Queue) : (s.setQueue q k).pins = s.pins := rfl
@[simp] theorem setQueue_cores (s : State) (q : Nat) (k : Queue) : (s.setQueue q k).cores = s.cores := rfl
@[simp] theorem setQueue_intc (s : State) (q : Nat) (k : Queue) : (s.setQueue q k).intc = s.intc := rfl
@[simp] theorem setQueue_devEv (s : State) (q : Nat) (k : Queue) : (s.setQueue q k).devEv = s.devEv := rfl
@[simp] theorem setQueue_acl (s : State) (q : Nat) (k : Queue) : (s.setQueue q k).acl = s.acl := rfl
@[simp] theorem setQueue_mpe (s : State) (q : Nat) (k : Queue) : (s.setQueue q k).mpe = s.mpe := rfl
@[simp] theorem setQueue_ddr (s : State) (q : Nat) (k : Queue) : (s.setQueue q k).ddr = s.ddr := rfl
@[simp] theorem setQueue_ecc (s : State) (q : Nat) (k : Queue) : (s.setQueue q k).ecc = s.ecc := rfl
@[simp] theorem setQueue_mem (s : State) (q : Nat) (k : Queue) : (s.setQueue q k).mem = s.mem := rfl
@[simp] theorem setQueue_dbg (s : State) (q : Nat) (k : Queue) : (s.setQueue q k).dbg = s.dbg := rfl
@[simp] theorem setQueue_lockup (s : State) (q : Nat) (k : Queue) : (s.setQueue q k).lockup = s.lockup := rfl
@[simp] theorem setQueue_supRestarting (s : State) (q : Nat) (k : Queue) : (s.setQueue q k).supRestarting = s.supRestarting := rfl
@[simp] theorem setQueue_devEvMax (s : State) (q : Nat) (k : Queue) : (s.setQueue q k).devEvMax = s.devEvMax := rfl
@[simp] theorem setQueue_plink (s : State) (q : Nat) (k : Queue) : (s.setQueue q k).plink = s.plink := rfl
@[simp] theorem setQueue_clear (s : State) (q : Nat) (k : Queue) : (s.setQueue q k).clear = s.clear := rfl
@[simp] theorem setQueue_chans (s : State) (q : Nat) (k : Queue) : (s.setQueue q k).chans = s.chans := rfl
@[simp] theorem setQueue_rest (s : State) (q : Nat) (k : Queue) : (s.setQueue q k).rest = s.rest := rfl
@[simp] theorem setQueue_reqs (s : State) (q : Nat) (k : Queue) : (s.setQueue q k).reqs = s.reqs := rfl
@[simp] theorem setQueue_sessions (s : State) (q : Nat) (k : Queue) : (s.setQueue q k).sessions = s.sessions := rfl
@[simp] theorem setQueue_nextSession (s : State) (q : Nat) (k : Queue) : (s.setQueue q k).nextSession = s.nextSession := rfl
@[simp] theorem setQueue_resets (s : State) (q : Nat) (k : Queue) : (s.setQueue q k).resets = s.resets := rfl
@[simp] theorem setQueue_rings (s : State) (q : Nat) (k : Queue) : (s.setQueue q k).rings = s.rings := rfl
@[simp] theorem setQueue_eth (s : State) (q : Nat) (k : Queue) : (s.setQueue q k).eth = s.eth := rfl
@[simp] theorem setQueue_pcie (s : State) (q : Nat) (k : Queue) : (s.setQueue q k).pcie = s.pcie := rfl
@[simp] theorem setQueue_qm (s : State) (q : Nat) (k : Queue) : (s.setQueue q k).qm = { s.qm with queues := tset {} s.qm.queues q k } := rfl
@[simp] theorem setQueue_svc (s : State) (q : Nat) (k : Queue) : (s.setQueue q k).svc = s.svc := rfl
@[simp] theorem setQueue_frz (s : State) (q : Nat) (k : Queue) : (s.setQueue q k).frz = s.frz := rfl
@[simp] theorem setQueue_mgmt (s : State) (q : Nat) (k : Queue) : (s.setQueue q k).mgmt = s.mgmt := rfl
@[simp] theorem setQueue_alarms (s : State) (q : Nat) (k : Queue) : (s.setQueue q k).alarms = s.alarms := rfl
@[simp] theorem setQueue_window (s : State) (q : Nat) (k : Queue) : (s.setQueue q k).window = s.window := rfl
@[simp] theorem setQueue_arm (s : State) (q : Nat) (k : Queue) : (s.setQueue q k).arm = s.arm := rfl
@[simp] theorem setQueue_batt (s : State) (q : Nat) (k : Queue) : (s.setQueue q k).batt = s.batt := rfl
@[simp] theorem setQueue_pat (s : State) (q : Nat) (k : Queue) : (s.setQueue q k).pat = s.pat := rfl
@[simp] theorem setQueue_health (s : State) (q : Nat) (k : Queue) : (s.setQueue q k).health = s.health := rfl
@[simp] theorem setQueue_eng (s : State) (q : Nat) (k : Queue) : (s.setQueue q k).eng = s.eng := rfl
@[simp] theorem setQueue_ks (s : State) (q : Nat) (k : Queue) : (s.setQueue q k).ks = s.ks := rfl
@[simp] theorem setQueue_gens (s : State) (q : Nat) (k : Queue) : (s.setQueue q k).gens = s.gens := rfl
@[simp] theorem setQueue_noiseJitterBad (s : State) (q : Nat) (k : Queue) : (s.setQueue q k).noiseJitterBad = s.noiseJitterBad := rfl
@[simp] theorem setQueue_noiseLatchBad (s : State) (q : Nat) (k : Queue) : (s.setQueue q k).noiseLatchBad = s.noiseLatchBad := rfl
@[simp] theorem setQueue_life (s : State) (q : Nat) (k : Queue) : (s.setQueue q k).life = s.life := rfl
@[simp] theorem setQueue_flash (s : State) (q : Nat) (k : Queue) : (s.setQueue q k).flash = s.flash := rfl
@[simp] theorem setQueue_cards (s : State) (q : Nat) (k : Queue) : (s.setQueue q k).cards = s.cards := rfl
@[simp] theorem setQueue_od (s : State) (q : Nat) (k : Queue) : (s.setQueue q k).od = s.od := rfl
@[simp] theorem setQueue_odb (s : State) (q : Nat) (k : Queue) : (s.setQueue q k).odb = s.odb := rfl
@[simp] theorem setQueue_ctr (s : State) (q : Nat) (k : Queue) : (s.setQueue q k).ctr = s.ctr := rfl
@[simp] theorem setQueue_ovf (s : State) (q : Nat) (k : Queue) : (s.setQueue q k).ovf = s.ovf := rfl

-- Units read back.
@[simp] theorem core_setCore_same (s : State) (n : Nat) (k : Core) : (s.setCore n k).core n = k := tget_tset_same _ _ _ _
theorem core_setCore_other (s : State) {n j : Nat} (k : Core) (h : j ≠ n) : (s.setCore n k).core j = s.core j :=
  tget_tset_other _ _ _ h
@[simp] theorem intcOf_setIntc_same (s : State) (n : Nat) (k : Intc) : (s.setIntc n k).intcOf n = k := tget_tset_same _ _ _ _
theorem intcOf_setIntc_other (s : State) {n j : Nat} (k : Intc) (h : j ≠ n) : (s.setIntc n k).intcOf j = s.intcOf j :=
  tget_tset_other _ _ _ h
@[simp] theorem chan_setChan_same (s : State) (n : Nat) (k : Channel) : (s.setChan n k).chan n = k := tget_tset_same _ _ _ _
theorem chan_setChan_other (s : State) {n j : Nat} (k : Channel) (h : j ≠ n) : (s.setChan n k).chan j = s.chan j :=
  tget_tset_other _ _ _ h
@[simp] theorem port_setPort_same (s : State) (n : Nat) (k : EthPort) : (s.setPort n k).port n = k := tget_tset_same _ _ _ _
theorem port_setPort_other (s : State) {n j : Nat} (k : EthPort) (h : j ≠ n) : (s.setPort n k).port j = s.port j :=
  tget_tset_other _ _ _ h
@[simp] theorem alarm_setAlarm_same (s : State) (n : Nat) (k : Alarm) : (s.setAlarm n k).alarm n = k := tget_tset_same _ _ _ _
theorem alarm_setAlarm_other (s : State) {n j : Nat} (k : Alarm) (h : j ≠ n) : (s.setAlarm n k).alarm j = s.alarm j :=
  tget_tset_other _ _ _ h
@[simp] theorem slot_setSlot_same (s : State) (n : Nat) (k : Slot) : (s.setSlot n k).slot n = k := tget_tset_same _ _ _ _
theorem slot_setSlot_other (s : State) {n j : Nat} (k : Slot) (h : j ≠ n) : (s.setSlot n k).slot j = s.slot j :=
  tget_tset_other _ _ _ h
@[simp] theorem tenant_setTenant_same (s : State) (n : Nat) (k : Tenant) : (s.setTenant n k).tenant n = k := tget_tset_same _ _ _ _
theorem tenant_setTenant_other (s : State) {n j : Nat} (k : Tenant) (h : j ≠ n) : (s.setTenant n k).tenant j = s.tenant j :=
  tget_tset_other _ _ _ h
@[simp] theorem queue_setQueue_same (s : State) (n : Nat) (k : Queue) : (s.setQueue n k).queue n = k := tget_tset_same _ _ _ _
theorem queue_setQueue_other (s : State) {n j : Nat} (k : Queue) (h : j ≠ n) : (s.setQueue n k).queue j = s.queue j :=
  tget_tset_other _ _ _ h
@[simp] theorem ring_setRing_same (s : State) (f r : Nat) (k : Ring) : (s.setRing f r k).ring f r = k := tget_tset_same _ _ _ _
@[simp] theorem req_setReq_same (s : State) (r : Nat) (k : Request) : (s.setReq r k).req? r = some k := tfind_tput_same _ _ _
theorem req_setReq_other (s : State) {r j : Nat} (k : Request) (h : j ≠ r) : (s.setReq r k).req? j = s.req? j :=
  tfind_tput_other _ _ h
@[simp] theorem engOf_modEng_same (s : State) (n : Nat) (f : Engines → Engines) : (s.modEng n f).engOf n = f (s.engOf n) :=
  tget_tset_same _ _ _ _
@[simp] theorem odInt_setOd_same (s : State) (index sub : Nat) (v : Int) : (s.setOd index sub v).odInt index sub = v :=
  tget_tset_same _ _ _ _

end Sys2Proof.Machine
end

