-- ==== Sys2Proof/Laws/Ops.lean ====
section
/-! SUPPORT. What each shared operation can change, said once: counters, device events, Patina entries, alarms and
fault counting. A proof about a command cites these in place of unfolding the operation. -/

namespace Sys2Proof.Machine

/-- Counting touches the counters, their overflow flags, the list of saturated entries and the event latches. -/
def OnlyCounts (s t : State) : Prop := ∃ c o h d, t = { s with ctr := c, ovf := o, health := h, devEv := d }

/-- A log entry touches the log and the counters of suppressed entries. -/
def OnlyLogs (s t : State) : Prop := ∃ p c o h d, t = { s with pat := p, ctr := c, ovf := o, health := h, devEv := d }

/-- A report to the alarm machine touches the alarms, the decision window, the battery supply's onset latches and what
counting touches. -/
def OnlyAlarms (s t : State) : Prop :=
  ∃ a w b c o h d, t = { s with alarms := a, window := w, batt := b, ctr := c, ovf := o, health := h, devEv := d }

theorem OnlyCounts.refl (s : State) : OnlyCounts s s := ⟨s.ctr, s.ovf, s.health, s.devEv, rfl⟩

theorem OnlyCounts.trans {s t u : State} (h : OnlyCounts s t) (g : OnlyCounts t u) : OnlyCounts s u := by
  obtain ⟨_, _, _, _, rfl⟩ := h
  obtain ⟨_, _, _, _, rfl⟩ := g
  exact ⟨_, _, _, _, rfl⟩

theorem OnlyLogs.trans {s t u : State} (h : OnlyLogs s t) (g : OnlyLogs t u) : OnlyLogs s u := by
  obtain ⟨_, _, _, _, _, rfl⟩ := h
  obtain ⟨_, _, _, _, _, rfl⟩ := g
  exact ⟨_, _, _, _, _, rfl⟩

theorem OnlyAlarms.refl (s : State) : OnlyAlarms s s := ⟨s.alarms, s.window, s.batt, s.ctr, s.ovf, s.health, s.devEv, rfl⟩

theorem OnlyAlarms.trans {s t u : State} (h : OnlyAlarms s t) (g : OnlyAlarms t u) : OnlyAlarms s u := by
  obtain ⟨_, _, _, _, _, _, _, rfl⟩ := h
  obtain ⟨_, _, _, _, _, _, _, rfl⟩ := g
  exact ⟨_, _, _, _, _, _, _, rfl⟩

theorem OnlyCounts.alarms {s t : State} (h : OnlyCounts s t) : OnlyAlarms s t := by
  obtain ⟨_, _, _, _, rfl⟩ := h
  exact ⟨s.alarms, s.window, s.batt, _, _, _, _, rfl⟩

theorem OnlyCounts.logs {s t : State} (h : OnlyCounts s t) : OnlyLogs s t := by
  obtain ⟨_, _, _, _, rfl⟩ := h
  exact ⟨s.pat, _, _, _, _, rfl⟩

theorem latchEvent_frame (event data : Nat) (s : State) : OnlyCounts s (latchEvent event data s).1 := by
  unfold latchEvent
  split
  · exact ⟨_, _, _, _, rfl⟩
  · exact ⟨_, _, _, _, rfl⟩

theorem listSaturated_frame (k : Nat) (s : State) : OnlyCounts s (listSaturated k s) := by
  unfold listSaturated
  split
  · exact .refl s
  · split
    · exact ⟨_, _, _, _, rfl⟩
    · exact ⟨_, _, _, _, rfl⟩

theorem saturated_frame (i sub : Nat) (s : State) : OnlyCounts s (saturated i sub s) :=
  (latchEvent_frame _ _ s).trans (listSaturated_frame _ _)

theorem bumpBy_frame (i sub u n : Nat) (s : State) : OnlyCounts s (bumpBy i sub u n s) := by
  unfold bumpBy
  dsimp only
  split
  · exact OnlyCounts.trans ⟨_, _, _, _, rfl⟩ (saturated_frame i sub _)
  · exact ⟨_, _, _, _, rfl⟩

theorem bump_frame (i sub u : Nat) (s : State) : OnlyCounts s (bump i sub u s) := bumpBy_frame i sub u 1 s

theorem devEvent_frame (event data : Nat) (s : State) : OnlyCounts s (devEvent event data s) := by
  unfold devEvent
  have h := latchEvent_frame event data s
  dsimp only
  split
  · exact h.trans (bump_frame _ _ _ _)
  · exact h

theorem largest_frame (i sub v : Nat) (s : State) : OnlyCounts s (largest i sub v s) := ⟨_, _, _, _, rfl⟩

theorem withPat_frame (p : Patina) (s : State) : OnlyLogs s { s with pat := p } := ⟨_, _, _, _, _, rfl⟩

theorem suppress_frame (e : Entry) (s : State) : OnlyLogs s (suppress e s) :=
  (withPat_frame _ s).trans (bump_frame _ _ _ _).logs

theorem logPush_frame (e : Entry) (s : State) : OnlyLogs s (logPush e s) := by
  unfold logPush
  split
  · exact ⟨_, _, _, _, _, rfl⟩
  · exact suppress_frame e s

theorem logEntry_frame (source code : Nat) (data : Bytes) (s : State) : OnlyLogs s (logEntry source code data s) :=
  logPush_frame _ s

theorem setAlarm_frame (a : Nat) (k : Alarm) (s : State) : OnlyAlarms s (s.setAlarm a k) := ⟨_, _, _, _, _, _, _, rfl⟩

theorem joinWindow_frame (b : Nat) (r : WinReport) (s : State) : OnlyAlarms s (joinWindow b r s) := by
  unfold joinWindow
  split
  · exact ⟨_, _, _, _, _, _, _, rfl⟩
  · exact ⟨_, _, _, _, _, _, _, rfl⟩

theorem latchOnset_frame (a : Nat) (s : State) : OnlyAlarms s (latchOnset a s) := by
  unfold latchOnset
  split
  · exact .refl s
  · exact ⟨_, _, _, _, _, _, _, rfl⟩

theorem rtcMark_frame (b : Bool) (s : State) : OnlyAlarms s (rtcMark b s) := ⟨_, _, _, _, _, _, _, rfl⟩

/-- One report to the alarm machine. -/
theorem alarmReport_frame (a lvl : Nat) (d : Bytes) (one : Bool) (s : State) : OnlyAlarms s (alarmReport a lvl d one s) := by
  unfold alarmReport
  split
  · exact .refl s
  · dsimp only
    have h0 : OnlyAlarms s (if (a = 0x20 && (s.alarm a).state != .active) = true then rtcMark false s else s) := by
      split
      · exact rtcMark_frame false s
      · exact .refl s
    have h := (h0.trans (latchOnset_frame a _)).trans (bump_frame (0x7040 + a) 4 0 _).alarms
    split
    · exact h.trans ((setAlarm_frame _ _ _).trans (joinWindow_frame _ _ _))
    · split
      · exact h.trans ((setAlarm_frame _ _ _).trans (joinWindow_frame _ _ _))
      · exact h.trans (setAlarm_frame _ _ _)
    · split
      · exact h.trans ((setAlarm_frame _ _ _).trans (joinWindow_frame _ _ _))
      · exact h.trans (setAlarm_frame _ _ _)

theorem raiseAlarm_frame (a : Nat) (d : Bytes) (s : State) : OnlyAlarms s (raiseAlarm a d s) := alarmReport_frame _ _ _ _ s

theorem raiseLasting_frame (source lvl : Nat) (s : State) : OnlyAlarms s (raiseLasting source lvl s) := alarmReport_frame _ _ _ _ s

theorem withHealth_frame (h : Health) (s : State) : OnlyCounts s { s with health := h } := ⟨_, _, _, _, rfl⟩

theorem setFaultUnit_frame (source unit : Nat) (f : FaultUnit) (s : State) : OnlyCounts s (s.setFaultUnit source unit f) :=
  withHealth_frame _ s

theorem healthRecord_frame (r : HealthRec) (s : State) : OnlyCounts s (healthRecord r s) := by
  have h : ∀ b : Bool, OnlyCounts s (if b then bump 0x9004 4 0 (bump 0x9004 3 0 s) else bump 0x9004 3 0 s) := by
    intro b
    cases b
    · exact bump_frame _ _ _ s
    · exact (bump_frame _ _ _ s).trans (bump_frame _ _ _ _)
  exact (h _).trans (withHealth_frame _ _)

/-- Judging an event of a fault source (R584). -/
theorem countFault_frame (source unit lvl : Nat) (s : State) : OnlyAlarms s (countFault source unit lvl s).1 := by
  have h : ∀ f r, OnlyAlarms s (raiseLasting source lvl (healthRecord r (s.setFaultUnit source unit f))) := fun f r =>
    ((setFaultUnit_frame _ _ f s).trans (healthRecord_frame r _)).alarms.trans (raiseLasting_frame _ _ _)
  have g : ∀ f r, OnlyAlarms s (healthRecord r (s.setFaultUnit source unit f)) := fun f r =>
    ((setFaultUnit_frame _ _ f s).trans (healthRecord_frame r _)).alarms
  unfold countFault
  cases faultChannel source unit with
  | none =>
    simp only [Bool.false_eq_true, if_false]
    split
    · exact h _ _
    · exact g _ _
  | some n =>
    dsimp only
    split
    · exact .refl s
    · split
      · exact (h _ _).trans (devEvent_frame _ _ _).alarms
      · exact g _ _

-- What the shared operations achieve.

/-- An event that waits in its latch. -/
def waiting (s : State) (event : Nat) : Bool := s.devEv.any (fun l => l.event = event)

theorem latchEvent_waiting (event data e : Nat) (s : State) :
    waiting (latchEvent event data s).1 e = (waiting s e || decide (e = event)) := by
  unfold latchEvent
  split
  · next h =>
    have hm : (s.devEv.map (fun l => if l.event = event then { l with count := Nat.min 255 (l.count + 1) } else l)).any
        (fun l => l.event = e) = s.devEv.any (fun l => l.event = e) := by
      rw [List.any_map]
      congr 1
      funext l
      simp only [Function.comp]
      split <;> rfl
    simp only [waiting, hm]
    by_cases he : e = event
    · subst he; simp [h]
    · simp [he]
  · simp [waiting, List.any_append, eq_comm]

theorem listSaturated_devEv (k : Nat) (s : State) : (listSaturated k s).devEv = s.devEv := by
  unfold listSaturated
  split
  · rfl
  · split <;> rfl

theorem bumpBy_waiting {e : Nat} {s : State} (i sub u n : Nat) (h : waiting s e = true) : waiting (bumpBy i sub u n s) e = true := by
  unfold bumpBy
  dsimp only
  split
  · have := latchEvent_waiting 0x8030 (odKey i sub) e
      { s with ctr := tset 0 s.ctr (ctrKey i sub u) (Nat.min (ctrMax i sub) (s.count i sub u + n)),
               ovf := if s.ovf.contains (ctrKey i sub u) then s.ovf else s.ovf ++ [ctrKey i sub u] }
    simp only [waiting, saturated, listSaturated_devEv] at this h ⊢
    rw [this]
    simp [h]
  · exact h

/-- A device event raised waits in its latch. -/
theorem devEvent_waiting (event data : Nat) (s : State) : waiting (devEvent event data s) event = true := by
  have h : waiting (latchEvent event data s).1 event = true := by simp [latchEvent_waiting]
  unfold devEvent
  dsimp only
  split
  · exact bumpBy_waiting 0x9064 1 0 1 h
  · exact h

theorem bumpBy_alarms (i sub u n : Nat) (s : State) : (bumpBy i sub u n s).alarms = s.alarms := by
  obtain ⟨_, _, _, _, h⟩ := bumpBy_frame i sub u n s
  rw [h]

theorem joinWindow_alarms (b : Nat) (r : WinReport) (s : State) : (joinWindow b r s).alarms = s.alarms := by
  unfold joinWindow
  split <;> rfl

/-- A report taken by the alarm machine leaves its alarm ACTIVE. -/
theorem alarmReport_active (a lvl : Nat) (d : Bytes) (one : Bool) (s : State) (h : watching s = true) :
    ((alarmReport a lvl d one s).alarm a).state = .active := by
  unfold alarmReport
  simp only [h, Bool.not_true, Bool.false_eq_true, if_false]
  split
  · simp [State.alarm, joinWindow_alarms]
  · split
    · simp [State.alarm, joinWindow_alarms]
    · simp [State.alarm]
  · next hs =>
    split
    · simpa [State.alarm, joinWindow_alarms] using hs
    · simpa [State.alarm] using hs

end Sys2Proof.Machine
end

