-- ==== Sys2Proof/Laws/Chan.lean ====
section
/-! SUPPORT. What a change of a channel's state does to the states of the channels: it sets that one and no other. -/

namespace Sys2Proof.Machine

/-- Every channel's data-path state is the same. -/
def SameData (s t : State) : Prop := ∀ j, (t.chan j).data = (s.chan j).data

theorem SameData.refl (s : State) : SameData s s := fun _ => rfl

theorem SameData.trans {s t u : State} (h : SameData s t) (g : SameData t u) : SameData s u := fun j => (g j).trans (h j)

theorem SameData.of_chans {s t : State} (h : t.chans = s.chans) : SameData s t := fun j => by simp [State.chan, h]

theorem SameData.fold {α : Type} (l : List α) (f : State → α → State) (h : ∀ s a, SameData s (f s a)) (s : State) :
    SameData s (l.foldl f s) := by
  induction l generalizing s with
  | nil => exact .refl s
  | cons a l ih => exact (h s a).trans (ih (f s a))

theorem SameData.setChan (s : State) (n : Nat) (c : Channel) (h : c.data = (s.chan n).data) : SameData s (s.setChan n c) := by
  intro j
  by_cases hj : j = n
  · subst hj; simp [h]
  · rw [chan_setChan_other s c hj]

theorem SameData.modChan (s : State) (n : Nat) (f : Channel → Channel) (h : (f (s.chan n)).data = (s.chan n).data) :
    SameData s (s.modChan n f) := .setChan s n _ h

theorem OnlyCounts.sameData {s t : State} (h : OnlyCounts s t) : SameData s t := by
  obtain ⟨_, _, _, _, rfl⟩ := h
  exact .of_chans rfl

theorem syncedChan_data (n : Nat) (s : State) : (syncedChan n s).data = (s.chan n).data := by
  unfold syncedChan
  dsimp only
  split <;> rfl

theorem syncChan_sameData (n : Nat) (s : State) : SameData s (syncChan n s) :=
  (SameData.setChan s n _ (syncedChan_data n s)).trans (.fold _ refreshQueue (fun _ _ => .of_chans rfl) _)

theorem syncBarrier_sameData (s : State) (qn : Nat) : SameData s (syncBarrier s qn) := by
  unfold syncBarrier
  split
  · exact .refl s
  · exact .of_chans rfl

theorem syncQueues_sameData (s : State) : SameData s (syncQueues s) := by
  unfold syncQueues
  have h : SameData s (s.qm.queues.foldl (fun s e => syncBarrier s e.1) s) :=
    .fold _ (fun s (e : Nat × Queue) => syncBarrier s e.1) (fun s e => syncBarrier_sameData s e.1) s
  exact h.trans (.fold _ (fun s n => syncChan n s) (fun s n => syncChan_sameData n s) _)

theorem assignHomes_sameData (s : State) : SameData s (assignHomes s) := by
  unfold assignHomes
  refine SameData.fold _ _ (fun s e => ?_) s
  dsimp only
  split
  · split
    · exact .of_chans rfl
    · exact .refl s
  · exact .refl s

theorem balanceTo_sameData (n : Nat) (s : State) : SameData s (balanceTo n s) := by
  unfold balanceTo
  refine SameData.fold _ _ (fun s e => ?_) s
  split
  · exact .of_chans rfl
  · exact .refl s

theorem noteExcess_sameData (l : List Nat) (n : Nat) (s : State) : SameData s (noteExcess l n s) := by
  unfold noteExcess
  refine SameData.fold _ _ (fun s r => ?_) s
  dsimp only
  split
  · exact .of_chans rfl
  · exact .refl s

theorem moveExcess_sameData (n : Nat) (b : List Nat) (s : State) : SameData s (moveExcess n b s) := by
  unfold moveExcess
  dsimp only
  split
  · exact .refl s
  · have h : SameData s (s.setChan n { s.chan n with excess := [], excessDeficit := 0, excessFresh := true }) :=
      .setChan s n _ rfl
    generalize s.setChan n { s.chan n with excess := [], excessDeficit := 0, excessFresh := true } = u at h ⊢
    split
    · exact h.trans (.of_chans rfl)
    · next m _ =>
      have g : SameData u (u.setChan m { u.chan m with excess := (u.chan m).excess ++ (s.chan n).excess }) := .setChan u m _ rfl
      exact (h.trans g).trans (noteExcess_sameData _ _ _)

theorem takeHeldExcess_sameData (n : Nat) (s : State) : SameData s (takeHeldExcess n s) := by
  unfold takeHeldExcess
  split
  · exact .refl s
  · have h : SameData s { s with qm := { s.qm with excessHeld := [] } } := .of_chans rfl
    generalize { s with qm := { s.qm with excessHeld := [] } } = u at h ⊢
    exact (h.trans (.modChan u n _ rfl)).trans (noteExcess_sameData _ _ _)

theorem disarmBreaks_sameData (n : Nat) (st : ChanState) (s : State) : SameData s (disarmBreaks n st s) := by
  unfold disarmBreaks
  split
  · exact .refl s
  · exact .fold _ (fun (s : State) i => s.modCore (n * 8 + i) (fun k => { k with armed := false })) (fun _ _ => .of_chans rfl) s

theorem retentionStep_sameData (n : Nat) (old st : ChanState) (s : State) : SameData s (retentionStep n old st s) := by
  unfold retentionStep retentionEnter retentionExit
  split
  · split
    · exact .of_chans rfl
    · exact .refl s
  · split
    · exact .of_chans rfl
    · exact .refl s

theorem bucketStep_sameData (old st : ChanState) (s : State) : SameData s (bucketStep old st s) := by
  unfold bucketStep
  split
  · exact .of_chans rfl
  · exact .refl s

theorem homeStep_sameData (n : Nat) (old st : ChanState) (b : List Nat) (s : State) : SameData s (homeStep n old st b s) := by
  unfold homeStep
  split
  · refine SameData.trans ?_ (moveExcess_sameData _ _ _)
    split
    · exact .refl s
    · exact assignHomes_sameData s
  · split
    · exact ((takeHeldExcess_sameData n s).trans (assignHomes_sameData _)).trans (balanceTo_sameData _ _)
    · exact .refl s

/-- A change of state that takes place sets the channel's own state, and leaves every other channel's. -/
theorem setChanState_data (n : Nat) (st : ChanState) (s : State) (h : haltedCore s n = false) (j : Nat) :
    ((setChanState n st s).chan j).data = if j = n then st else (s.chan j).data := by
  unfold setChanState
  dsimp only
  by_cases hd : (s.chan n).data = st
  · simp only [hd, decide_true, Bool.true_or, if_true]
    by_cases hj : j = n
    · subst hj; simp [hd]
    · simp [hj]
  · simp only [hd, h, decide_false, Bool.or_false, Bool.false_eq_true, if_false]
    have hs := (((((devEvent_frame (0x8000 + n) (st.code + 256 * (s.chan n).data.code)
      (s.setChan n { s.chan n with data := st, mgmt := st, divergeSince := none, enteredAt := s.time })).sameData.trans
      (disarmBreaks_sameData n st _)).trans (retentionStep_sameData n (s.chan n).data st _)).trans
      (bucketStep_sameData (s.chan n).data st _)).trans (homeStep_sameData n (s.chan n).data st (homesOf s n) _)).trans
      (syncQueues_sameData _)
    rw [hs j]
    by_cases hj : j = n
    · subst hj; simp
    · simp only [hj, if_false]; rw [chan_setChan_other s _ hj]

end Sys2Proof.Machine
end

