-- ==== Sys2Proof/Laws/Mgmt.lean ====
section
/-! SUPPORT. What sending on a Frieze port, and answering a management request, can do. -/

namespace Sys2Proof.Machine

/-- Only the Frieze and what leaves the part differ. -/
def OnlySends (s t : State) : Prop := ∃ f o, t = { s with frz := f, out := o }

theorem OnlySends.refl (s : State) : OnlySends s s := ⟨s.frz, s.out, rfl⟩

theorem OnlySends.trans {s t u : State} (h : OnlySends s t) (g : OnlySends t u) : OnlySends s u := by
  obtain ⟨_, _, rfl⟩ := h
  obtain ⟨_, _, rfl⟩ := g
  exact ⟨_, _, rfl⟩

theorem setFrzPort_frame (p : Nat) (k : FrzPort) (s : State) : OnlySends s (s.setFrzPort p k) := ⟨_, _, rfl⟩

theorem emit_frame (o : Out) (s : State) : OnlySends s (emit o s) := ⟨_, _, rfl⟩

theorem transmit_frame (p : Nat) (m : FrzMsg) (s : State) : OnlySends s (transmit p m s) :=
  (setFrzPort_frame _ _ _).trans (emit_frame _ _)

/-- Sending what waits changes the ports and what leaves the part, nothing else. -/
theorem pumpPort_frame (p n : Nat) : ∀ s : State, OnlySends s (pumpPort p n s) := by
  induction n with
  | zero => exact OnlySends.refl
  | succ n ih =>
    intro s
    simp only [pumpPort]
    split
    · exact .refl _
    · exact ((setFrzPort_frame _ _ _).trans (transmit_frame _ _ _)).trans (ih _)

/-- Sending a message by a port changes the ports and what leaves the part, nothing else. -/
theorem frzSend_frame (p vc mtype dst : Nat) (data : Bytes) (s : State) : OnlySends s (frzSend p vc mtype dst data s) := by
  simp only [frzSend]
  split
  · exact .refl _
  · exact (setFrzPort_frame _ _ _).trans (pumpPort_frame _ _ _)

theorem sendMgmtMsg_frame (q dst : Nat) (data : Bytes) (r : Option (Nat × Nat)) (s : State) :
    OnlySends s (sendMgmtMsg q dst data r s) := by
  simp only [sendMgmtMsg]
  split
  · exact .refl _
  · exact (setFrzPort_frame _ _ _).trans (pumpPort_frame _ _ _)

theorem canSend_frame (c : Nat) (b : Bytes) (s : State) : OnlySends s (canSend c b s) := by
  have h : ∀ (l : List Bytes) (s : State), OnlySends s (l.foldl (fun s x => emit (.can (canId s c) x) s) s) := by
    intro l
    induction l with
    | nil => exact OnlySends.refl
    | cons a l ih => exact fun s => (emit_frame _ _).trans (ih _)
  simp only [canSend]
  split
  · exact .refl _
  · exact h _ _

/-- A frame that leaves by a transport changes the ports, the mailboxes and what leaves the part, nothing else. -/
theorem mgTransport_frame (m route pa pp : Nat) (frame : Bytes) (s : State) :
    ∃ f o b, mgTransport m route pa pp frame s = { s with frz := f, out := o, mgmt := { s.mgmt with mb := b } } := by
  simp only [mgTransport]
  split
  · obtain ⟨f, o, h⟩ := canSend_frame m (routeBytes route ++ frame) s
    exact ⟨f, o, s.mgmt.mb, h⟩
  · split
    · exact ⟨_, _, _, rfl⟩
    · split
      · rename_i q _
        obtain ⟨f, o, h⟩ := sendMgmtMsg_frame q pa (routeBytes route ++ frame)
          (if routeForm route = 2 then some (partAddr s, routeHops route - 1) else none) s
        exact ⟨f, o, s.mgmt.mb, h⟩
      · exact ⟨s.frz, s.out, s.mgmt.mb, rfl⟩

theorem leBytes_length (n : Nat) : ∀ v, (leBytes n v).length = n := by
  induction n with
  | zero => intro v; rfl
  | succ n ih => intro v; simp [leBytes, ih]

theorem leNat_leBytes (n : Nat) : ∀ v, v < 256 ^ n → leNat (leBytes n v) = v := by
  induction n with
  | zero => intro v h; simp at h; simp [leBytes, leNat, h]
  | succ n ih =>
    intro v h
    simp only [leBytes, leNat, BitVec.toNat_ofNat]
    rw [ih (v / 256) (by rw [Nat.pow_succ] at h; omega)]
    omega

theorem modMg_some {m : Nat} {s : State} {x : MgSess} (f : MgSess → MgSess) (h : s.mgSess m = some x) :
    s.modMg m f = s.setMg m (f x) := by simp [State.modMg, h]

@[simp] theorem mgSess_setMg_same (s : State) (m : Nat) (k : MgSess) : (s.setMg m k).mgSess m = some k :=
  tfind_tput_same _ _ _

theorem mgSess_setMg_other (s : State) {m j : Nat} (k : MgSess) (h : j ≠ m) : (s.setMg m k).mgSess j = s.mgSess j :=
  tfind_tput_other _ _ h

/-- A frame of a session that stands takes its next SEQ and leaves; nothing else changes. -/
theorem mgSend_frame (m typ : Nat) (body : Bytes) (s : State) (k : MgSess) (h : s.mgSess m = some k) :
    ∃ f o b, mgSend m typ body s =
      { s.setMg m { k with txSeq := k.txSeq + 1 } with
        frz := f, out := o, mgmt := { (s.setMg m { k with txSeq := k.txSeq + 1 }).mgmt with mb := b } } := by
  simp only [mgSend, h]
  exact mgTransport_frame _ _ _ _ _ _

/-- The reply of a session that stands is cached and sent. -/
theorem mgReply_replied (m mop result ni fi txn : Nat) (body : Bytes) (u : State) (x : MgSess) (hx : u.mgSess m = some x)
    (hm : mop < 256) (hr : result < 65536) (hl : body.length ≤ 4336) :
    Replied m mop result u (mgReply m mop result ni fi txn body u) := by
  have hlen : ¬ 4352 < (mgHeader mop result ni fi txn ++ body).length := by
    simp [mgHeader, leBytes_length]; omega
  simp only [mgReply, if_neg hlen, modMg_some _ hx]
  obtain ⟨f, o, b, h⟩ := mgSend_frame m 0x10 (mgHeader mop result ni fi txn ++ body) _ _
    (mgSess_setMg_same u m { x with cached := mgHeader mop result ni fi txn ++ body, inFlight := false })
  rw [h]
  refine ⟨⟨x, { x with cached := mgHeader mop result ni fi txn ++ body, inFlight := false, txSeq := x.txSeq + 1 }, hx, ?_, rfl, ?_, ?_⟩, ?_, rfl⟩
  · exact tfind_tput_same _ _ _
  · have := leNat_leBytes 1 mop (by omega)
    simpa [mgHeader, leAt, leBytes] using this
  · have := leNat_leBytes 2 result (by omega)
    simpa [mgHeader, leAt, leBytes] using this
  · intro j hj
    exact (mgSess_setMg_other _ _ hj).trans (mgSess_setMg_other _ _ hj)

/-- Sessions that close leave the list; what hangs on them goes or loses its session, and an image that a commit in hand
waited for is given up. -/
theorem dropSessions_frame (g : Nat → MgSess → Bool) (s : State) : ∃ k j c o d, dropSessions g s =
    { s with ks := k, mgmt := { s.mgmt with
        sess := s.mgmt.sess.filter (fun e => !g e.1 e.2), job := j, commits := c, owner := o, domain := d } } := by
  unfold dropSessions
  extract_lets lost keep job dropped u
  have h : ∃ k, u = { s with ks := k } := by
    simp only [u]
    cases dropped
    · exact ⟨s.ks, rfl⟩
    · exact ⟨_, rfl⟩
  clear_value u
  obtain ⟨k, rfl⟩ := h
  exact ⟨k, _, _, _, _, rfl⟩

/-- A notice changes the notices of its session, nothing else. -/
theorem noticeTo_frame (m code v : Nat) (s : State) : noticeTo m code v s =
    s.modMg m (fun k => { k with notices := pushNotice code v k.notices }) := rfl

end Sys2Proof.Machine
end

