-- ==== Sys2Proof/Laws/Run.lean ====
section
/-! SUPPORT. What running one instruction of a core does: registers read after a write, the core after issue, and the
form of an instruction that completes. -/

namespace Sys2Proof.Machine

theorem core_modCore_same (s : State) (c : Nat) (f : Core → Core) : (s.modCore c f).core c = f (s.core c) :=
  core_setCore_same s c _

theorem core_modCore_other (s : State) {c d : Nat} (f : Core → Core) (h : d ≠ c) : (s.modCore c f).core d = s.core d :=
  core_setCore_other s _ h

/-- A change of a core changes the table of cores only. -/
theorem modCore_only (s : State) (c : Nat) (f : Core → Core) : s.modCore c f = { s with cores := (s.modCore c f).cores } := rfl

theorem setG_eq (k : Core) (rd : BitVec 5) (v : Word) : k.setG rd v = { k with g := (k.setG rd v).g } := by
  unfold Core.setG; split <;> rfl

theorem gr_setG (k : Core) (r rd : BitVec 5) (v : Word) :
    (k.setG rd v).gr r = if r = rd ∧ r ≠ 0 then v else k.gr r := by
  by_cases hd : rd = 0
  · have e : k.setG rd v = k := if_pos hd
    rw [e, if_neg (fun h => h.2 (h.1.trans hd))]
  · have e : k.setG rd v = { k with g := tset 0 k.g rd.toNat v } := if_neg hd
    rw [e]
    unfold Core.gr
    by_cases h : r = rd
    · subst h
      rw [if_neg hd, if_pos ⟨rfl, hd⟩]
      exact tget_tset_same _ _ _ _
    · rw [if_neg (fun c : r = rd ∧ r ≠ 0 => h c.1), tget_tset_other _ _ _ (fun c => h (BitVec.eq_of_toNat_eq c))]

theorem acc_setAcc (k : Core) (i j : BitVec 2) (v : BitVec 72) :
    (k.setAcc i v).acc j = if j = i then v else k.acc j := by
  unfold Core.setAcc Core.acc
  by_cases h : j = i
  · subst h; rw [if_pos rfl]; exact tget_tset_same _ _ _ _
  · rw [if_neg h]; exact tget_tset_other _ _ _ (fun e => h (BitVec.eq_of_toNat_eq e))

theorem orSatf_eq (k : Core) (b : Bool) : k.orSatf b = { k with status := { k.status with satf := k.status.satf || b } } := by
  unfold Core.orSatf; cases b <;> simp

/-- Products that settle change m registers only. -/
theorem settleFold_eq (l : List MulFlight) (k : Core) :
    ∃ m, l.foldl (fun k m => k.setM m.m m.product) k = { k with m := m } ∧ (l = [] → m = k.m) := by
  induction l generalizing k with
  | nil => exact ⟨k.m, rfl, fun _ => rfl⟩
  | cons x l ih =>
    obtain ⟨m, h, _⟩ := ih (k.setM x.m x.product)
    exact ⟨m, h, fun e => by cases e⟩

/-- The core after issue: products that are due have settled and cycles have passed. -/
theorem issue_eq (k : Core) (srcs : List Nat) :
    ∃ m mu, k.issue srcs = { k with m := m, muls := mu, cycle := issueCycle k srcs } ∧
      (k.muls = [] → m = k.m ∧ mu = []) := by
  obtain ⟨m, h, h2⟩ := settleFold_eq (k.muls.filter (fun m => m.ready ≤ issueCycle k srcs)) k
  refine ⟨m, k.muls.filter (fun m => !(decide (m.ready ≤ issueCycle k srcs))), ?_, ?_⟩
  · unfold Core.issue Core.settle
    dsimp only
    rw [h]
  · intro e
    rw [e] at h2 ⊢
    exact ⟨h2 rfl, rfl⟩

/-- An instruction that issues runs its body on the core after issue. -/
theorem runInsn_issues {c : Nat} {q : Pred} {s : State} (h : Issues c q s) (srcs : List Nat) (body : State → Body) :
    runInsn c q srcs body s = applyBody c (body (s.modCore c (fun k => k.issue srcs))) := by
  obtain ⟨h1, h2, h3, h4, h5⟩ := h
  simp [runInsn, atBoundary, h1, h2, h3, h4, h5]

/-- The form of an instruction that writes a general register. -/
theorem gResult_of {c : Nat} {i : Instr} {s : State} {rd : BitVec 5} {v : Word} {sat : Bool} {q : Pred} {srcs : List Nat}
    {body : State → Body} {n : Nat} {f : Core → Core} (h : Issues c q s)
    (hx : exec i s = .next (runInsn c q srcs body s))
    (hb : body (s.modCore c (fun k => k.issue srcs)) = .next ((s.modCore c (fun k => k.issue srcs)).modCore c f) n)
    (hf : ∀ k, ∃ rdy, f k = { (k.setG rd v).orSatf sat with ready := rdy }) : GResult c i s rd v sat := by
  obtain ⟨m, mu, hi, hm⟩ := issue_eq (s.core c) srcs
  obtain ⟨rdy, hr⟩ := hf ((s.core c).issue srcs)
  refine ⟨_, hx, ?_⟩
  rw [runInsn_issues h, hb]
  have hc : ((applyBody c (.next ((s.modCore c (fun k => k.issue srcs)).modCore c f) n)).core c) =
      ({ (((s.core c).issue srcs).setG rd v).orSatf sat with ready := rdy } : Core).advance
        ((((s.core c).issue srcs).setG rd v).pc + 8) n := by
    simp only [applyBody, core_modCore_same, hr, orSatf_eq]
  refine ⟨fun r => ?_, ⟨?_, ?_, ?_⟩, rfl⟩
  · rw [hc]
    have e : ∀ (k : Core) rdy pc n, (({ k.orSatf sat with ready := rdy } : Core).advance pc n).gr r = k.gr r := by
      intro k rdy pc n; rw [orSatf_eq]; rfl
    rw [e, gr_setG, hi]
    rfl
  · rw [hc, orSatf_eq, setG_eq, hi]
    simp [Core.advance]
  · intro e
    rw [hc, orSatf_eq, setG_eq, hi, (hm e).1]
    simp [Core.advance]
  · intro d hd
    simp only [applyBody, core_modCore_other _ _ hd]

@[simp] theorem gr_advance (k : Core) (pc : BitVec 32) (n : Nat) (r : BitVec 5) : (k.advance pc n).gr r = k.gr r := rfl
@[simp] theorem acc_advance (k : Core) (pc : BitVec 32) (n : Nat) (r : BitVec 2) : (k.advance pc n).acc r = k.acc r := rfl
@[simp] theorem seg_advance (k : Core) (pc : BitVec 32) (n : Nat) (r : BitVec 3) : (k.advance pc n).seg r = k.seg r := rfl

theorem seg_setSeg (k : Core) (i j : BitVec 3) (d : BitVec 128) :
    (k.setSeg i d).seg j = if j = i then d else k.seg j := by
  unfold Core.setSeg Core.seg
  by_cases h : j = i
  · subst h; rw [if_pos rfl]; exact tget_tset_same _ _ _ _
  · rw [if_neg h]; exact tget_tset_other _ _ _ (fun e => h (BitVec.eq_of_toNat_eq e))

/-- The core after the issue of a serialising instruction. -/
theorem serialise_eq (k : Core) :
    ∃ m cy, k.serialise = { k with m := m, muls := [], cycle := cy, ready := [] } ∧ (k.muls = [] → m = k.m) := by
  obtain ⟨m, h, h2⟩ := settleFold_eq k.muls k
  refine ⟨m, k.muls.foldl (fun t m => Nat.max t m.ready) (k.ready.foldl (fun t e => Nat.max t e.2) k.cycle), ?_, h2⟩
  unfold Core.serialise Core.settleAll
  dsimp only
  rw [h]

/-- A serialising instruction that issues runs its body on the core after its issue. -/
theorem runSerial_issues {c : Nat} {q : Pred} {s : State} (h : Issues c q s) (body : State → Body) :
    runSerial c q body s = applyBody c (body (s.modCore c Core.serialise)) := by
  obtain ⟨h1, h2, h3, h4, h5⟩ := h
  simp [runSerial, atBoundary, h1, h2, h3, h4, h5]

/-- The form of an instruction that completes at PC + 8, whatever it writes. -/
theorem does_next {c : Nat} {i : Instr} {s : State} {q : Pred} {srcs : List Nat} {body : State → Body} {n : Nat} {u : State}
    {P : State → Prop} (h : Issues c q s) (hx : exec i s = .next (runInsn c q srcs body s))
    (hb : body (s.modCore c (fun k => k.issue srcs)) = .next u n)
    (hp : ∀ t, t.core c = (u.core c).advance ((u.core c).pc + 8) n → (∀ d, d ≠ c → t.core d = u.core d) →
      t = { u with cores := t.cores } → P t) : Does i s P := by
  refine ⟨_, hx, ?_⟩
  rw [runInsn_issues h, hb]
  exact hp _ (core_modCore_same _ _ _) (fun d hd => core_modCore_other _ _ hd) rfl

/-- The form of an instruction that sets PC. -/
theorem does_jump {c : Nat} {i : Instr} {s : State} {q : Pred} {srcs : List Nat} {body : State → Body} {n : Nat} {u : State}
    {pc : BitVec 32} {P : State → Prop} (h : Issues c q s) (hx : exec i s = .next (runInsn c q srcs body s))
    (hb : body (s.modCore c (fun k => k.issue srcs)) = .jump u pc n)
    (hp : ∀ t, t.core c = (u.core c).advance pc n → (∀ d, d ≠ c → t.core d = u.core d) →
      t = { u with cores := t.cores } → P t) : Does i s P := by
  refine ⟨_, hx, ?_⟩
  rw [runInsn_issues h, hb]
  exact hp _ (core_modCore_same _ _ _) (fun d hd => core_modCore_other _ _ hd) rfl

/-- The form of a serialising instruction that completes. -/
theorem does_serial {c : Nat} {i : Instr} {s : State} {q : Pred} {body : State → Body} {n : Nat} {u : State}
    {P : State → Prop} (h : Issues c q s) (hx : exec i s = .next (runSerial c q body s))
    (hb : body (s.modCore c Core.serialise) = .next u n)
    (hp : ∀ t, t.core c = (u.core c).advance ((u.core c).pc + 8) n → (∀ d, d ≠ c → t.core d = u.core d) →
      t = { u with cores := t.cores } → P t) : Does i s P := by
  refine ⟨_, hx, ?_⟩
  rw [runSerial_issues h, hb]
  exact hp _ (core_modCore_same _ _ _) (fun d hd => core_modCore_other _ _ hd) rfl

-- Memory of a core with an empty store buffer.

/-- An empty store buffer has nothing to drain. -/
theorem drainAll_nil {c : Nat} {s : State} (h : (s.core c).storeBuf = []) : drainAll c s = s := by
  have h1 : drainOne c s = s := by simp [drainOne, h]
  simp [drainAll, List.range, List.range.loop, h1]

theorem overlay_nil (a : Nat) (b : Bytes) : overlay [] a b = b := by
  induction b generalizing a with
  | nil => rfl
  | cons x b ih => simp [overlay, bufByte, ih]

theorem allBuffered_nil (a : Nat) {n : Nat} (h : 0 < n) : allBuffered [] a n = false := by
  simpa [allBuffered, bufByte] using ⟨0, h⟩

/-- A core's read of a channel's SRAM that is permitted and has no error. -/
theorem coreRead_sram {c a n o size : Nat} {k : AccKind} {s : State} (h0 : 0 < size) (h1 : a < fsAddr)
    (h2 : resolve s c a = .sram n o) (h3 : accessVerdict s c k a size = none) (h4 : readError s (.sram n o) size = none)
    (h5 : (s.core c).storeBuf = []) : coreRead c k a size s = .ok (leNat (memBytes s.mem (memKey (.sram n o)) size)) s := by
  simp only [coreRead, if_neg (Nat.not_le.2 h1), h3, h2, isReg, h5, allBuffered_nil _ h0, h4, overlay_nil]
  simp [State.memRead]

/-- A write at a channel's SRAM that has no error. -/
theorem storeAt_sram {c a n o size d : Nat} {s : State} (h2 : resolve s c a = .sram n o)
    (h4 : readError s (.sram n o) size = none) : storeAt c a size d s = .ok 0 (putTarget (.sram n o) (leBytes size d) s) := by
  simp [storeAt, h2, isReg, h4]

end Sys2Proof.Machine
end

