-- ==== Sys2Proof/Laws/Write.lean ====
section
/-! SUPPORT. A write of one entry: when its effect takes place, the request is answered without an error. -/

namespace Sys2Proof.Machine

/-- The item of a write of one entry. -/
def oneItem (index sub : Nat) (value : Bytes) : MgItem :=
  { index := index, sub := sub, typ := (match odFind index sub with | some e => e.typ.code | none => 0),
    off := 0, len := value.length, value := value }

/-- When the checks of a written item pass: the entry is written at once, the value fits it, and the role may write it. -/
theorem writeFails_none {s : State} {m : Nat} {k : MgSess} {index sub : Nat} {value : Bytes} {e : OdEntry}
    (he : odFind index sub = some e)
    (h : (!(e.access = .ro || e.access = .const || e.access = .rwt) && e.typ.width.all (fun w => value.length = w) &&
      decide (value.length ≤ 4096) && ((e.typ = .octets || e.typ = .str) || valueOk e index sub (intOf e.typ value))) = true)
    (hr : roleWrites k.role index sub = true) (ho : k.role = 3 → recordsOwn s m k index value = true) :
    writeFails s m k (oneItem index sub value) = none := by
  simp only [Bool.and_eq_true, Bool.not_eq_true', Bool.or_eq_false_iff, decide_eq_true_eq, Bool.or_eq_true, decide_eq_false_iff_not] at h
  obtain ⟨⟨⟨⟨⟨h1, h2⟩, h3⟩, h4⟩, h5⟩, h6⟩ := h
  have hw : (e.typ.width.any fun w => value.length != w) = false := by
    cases hh : e.typ.width with
    | none => rfl
    | some w => rw [hh] at h4; simp at h4; simp [h4]
  unfold writeFails
  have e1 : (oneItem index sub value).index = index := rfl
  have e2 : (oneItem index sub value).sub = sub := rfl
  have e3 : (oneItem index sub value).typ = e.typ.code := by simp [oneItem, he]
  have e4 : (oneItem index sub value).off = 0 := rfl
  have e5 : (oneItem index sub value).len = value.length := rfl
  have e6 : (oneItem index sub value).value = value := rfl
  rw [e1, e2, e3, e4, e5, e6, he]
  simp only [h1, h2, h3, hw, hr]
  have ha : (k.role = 3 ∧ !recordsOwn s m k index value) ↔ False := by
    constructor
    · intro ⟨a, b⟩; simp [ho a] at b
    · exact False.elim
  simp only [ha]
  rcases h6 with (h | h) | h
  · simp [h]; omega
  · simp [h]; omega
  · simp [h]; omega

/-- A write of one entry that is written at once: the effect, then the reply. -/
theorem writeOne_replied {m index sub : Nat} {value : Bytes} {s u : State} {k x : MgSess} {e : OdEntry} (h : Asks s m k)
    (he : odFind index sub = some e) (ha : e.access ≠ .rwt)
    (hw : writeFails (heard m k s) m { k with lastRx := s.time } (oneItem index sub value) = none)
    (hu : entryWrite m { k with lastRx := s.time } index sub value (heard m k s) = .ok u) (hx : u.mgSess m = some x) :
    ∃ t, writeOne m index sub value s = .next t ∧ Replied m 2 0 u t := by
  obtain ⟨h1, h2, h3, h4⟩ := h
  have hk : (heard m k s).mgSess m = some { k with lastRx := s.time } := mgSess_setMg_same _ _ _
  have hi : writeItem m (oneItem index sub value) (heard m k s) = (0, u) := by
    simp only [writeItem, hk, hw]
    simp only [oneItem, he, if_neg ha]
    rw [hu]
  have hc : itemCountOk [oneItem index sub value] = true := rfl
  refine ⟨_, rfl, ?_⟩
  have hg : mgRequest m 2 (fun _ s =>
      if !itemCountOk [oneItem index sub value] then mgDone m 2 1 0 [] s
      else
        let (b, n, f, s) := writeItems m 0 [oneItem index sub value] s
        mgReply m 2 0 n (f.getD 0xFFFF) 0 b s) s =
      mgReply m 2 0 1 0xFFFF 0 (itemOut (oneItem index sub value) 0 0 []) u := by
    unfold mgRequest
    rw [h1]
    show (if k.handshake = true then _ else _) = _
    rw [if_neg (by simp [h2]), if_neg (by simp [h3])]
    refine (if_neg (show ¬ s.supRestarting = true by rw [h4]; decide)).trans ?_
    have hi' : writeItem m (oneItem index sub value) (s.setMg m { k with lastRx := s.time }) = (0, u) := hi
    simp [hc, writeItems, hi']
  exact hg ▸ mgReply_replied m 2 0 1 0xFFFF 0 _ u x hx (by decide) (by decide)
    (by simp [itemOut, itemPad, leBytes_length, zeros])

end Sys2Proof.Machine
end

