-- ==== Sys2Proof/Tests/Slice0.lean ====
section
/-! SUPPORT. Tests: ill-formed commands that WellFormed refuses, words and steps worked out by hand, and for each
statement that has hypotheses a theorem that shows a state and operands that meet them together, hypothesis set by hypothesis
set. -/

open Sys2Proof Sys2Proof.Machine

set_option Elab.async false

namespace Sys2Proof.Tests

/-- The part in service: out of reset, in lifecycle OPERATIONAL. -/
def up : State :=
  { State.reset with
    pins := { held := false, almForced := false, alm0 := false, alm1 := false }
    life := { state := .operational, step := 9 } }

/-- `n` bytes, those listed by place and the rest zero. -/
def octets (n : Nat) (l : Tab Nat) : Bytes := (List.range n).map (fun i => BitVec.ofNat 8 (tget 0 l i))

/-- Request 7 of tenant 1 for a service, running on channel 2, naming slots 16 to 19. -/
def job (code nslot : Nat) (p : Bytes) : Request :=
  { hdr := { service := code, tenant := 1, nslot := nslot, slot0 := 16, slot1 := 17, slot2 := 18, slot3 := 19 }
    payload := p, via := .eth 0 1, stage := .running 2 none }

/-- A usable key of tenant 1. -/
def key (alg usage : Nat) : Slot :=
  { state := .active, alg := alg, usage := usage, tenant := 1, notAfter := 2 ^ 64 - 1, material := List.replicate 16 7, pub := [1] }

/-- The part with request 7 in hand. -/
def serving (code nslot : Nat) (p : Bytes) (slots : Tab Slot) : State :=
  { up with
    reqs := [(7, job code nslot p)]
    chans := [(2, { data := .inService })]
    ks := { rootsPresent := true, tenants := [(1, { state := .active })], slots := slots, cache := [16, 17, 18, 19] } }

def ended {α : Type} : Stp α → Bool
  | .ok _ _ => true
  | .fail _ _ _ => false

theorem ended_ok {α : Type} {x : Stp α} (h : ended x = true) : ∃ p s, x = .ok p s := by
  cases x with
  | ok p s => exact ⟨p, s, rfl⟩
  | fail a b s => cases h

/-- The octets of a PIN_TRANSLATE request from format 1 to format 1: PIN 1234 under TDES with sixteen bytes 7. -/
def pinOctets : Bytes :=
  octets 48 [(0, 1), (1, 1), (4, 16), (14, 255), (15, 255), (32, 251), (33, 122), (34, 60), (35, 139), (36, 125), (37, 160), (38, 229), (39, 175)]

/-- The public key of the P-384 key 1, and its signature of a message. -/
def gPub : Bytes := p384.encode p384.base
def gSign (m : Bytes) : Bytes := p384.sign (beBytes 48 1) (digest 2 m 0) []

/-- A rule of the access table over every channel SRAM, and all rights. -/
def openAcl : Acl :=
  { committed := true, live := { rules := [(0, BitVec.ofNat 128 (0x100000000 + 0x1FFFFFFFF * 2 ^ 48 + 2 ^ 104))], profiles := [(0, 0xFFFFFFFFFFFFFFFFFFFFFFFFFFFFFFFFFFFFFFFFFFFFFFFFFFFFFFFFFFFFFFFFFFFFFFFFFFFFFFFFFFFFFFFFFFFFFFFFFFFFFFFFFFFFFFFFFFFFFFFFFFFFFFFF#512)] } }

/-- A core that runs at level 0, with all of its channel's SRAM under its segments. -/
def runs : Core :=
  { run := .running, status := { iml := 0 }, sg := (List.range 8).map (fun i => (i, mkSeg 0 0x3FFFFF 3 true true true true)) }

/-- Core 0 in service as `k`, with `b` at an offset of its SRAM. -/
def coreAt (k : Core) (off : Nat) (b : Bytes) : State :=
  { up with cores := [(0, k)], acl := openAcl, mem := memPut [] (0x100000000 + off) b }

/-- A stack segment of level `l`. -/
def stackSeg (l : Nat) : BitVec 128 := mkSeg 0 0x3FFFFF l true false true true

theorem issues : Issues 0 ⟨0, false⟩ (coreAt runs 0 []) := by
  refine ⟨?_, ?_, ?_, ?_, ?_⟩ <;> decide +kernel

theorem ownSram (k : AccKind) (h : accessVerdict (coreAt runs 0 []) 0 k 64 8 = none) : OwnSramAt (coreAt runs 0 []) 0 64 k 8 0x100000040 :=
  ⟨by decide +kernel, by decide +kernel, 64, by decide +kernel, by decide +kernel, h, by decide +kernel⟩

theorem next_running {x : Res} (h : (match x with | .next t => decide ((t.core 0).run = .running) | _ => false) = true) :
    ∃ u, x = .next u ∧ (u.core 0).run = .running := by
  cases x with
  | next u => exact ⟨u, rfl, of_decide_eq_true h⟩
  | fault f => cases h
  | refused f => cases h

/-- Core 0 halted under debug before ADD g0, g0, g0. -/
def debugged : State :=
  { coreAt { runs with run := .halted, haltedFrom := .running } 0 (leBytes 8 (2 ^ 54)) with life := { state := .initial }, chans := [(0, { data := .restTest })] }

/-- The part with management session 3 open as `k`. -/
def asked (k : MgSess) (s : State) : State := { s with mgmt := { s.mgmt with sess := [(3, k)] } }


/-- A chain of one entry holds. -/
theorem chain_of_one (e : Entry) (s : State) (h : s.pat.blocks = []) (hb : s.pat.buffer = [e]) (he : e.link = s.pat.headLink)
    (hs : e.seq = s.pat.headSeq) (hl : linkAfter (linkZero s) e = e.link) : chainBad s = none := by
  simp [chainBad, retained, h, hb, chainBadFrom, hl, he, hs]

/-- Session and peer fields that the terms below take. -/
def peer : Peer := ⟨0, 0, 0, 0, 0⟩

-- Each kind of check of WellFormed refuses a command that breaks it.

theorem test_ill_formed_units :
    wellFormed (.returnComplete 9) = false ∧ wellFormed (.selfTestComplete 0 15 0 [] [] []) = false ∧
    wellFormed (.ethFrameReceive 4 true []) = false ∧ wellFormed (.ringEnable 8 0 0) = false ∧ wellFormed (.ringEnable 0 256 0) = false ∧
    wellFormed (.reseedIntervalReached 12 0) = false ∧ wellFormed (.cellSeedArrival 0 512 0) = false ∧ wellFormed (.pendWrite 0 16 0) = false ∧
    wellFormed (.portSignalDetect 3) = false ∧ wellFormed (.alarmReport 0x25 []) = false ∧ wellFormed (.officerCardRemove 2) = false ∧
    wellFormed (.sharedBlockTestSlice 11 0 true false) = false ∧ wellFormed (.stateDivergence 4 0) = false ∧ wellFormed (.begin 32) = false ∧
    wellFormed (.patinaBufferWrite 0) = false ∧ wellFormed (.tampInSample 4 true 0) = false := by
  refine ⟨?_, ?_, ?_, ?_, ?_, ?_, ?_, ?_, ?_, ?_, ?_, ?_, ?_, ?_, ?_, ?_⟩ <;> decide

theorem test_ill_formed_fields :
    wellFormed (.sessionIdleTimeout (.eth (2 ^ 32))) = false ∧ wellFormed (.sessionIdleTimeout (.ring 8 0)) = false ∧
    wellFormed (.sessionIdleTimeout (.mgmt 32)) = false ∧ wellFormed (.plinthLinkFrame true true [] [] []) = false ∧
    wellFormed (.ethFrameReceive 0 true (List.replicate 1519 0)) = false ∧ wellFormed (.arpRequest 0 (2 ^ 48) 0 0) = false ∧
    wellFormed (.arpRequest 0 0 (2 ^ 128) 0) = false ∧ wellFormed (.hello { peer with dscp := 64 } []) = false ∧
    wellFormed (.confirm peer 0 (2 ^ 64) [] (zeros 16)) = false ∧ wellFormed (.customerServiceProgram 0 [] 3 0 []) = false ∧
    wellFormed (.customerServiceProgram 0 [] 0 65536 []) = false ∧ wellFormed (.cipherCompletion 0 0 0 4) = false ∧
    wellFormed (.canFrameReceive false false (2 ^ 29) []) = false ∧ wellFormed (.canFrameReceive false false 0 (zeros 9)) = false ∧
    wellFormed (.alarmReport 0 (zeros 17)) = false := by
  refine ⟨?_, ?_, ?_, ?_, ?_, ?_, ?_, ?_, ?_, ?_, ?_, ?_, ?_, ?_, ?_⟩ <;> decide +kernel

theorem test_ill_formed_accesses :
    wellFormed (.submit 72 0) = false ∧ wellFormed (.submit 0 (2 ^ 22)) = false ∧ wellFormed (.memRd 3 0) = false ∧ wellFormed (.memRd 8 4) = false ∧
    wellFormed (.memWr 1 0 256) = false ∧ wellFormed (.aclShadowWrite 0 3 0) = false ∧ wellFormed (.aclShadowWrite 4 8 0) = false ∧
    wellFormed (.sramPatrolScrub 0 524288 .clean) = false ∧ wellFormed (.ddrPatrolScrub 32 .clean) = false ∧ wellFormed (.registerWrite 0 0 4 (2 ^ 32)) = false := by
  refine ⟨?_, ?_, ?_, ?_, ?_, ?_, ?_, ?_, ?_, ?_⟩ <;> decide +kernel

theorem test_ill_formed_instructions :
    wellFormed (.cmp 0 ⟨0, false⟩ 3 3 0 (.reg 0) .eq false) = false ∧ wellFormed (.fmac 0 ⟨0, false⟩ 0 0 0 0 1 false) = false ∧
    wellFormed (.bcopy 0 ⟨0, false⟩ 0 0 0 0 0 (2 ^ 26 + 1)) = false ∧ wellFormed (.udf 0 (2 ^ 54)) = false ∧
    wellFormed (.reservedEncoding 0 (2 ^ 54)) = false := by
  refine ⟨?_, ?_, ?_, ?_, ?_⟩ <;> decide +kernel

-- Words of the Ortan instructions, field by field after Tables 09-5 to 09-15.

/-- Table 09-7 (ALUI, SUB with W), Table 09-9 (PANDN, PSET), Table 09-10 (MULU64, MOVMH). -/
theorem test_words_of_values :
    Ortan.decode 1 0b001_1_000010_00011_00100_1_0000001_0000_11111111111111111111111111111111 = .sub 1 ⟨1, true⟩ 3 4 (.imm 0xFFFFFFFF) true ∧
    Ortan.decode 0 0b000_0_001001_001_010_011_0011_00000_000000000000000000000000000000000000 = .pandn 0 ⟨0, false⟩ 1 2 3 ∧
    Ortan.decode 0 0b000_0_001001_000_000_000_0101_11111_000000000000000000000000000000000000 = .pset 0 ⟨0, false⟩ 31 ∧
    Ortan.decode 0 0b000_0_001100_00011_00001_00010_00000011_0000000000000000000000000000000 = .mulu64 0 ⟨0, false⟩ 3 1 2 ∧
    Ortan.decode 0 0b000_0_001100_10000_00010_00000_00010001_0000000000000000000000000000000 = .movmh 0 ⟨0, false⟩ 16 2 := by
  refine ⟨?_, ?_, ?_, ?_, ?_⟩ <;> decide +kernel

/-- Format M (ST, FADD.D), format F (FEXT), format K (BCMPEQ), format S (MOVRC, SGLD, WAIT), and a reserved field. -/
theorem test_words_of_the_machine :
    Ortan.decode 0 0b000_0_010001_00001_00010_011_10_0_000000_00000000000000000000000000010000 = .st 0 ⟨0, false⟩ 1 2 3 2 16 ∧
    Ortan.decode 0 0b000_0_010010_00001_00010_011_11_0_000001_00000000000000000000000000001000 = .fadd 0 ⟨0, false⟩ 1 2 3 true 8 ∧
    Ortan.decode 0 0b000_0_011000_00101_10_00000_00000_001_10_1_0101_000111_000000000000000000000 = .fext 0 ⟨0, false⟩ 5 2 .q31 2 true 7 ∧
    Ortan.decode 0 0b000_0_011100_00001_00010_00011_001_010_0010_101_00000000000000000000000000 = .bcmpeq 0 ⟨0, false⟩ 1 2 3 1 2 5 Ortan.allUnits ∧
    Ortan.decode 0 0b000_0_100000_00111_00000_00000111_00000000000000000000_0000000000010000 = .movrc 0 ⟨0, false⟩ 7 16 ∧
    Ortan.decode 0 0b000_0_100000_00000_00111_00001000_00000000000000000000_0000000100000010 = .sgld 0 ⟨0, false⟩ 7 2 1 ∧
    Ortan.decode 0 0b000_0_100000_00000_00000_00001100_00000000000000000000_0000000000000000 = .wait 0 ⟨0, false⟩ ∧
    Ortan.decode 0 0b000_0_100000_00000_00000_00001100_00000000000000000000_0000000000000001 =
      .reservedEncoding 0 0b000_0_100000_00000_00000_00001100_00000000000000000000_0000000000000001 := by
  refine ⟨?_, ?_, ?_, ?_, ?_, ?_, ?_, ?_⟩ <;> decide +kernel

-- One step.

/-- R317: ADD wraps, and only the destination changes. -/
theorem test_add_wraps :
    (match step { coreAt { runs with g := [(2, 0xFFFFFFFFFFFFFFFF), (3, 2)] } 0 [] with pending := [.add 0 ⟨0, false⟩ 1 2 (.reg 3) false, .program] } with
     | .next t => decide ((t.core 0).g = [(1, 1), (2, 0xFFFFFFFFFFFFFFFF), (3, 2)]) && decide (t.pending = [.program])
     | _ => false) = true := by decide +kernel

/-- R317: the 32-bit form sign-extends its result. -/
theorem test_add_word_sign :
    (match exec (.add 0 ⟨0, false⟩ 1 2 (.imm 1) true) (coreAt { runs with g := [(2, 0x7FFFFFFF)] } 0 []) with
     | .next t => decide ((t.core 0).g = [(1, 0xFFFFFFFF80000000), (2, 0x7FFFFFFF)])
     | _ => false) = true := by decide +kernel

/-- R332: a store writes its bytes little-endian. -/
theorem test_store_bytes :
    (match exec (.st 0 ⟨0, false⟩ 1 2 3 1 0) (coreAt { runs with g := [(1, 0x1234), (2, 64)] } 0 []) with
     | .next t => decide (t.mem = [(0x100000040, 0x34), (0x100000041, 0x12)])
     | _ => false) = true := by decide +kernel

/-- R484, R493: an alarm's report makes it ACTIVE and opens a decision window. -/
theorem test_alarm_report :
    (match exec (.alarmReport 5 [1]) up with
     | .next t => decide ((t.alarm 5).state = .active) && t.window.isSome
     | _ => false) = true := by decide +kernel

-- Vectors of the standards that the spec names.

/-- FIPS 197, Appendix C.3. -/
theorem test_aes256 : blockE 0x220 (beBytes 32 0x000102030405060708090A0B0C0D0E0F101112131415161718191A1B1C1D1E1F) (beBytes 16 0x00112233445566778899AABBCCDDEEFF) =
    beBytes 16 0x8EA2B7CA516745BFEAFC49904B496089 := by decide +kernel

theorem test_aes256_back : blockD 0x220 (beBytes 32 0x000102030405060708090A0B0C0D0E0F101112131415161718191A1B1C1D1E1F)
    (beBytes 16 0x8EA2B7CA516745BFEAFC49904B496089) = beBytes 16 0x00112233445566778899AABBCCDDEEFF := by decide +kernel

/-- A worked single-DES example in wide use. -/
theorem test_des : blockE 0x108 (beBytes 8 0x133457799BBCDFF1) (beBytes 8 0x0123456789ABCDEF) = beBytes 8 0x85E813540F0AB405 := by decide +kernel

/-- NIST SP 800-38B, the AES-128 example of 40 bytes. -/
theorem test_cmac : cmac 0x210 (beBytes 16 0x2B7E151628AED2A6ABF7158809CF4F3C)
    (beBytes 40 0x6BC1BEE22E409F96E93D7E117393172AAE2D8A571E03AC9C9EB76FAC45AF8E5130C81C46A35CE411) = beBytes 16 0xDFA66747DE9AE63030CA32611497C827 := by
  decide +kernel

/-- RFC 3394, section 4.1. -/
theorem test_kw : kwWrap (beBytes 16 0x000102030405060708090A0B0C0D0E0F) (beBytes 16 0x00112233445566778899AABBCCDDEEFF) =
    beBytes 24 0x1FA68B0A8112B447AEF34BD8FB5A7B829D3E862371D2CFE5 := by decide +kernel

/-- NIST SP 800-38G, sample 2: ten digits under a tweak. -/
theorem test_ff1 : ff1 false (beBytes 16 0x2B7E151628AED2A6ABF7158809CF4F3C) 10 (beBytes 10 0x39383736353433323130) [0, 1, 2, 3, 4, 5, 6, 7, 8, 9] =
    [6, 1, 2, 4, 2, 0, 0, 7, 7, 3] := by decide +kernel

/-- ANSI X9.24-3, the AES-128 test case: the PIN encryption key of counter 1. -/
theorem test_dukpt : dukpt (beBytes 16 0xFEDCBA9876543210F1F1F1F1F1F1F1F1) (beBytes 12 0x123456789012345600000001) 0x210 3 =
    beBytes 16 0xAF8CB133A78F8DC2D1359F18527593FB := by decide +kernel

/-- FIPS 180-4 and FIPS 202: the digests of "abc". -/
theorem test_sha384 : digest 2 [0x61, 0x62, 0x63] 0 =
    beBytes 48 0xCB00753F45A35E8BB5A03D699AC65007272C32AB0EDED1631A8B605A43FF5BED8086072BA1E7CC2358BAECA134C825A7 := by decide +kernel

theorem test_sha3 : digest 0x11 [0x61, 0x62, 0x63] 0 = beBytes 32 0x3A985DA74FE225B2045C172D6BD390BD855F086E3E9D525B46BFE24511431532 := by
  decide +kernel

/-- FIPS 186-5: a signature of the P-384 key 1 verifies, and not for another digest. -/
theorem test_ecdsa : pkVerify 2 2 false gPub (digest 2 [1] 0) [] (gSign [1]) = true ∧ pkVerify 2 2 false gPub (digest 2 [2] 0) [] (gSign [1]) = false := by
  decide +kernel

-- What meets the hypotheses of each statement.

theorem test_met_ClearKeysAndLink :
    (∃ (header : Bytes), ∃ (payload : Bytes), ∃ (tag : Bytes), ∃ (s : State), s.plink.state = .up ∧ linkTag (leBytes 32 s.plink.linkKey.toNat) true s.plink.main.rxCtr header (linkCrypt (leBytes 32 s.plink.linkKey.toNat) true s.plink.main.rxCtr payload) = tag) ∧
    (∃ (header : Bytes), ∃ (payload : Bytes), ∃ (tag : Bytes), ∃ (s : State), s.plink.state = .up ∧ linkTag (leBytes 32 s.plink.linkKey.toNat) false s.plink.plinth.rxCtr header (linkCrypt (leBytes 32 s.plink.linkKey.toNat) false s.plink.plinth.rxCtr payload) = tag) ∧
    (∃ (s : State), s.plink.state = .up) ∧
    (∃ (s : State), s.plink.state = .up) ∧
    (∃ (s : State), s.plink.state = .retrain) ∧
    (∃ (s : State), s.plink.state = .retrain ∧ 3 ≤ s.plink.retrains ∧ s.time < s.plink.windowStart + 10000000) ∧
    (∃ (l0 : Bool), ∃ (l1 : Bool), ∃ (l2 : Bool), 2 ≤ (ClearLines.mk l0 l1 l2).count) ∧
    (∃ (l0 : Bool), ∃ (l1 : Bool), ∃ (l2 : Bool), ∃ (s : State), watching s = true ∧ ((ClearLines.mk l0 l1 l2).count = 1 ∨ (ClearLines.mk l0 l1 l2).count = 2)) :=
  ⟨(⟨[], [], _, { up with plink := { state := .up } }, by decide +kernel, rfl⟩),
   (⟨[], [], _, { up with plink := { state := .up } }, by decide +kernel, rfl⟩),
   (⟨{ up with plink := { state := .up } }, by decide +kernel⟩),
   (⟨{ up with plink := { state := .up } }, by decide +kernel⟩),
   (⟨{ up with plink := { state := .retrain } }, by decide +kernel⟩),
   (⟨{ up with plink := { state := .retrain, retrains := 3 } }, by decide +kernel, by decide +kernel, by decide +kernel⟩),
   (⟨true, true, false, by decide +kernel⟩),
   (⟨true, false, false, up, by decide +kernel, by decide +kernel⟩)⟩

theorem test_met_ChannelMoves :
    (∃ (s : State), ∃ (r : Nat), s.rest.channel = r ∧ r < 9 ∧ healthyCount s = 9 ∧ (s.chan r).data = .restStandby ∧ s.rest.next = none ∧ s.supRestarting = false ∧ s.rest.start + s.rest.period * 1000000000 ≤ s.time ∧ restTarget s ≠ r ∧ haltedCore s r = false) ∧
    (∃ (n : Nat), ∃ (s : State), (s.chan n).data = .draining ∧ runningOn s n = [] ∧ drainsForBank s n = false ∧ haltedCore s n = false) ∧
    (∃ (n : Nat), ∃ (k : Nat), ∃ (s : State), (s.chan n).data = .returning ∧ k ≠ n ∧ (s.chan k).data = .inService ∧ s.rest.next = some k ∧ haltedCore s n = false ∧ haltedCore s k = false) ∧
    (∃ (n : Nat), ∃ (s : State), (s.chan n).data = .restTest ∧ (s.chan n).testPhase ≠ 0 ∧ (s.chan n).spareRows ≤ 64 ∧ haltedCore s n = false ∧ 8 ≤ serviceCount s ∧ s.life.act = 0 ∧ s.rest.reqUrgent = none) ∧
    (∃ (n : Nat), ∃ (s : State), (s.chan n).data = .restTest ∧ (s.chan n).abandon = true ∧ (s.chan n).lastPassed = true ∧ haltedCore s n = false) :=
  ⟨(⟨{ up with time := 60000000000, rest := { channel := 3 }, chans := (List.range 9).map (fun n => (n, { data := if n = 3 then .restStandby else .inService })) }, 3, by decide +kernel, by decide +kernel, by decide +kernel, by decide +kernel, by decide +kernel, by decide +kernel, by decide +kernel, by decide +kernel, by decide +kernel⟩),
   (⟨3, { up with chans := [(3, { data := .draining })] }, by decide +kernel, by decide +kernel, by decide +kernel, by decide +kernel⟩),
   (⟨3, 4, { up with rest := { channel := 3, next := some 4 }, chans := [(3, { data := .returning }), (4, { data := .inService })] }, by decide +kernel, by decide +kernel, by decide +kernel, by decide +kernel, by decide +kernel, by decide +kernel⟩),
   (⟨3, { up with chans := (List.range 9).map (fun n => (n, { data := if n = 3 then .restTest else .inService, testPhase := 1 })) }, by decide +kernel, by decide +kernel, by decide +kernel, by decide +kernel, by decide +kernel, by decide +kernel, by decide +kernel⟩),
   (⟨3, { up with chans := [(3, { data := .restTest, abandon := true })] }, by decide +kernel, by decide +kernel, by decide +kernel, by decide +kernel⟩)⟩

theorem test_met_ChannelDuties :
    (∃ (n : Nat), n < 9) ∧
    (∃ (n : Nat), n < 9) ∧
    (∃ (r : Nat), ∃ (q : Request), ∃ (s : State), ∃ (n : Nat), ∃ (c : Nat), s.req? r = some q ∧ q.stage = .running n (some c) ∧ q.ready = false) ∧
    (∃ (s : State), s.supRestarting = false ∧ ((∃ n, n < 9 ∧ (s.chan n).data = .inService))) :=
  ⟨(⟨0, by decide +kernel⟩),
   (⟨8, by decide +kernel⟩),
   (⟨7, { hdr := {}, via := .eth 0 1, stage := .running 2 (some 5) }, { up with reqs := [(7, { hdr := {}, via := .eth 0 1, stage := .running 2 (some 5) })] }, 2, 5, by decide +kernel, by decide +kernel, by decide +kernel⟩),
   (⟨{ up with chans := [(2, { data := .inService })] }, by decide +kernel, ⟨2, by decide +kernel, by decide +kernel⟩⟩)⟩

theorem test_met_NetworkPorts :
    (∃ (port : Nat), ∃ (target : Nat), ∃ (s : State), ownIp4 s port = some target) ∧
    (∃ (port : Nat), ∃ (target : Nat), ∃ (s : State), ownIp6 s port = some target) ∧
    (∃ (port : Nat), ∃ (ip : Nat), ∃ (target : Nat), ∃ (s : State), isOwn s port target = true ∧ s.cfgB (0x1020 + port) 7 = true ∧ ip < 2 ^ 32) ∧
    (∃ (port : Nat), ∃ (frame : Bytes), ∃ (b : Bytes), ∃ (s : State), port < 4 ∧ (s.port port).up = true ∧ untag s port frame = some (0x0800, b) ∧ 14 ≤ frame.length) ∧
    (∃ (port : Nat), ∃ (frame : Bytes), ∃ (b : Bytes), ∃ (s : State), port < 4 ∧ (s.port port).up = true ∧ untag s port frame = some (0x86DD, b) ∧ 14 ≤ frame.length) ∧
    (∃ (p : Nat), ∃ (s : State), p < 4 ∧ (s.port p).up = true) ∧
    (∃ (p : Nat), ∃ (s : State), p < 4 ∧ (s.port p).up = false ∧ (s.port p).disabled = false ∧ (s.port p).held = []) ∧
    (∃ (p : Nat), p < 4) ∧
    (∃ (p : Nat), p < 4) :=
  ⟨(⟨0, 167772161, { up with od := [(odKey 0x1020 1, 167772161)] }, by decide +kernel⟩),
   (⟨0, _, { up with odb := [(odKey 0x1020 2, List.replicate 16 1)] }, rfl⟩),
   (⟨0, 0, 167772161, { up with od := [(odKey 0x1020 1, 167772161), (odKey 0x1020 7, 1)] }, by decide +kernel, by decide +kernel, by decide +kernel⟩),
   (⟨0, List.replicate 12 0 ++ beBytes 2 0x0800 ++ List.replicate 46 0, List.replicate 46 0, { up with eth := [(0, { up := true })] }, by decide +kernel, by decide +kernel, by decide +kernel, by decide +kernel⟩),
   (⟨0, List.replicate 12 0 ++ beBytes 2 0x86DD ++ List.replicate 46 0, List.replicate 46 0, { up with eth := [(0, { up := true })] }, by decide +kernel, by decide +kernel, by decide +kernel, by decide +kernel⟩),
   (⟨3, { up with eth := [(3, { up := true })] }, by decide +kernel, by decide +kernel⟩),
   (⟨3, up, by decide +kernel, by decide +kernel, by decide +kernel, by decide +kernel⟩),
   (⟨0, by decide +kernel⟩),
   (⟨3, by decide +kernel⟩)⟩

theorem test_met_SessionHandshake :
    (∃ (p : Peer), ∃ (body : Bytes), ∃ (s : State), ∃ (k : Slot), ∃ (s' : State), helloGood body = true ∧ helloRefused s = none ∧ s.sessions.length < 4096 ∧ (s.sessions.filter (fun e => e.2.state = .handshake && e.2.port = p.port)).length < s.cfg (0x1020 + p.port) 8 ∧ peerKey (leAt body 4 4) s = (.ok k, s')) ∧
    (∃ (sid : Nat), ∃ (seq : Nat), ∃ (body : Bytes), ∃ (tag : Bytes), ∃ (s : State), ∃ (k : Session), s.session? sid = some k ∧ k.state = .handshake ∧ k.reasm = none ∧ seqOk k.rxHigh k.rxSeen seq = true ∧ tagOk k.keyIn k.ivIn 3 0 sid seq (gcmCrypt k.keyIn (k.ivIn ++ leBytes 8 seq) body) tag = true ∧ confirmGood k body s = true) :=
  ⟨(⟨{ port := 0, mac := 1, ip := 2, udp := 3, dscp := 0 }, octets 144 [(0, 1), (4, 16)], { up with chans := [(2, { data := .inService })], ks := { rootsPresent := true, tenants := [(1, { state := .active })], slots := [(16, key 0x1102 0x80000)], cache := [16] } }, _, _, by decide +kernel, by decide +kernel, by decide +kernel, by decide +kernel, rfl⟩),
   (⟨9, 1, gSign [], _, { up with time := 100000000000000, sessions := [(9, { keyIn := [1], peerSlot := 16 })], ks := { slots := [(16, { pub := gPub })] } }, { keyIn := [1], peerSlot := 16 }, by decide +kernel, by decide +kernel, by decide +kernel, by decide +kernel, by simp only [tagOk, List.isEmpty_cons, Bool.not_false, Bool.true_and, decide_eq_true_eq]; rfl, by decide +kernel⟩)⟩

theorem test_met_SessionTraffic :
    (∃ (sid : Nat), ∃ (seq : Nat), ∃ (body : Bytes), ∃ (tag : Bytes), ∃ (s : State), ∃ (k : Session), s.session? sid = some k ∧ k.state = .open ∧ k.reasm = none ∧ seqOk k.rxHigh k.rxSeen seq = true ∧ tagOk k.keyIn k.ivIn 0x10 0 sid seq (gcmCrypt k.keyIn (k.ivIn ++ leBytes 8 seq) body) tag = true) ∧
    (∃ (sid : Nat), ∃ (seq : Nat), ∃ (body : Bytes), ∃ (tag : Bytes), ∃ (s : State), ∃ (k : Session), s.session? sid = some k ∧ k.state = .open ∧ k.reasm = none ∧ seqOk k.rxHigh k.rxSeen seq = true ∧ tagOk k.keyIn k.ivIn 0x20 0 sid seq (gcmCrypt k.keyIn (k.ivIn ++ leBytes 8 seq) body) tag = true) ∧
    (∃ (sid : Nat), ∃ (seq : Nat), ∃ (tag : Bytes), ∃ (s : State), ∃ (k : Session), s.session? sid = some k ∧ k.state = .open ∧ k.reasm = none ∧ seqOk k.rxHigh k.rxSeen seq = true ∧ tagOk k.keyIn k.ivIn 0x21 0 sid seq (gcmCrypt k.keyIn (k.ivIn ++ leBytes 8 seq) []) tag = true) ∧
    (∃ (sid : Nat), ∃ (s : State), ∃ (k : Session), s.session? sid = some k ∧ k.state = .handshake ∧ k.helloReply ≠ [] ∧ k.opened + 1000000000 ≤ s.time) ∧
    (∃ (sid : Nat), ∃ (s : State), ∃ (k : Session), ∃ (no : Nat), ∃ (c : Bytes), ∃ (n : Nat), ∃ (t0 : Nat), ∃ (nx : Nat), s.session? sid = some k ∧ k.reasm = some (no, c, n, t0, nx) ∧ t0 + 1000000 ≤ s.time) ∧
    (∃ (sid : Nat), ∃ (s : State), ∃ (k : Session), s.session? sid = some k ∧ k.state = .open ∧ k.lastRx + s.cfg 0x1028 2 * 1000000000 ≤ s.time) ∧
    (∃ (sid : Nat), ∃ (s : State), ∃ (k : Session), s.session? sid = some k ∧ k.state = .open ∧ k.opened + s.cfg 0x1028 1 * 1000000000 ≤ s.time + 60000000000) ∧
    (∃ (sid : Nat), ∃ (s : State), ∃ (k : Session), s.session? sid = some k ∧ k.state = .open ∧ k.opened + s.cfg 0x1028 1 * 1000000000 ≤ s.time) ∧
    (∃ (sid : Nat), ∃ (s : State), ∃ (k : Session), s.session? sid = some k ∧ k.state = .ended ∧ k.endedAt + 1000000000 ≤ s.time) ∧
    (∃ (m : Nat), ∃ (s : State), ∃ (k : MgSess), s.mgSess m = some k ∧ k.handshake = true ∧ k.openedAt + 1000000000 ≤ s.time) :=
  ⟨(⟨9, 1, [1], _, { up with time := 100000000000000, sessions := [(9, { state := .open, keyIn := [1] })] }, { state := .open, keyIn := [1] }, by decide +kernel, by decide +kernel, by decide +kernel, by decide +kernel, by simp only [tagOk, List.isEmpty_cons, Bool.not_false, Bool.true_and, decide_eq_true_eq]; rfl⟩),
   (⟨9, 1, [1], _, { up with time := 100000000000000, sessions := [(9, { state := .open, keyIn := [1] })] }, { state := .open, keyIn := [1] }, by decide +kernel, by decide +kernel, by decide +kernel, by decide +kernel, by simp only [tagOk, List.isEmpty_cons, Bool.not_false, Bool.true_and, decide_eq_true_eq]; rfl⟩),
   (⟨9, 1, _, { up with time := 100000000000000, sessions := [(9, { state := .open, keyIn := [1] })] }, { state := .open, keyIn := [1] }, by decide +kernel, by decide +kernel, by decide +kernel, by decide +kernel, by simp only [tagOk, List.isEmpty_cons, Bool.not_false, Bool.true_and, decide_eq_true_eq]; rfl⟩),
   (⟨9, { up with time := 100000000000000, sessions := [(9, { helloReply := [1] })] }, { helloReply := [1] }, by decide +kernel, by decide +kernel, by decide +kernel, by decide +kernel⟩),
   (⟨9, { up with time := 100000000000000, sessions := [(9, { reasm := some (1, [1], 2, 0, 5) })] }, { reasm := some (1, [1], 2, 0, 5) }, 1, [1], 2, 0, 5, by decide +kernel, by decide +kernel, by decide +kernel⟩),
   (⟨9, { up with time := 100000000000000, sessions := [(9, { state := .open, keyIn := [1] })] }, { state := .open, keyIn := [1] }, by decide +kernel, by decide +kernel, by decide +kernel⟩),
   (⟨9, { up with time := 100000000000000, sessions := [(9, { state := .open, keyIn := [1] })] }, { state := .open, keyIn := [1] }, by decide +kernel, by decide +kernel, by decide +kernel⟩),
   (⟨9, { up with time := 100000000000000, sessions := [(9, { state := .open, keyIn := [1] })] }, { state := .open, keyIn := [1] }, by decide +kernel, by decide +kernel, by decide +kernel⟩),
   (⟨9, { up with time := 100000000000000, sessions := [(9, { state := .ended })] }, { state := .ended }, by decide +kernel, by decide +kernel, by decide +kernel⟩),
   (⟨3, { up with time := 1000000000, mgmt := { sess := [(3, { handshake := true })] } }, { handshake := true }, by decide +kernel, by decide +kernel, by decide +kernel⟩)⟩

theorem test_met_RespondAnswers :
    (∃ (r : Nat), ∃ (s : State), ∃ (q : Request), ∃ (n : Nat), ∃ (c : Option Nat), s.req? r = some q ∧ q.stage = .running n c ∧ q.ready = true ∧ ((∀ ring a b, q.via ≠ .internal ring a b))) :=
  (⟨7, { serving 0x0101 0 [] [] with reqs := [(7, { job 0x0101 0 [] with ready := true })] }, { job 0x0101 0 [] with ready := true }, 2, none, by decide +kernel, by decide +kernel, by decide +kernel, fun _ _ _ h => nomatch h⟩)

theorem test_met_RingsAndFunctions :
    (∃ (f : Nat), ∃ (r : Nat), ∃ (cfg : Nat), ∃ (s : State), f < 8 ∧ r < 256 ∧ (s.ring f r).state = .disabled ∧ bit cfg 31 = true ∧ ringConfigGood s f cfg (s.ring f r).reqBase (s.ring f r).cplBase = true) ∧
    (∃ (f : Nat), ∃ (r : Nat), ∃ (cfg : Nat), ∃ (s : State), f < 8 ∧ r < 256 ∧ (s.ring f r).state = .disabled ∧ bit cfg 31 = true ∧ ringConfigGood s f cfg (s.ring f r).reqBase (s.ring f r).cplBase = false) ∧
    (∃ (f : Nat), ∃ (r : Nat), ∃ (s : State), (s.ring f r).state = .open ∧ ringReqs s f r = []) ∧
    (∃ (f : Nat), ∃ (r : Nat), ∃ (v : Nat), ∃ (s : State), f < 8 ∧ r < 256 ∧ ringLive (s.ring f r).state = true ∧ (v % 2 ^ 32 + 2 ^ 32 - (s.ring f r).reqCi) % 2 ^ 32 ≤ ringSize (s.ring f r).cfgIn) ∧
    (∃ (f : Nat), ∃ (r : Nat), ∃ (v : Nat), ∃ (s : State), f < 8 ∧ r < 256 ∧ ringLive (s.ring f r).state = true ∧ ringSize (s.ring f r).cfgIn < (v % 2 ^ 32 + 2 ^ 32 - (s.ring f r).reqCi) % 2 ^ 32) ∧
    (∃ (f : Nat), ∃ (r : Nat), ∃ (v : Nat), ∃ (s : State), f < 8 ∧ r < 256 ∧ ringLive (s.ring f r).state = true ∧ ((s.ring f r).cplPi + 2 ^ 32 - v % 2 ^ 32) % 2 ^ 32 < 2 ^ 31) ∧
    (∃ (f : Nat), ∃ (r : Nat), ∃ (ra : Nat), ∃ (rsp : Nat), ∃ (len : Nat), ∃ (s : State), mayFetch (s.ring f r) = true ∧ ra % 8 = 0 ∧ rsp % 8 = 0 ∧ 40 ≤ len ∧ len ≤ 16496) ∧
    (∃ (f : Nat), ∃ (r : Nat), ∃ (ra : Nat), ∃ (rsp : Nat), ∃ (len : Nat), ∃ (s : State), mayFetch (s.ring f r) = true ∧ ra % 8 = 0 ∧ rsp % 8 = 0 ∧ 40 ≤ len ∧ len ≤ 16496) ∧
    (∃ (f : Nat), ∃ (r : Nat), ∃ (s : State), ∃ (tag : Nat), ∃ (ra : Nat), ∃ (len : Nat), ∃ (addr : Nat), ∃ (cap : Nat), ∃ (rest : List (Nat × Nat × Nat × Nat × Nat)), (s.ring f r).fetched = (tag, ra, len, addr, cap) :: rest ∧ ringLive (s.ring f r).state = true) ∧
    (∃ (f : Nat), ∃ (r : Nat), ∃ (s : State), (s.ring f r).state = .withdrawing ∧ ringReqs s f r = []) ∧
    (∃ (f : Nat), ∃ (r : Nat), ∃ (s : State), (s.ring f r).unsignalled ≠ 0 ∧ bits (s.ring f r).cfgIn 11 8 ≠ 0 ∧ (s.ring f r).oldest + bits (s.ring f r).cfgIn 11 8 * 1000 ≤ s.time) ∧
    (∃ (f : Nat), f < 8) ∧
    (∃ (s : State), s.pcie.perst = true) :=
  ⟨(⟨1, 2, 2 ^ 31, up, by decide +kernel, by decide +kernel, by decide +kernel, by decide +kernel, by decide +kernel⟩),
   (⟨1, 2, 2 ^ 31 + 11, up, by decide +kernel, by decide +kernel, by decide +kernel, by decide +kernel, by decide +kernel⟩),
   (⟨1, 2, { up with time := 1000000, rings := [(258, { state := .open })] }, by decide +kernel, by decide +kernel⟩),
   (⟨1, 2, 64, { up with time := 1000000, rings := [(258, { state := .open })] }, by decide +kernel, by decide +kernel, by decide +kernel, by decide +kernel⟩),
   (⟨1, 2, 65, { up with time := 1000000, rings := [(258, { state := .open })] }, by decide +kernel, by decide +kernel, by decide +kernel, by decide +kernel⟩),
   (⟨1, 2, 0, { up with time := 1000000, rings := [(258, { state := .open })] }, by decide +kernel, by decide +kernel, by decide +kernel, by decide +kernel⟩),
   (⟨1, 2, 8, 8, 16496, { up with time := 1000000, rings := [(258, { state := .open, reqPi := 1 })] }, by decide +kernel, by decide +kernel, by decide +kernel, by decide +kernel, by decide +kernel⟩),
   (⟨1, 2, 0, 8, 40, { up with time := 1000000, rings := [(258, { state := .openNoKey, reqPi := 1 })] }, by decide +kernel, by decide +kernel, by decide +kernel, by decide +kernel, by decide +kernel⟩),
   (⟨1, 2, { up with time := 1000000, rings := [(258, { state := .open, fetched := [(1, 8, 40, 16, 64)] })] }, 1, 8, 40, 16, 64, [], by decide +kernel, by decide +kernel⟩),
   (⟨1, 2, { up with time := 1000000, rings := [(258, { state := .withdrawing })] }, by decide +kernel, by decide +kernel⟩),
   (⟨1, 2, { up with time := 1000000, rings := [(258, { state := .open, unsignalled := 1, cfgIn := 256 })] }, by decide +kernel, by decide +kernel, by decide +kernel⟩),
   (⟨7, by decide +kernel⟩),
   (⟨up, by decide +kernel⟩)⟩

theorem test_met_ServicesAnswer :
    (∃ (r : Nat), ∃ (n : Nat), ∃ (q : Request), ∃ (p : Bytes), ∃ (s : State), ∃ (s' : State), Serving s r 0x0101 n q ∧ pinTranslate n q s = .ok p s') ∧
    (∃ (r : Nat), ∃ (n : Nat), ∃ (q : Request), ∃ (p : Bytes), ∃ (s : State), ∃ (s' : State), Serving s r 0x0102 n q ∧ pinVerify n q s = .ok p s') ∧
    (∃ (r : Nat), ∃ (n : Nat), ∃ (q : Request), ∃ (p : Bytes), ∃ (s : State), ∃ (s' : State), Serving s r 0x0201 n q ∧ arqcVerify n q s = .ok p s') ∧
    (∃ (r : Nat), ∃ (n : Nat), ∃ (q : Request), ∃ (p : Bytes), ∃ (s : State), ∃ (s' : State), Serving s r 0x0301 n q ∧ macService false n q s = .ok p s') ∧
    (∃ (r : Nat), ∃ (n : Nat), ∃ (q : Request), ∃ (p : Bytes), ∃ (s : State), ∃ (s' : State), Serving s r 0x0302 n q ∧ macService true n q s = .ok p s') ∧
    (∃ (r : Nat), ∃ (n : Nat), ∃ (q : Request), ∃ (p : Bytes), ∃ (s : State), ∃ (s' : State), Serving s r 0x0401 n q ∧ dukptIkExport n q s = .ok p s') ∧
    (∃ (r : Nat), ∃ (n : Nat), ∃ (q : Request), ∃ (p : Bytes), ∃ (s : State), ∃ (s' : State), Serving s r 0x0501 n q ∧ cscService false n q s = .ok p s') ∧
    (∃ (r : Nat), ∃ (n : Nat), ∃ (q : Request), ∃ (p : Bytes), ∃ (s : State), ∃ (s' : State), Serving s r 0x0502 n q ∧ cscService true n q s = .ok p s') ∧
    (∃ (r : Nat), ∃ (n : Nat), ∃ (q : Request), ∃ (p : Bytes), ∃ (s : State), ∃ (s' : State), Serving s r 0x0601 n q ∧ ff1Service true n q s = .ok p s') ∧
    (∃ (r : Nat), ∃ (n : Nat), ∃ (q : Request), ∃ (p : Bytes), ∃ (s : State), ∃ (s' : State), Serving s r 0x0602 n q ∧ ff1Service false n q s = .ok p s') ∧
    (∃ (r : Nat), ∃ (n : Nat), ∃ (q : Request), ∃ (p : Bytes), ∃ (s : State), ∃ (s' : State), Serving s r 0x0701 n q ∧ keyDerive n q s = .ok p s') ∧
    (∃ (r : Nat), ∃ (n : Nat), ∃ (q : Request), ∃ (p : Bytes), ∃ (s : State), ∃ (s' : State), Serving s r 0x0803 n q ∧ batchClose r n q s = .ok p s') ∧
    (∃ (r : Nat), ∃ (n : Nat), ∃ (q : Request), ∃ (p : Bytes), ∃ (s : State), ∃ (s' : State), Serving s r 0x0A01 n q ∧ bundleService n q s = .ok p s') :=
  ⟨(let ⟨p, s', h⟩ := ended_ok (x := pinTranslate 2 (job 0x0101 2 (pinOctets)) (serving 0x0101 2 (pinOctets) [(16, key 0x110 0x10), (17, key 0x110 0x20)])) (by decide +kernel)
    ⟨7, 2, _, p, _, s', ⟨rfl, ⟨none, rfl⟩, rfl, rfl⟩, h⟩),
   (let ⟨p, s', h⟩ := ended_ok (x := pinVerify 2 (job 0x0102 2 (octets 88 [(3, 1), (4, 16), (14, 255), (15, 255), (28, 1), (29, 4)])) ({ serving 0x0102 2 (octets 88 [(3, 1), (4, 16), (14, 255), (15, 255), (28, 1), (29, 4)]) [] with svc := { tries := [(tryKey 1 0, 15)] } })) (by decide +kernel)
    ⟨7, 2, _, p, _, s', ⟨rfl, ⟨none, rfl⟩, rfl, rfl⟩, h⟩),
   (let ⟨p, s', h⟩ := ended_ok (x := arqcVerify 2 (job 0x0201 1 (octets 56 [(0, 1), (4, 16), (14, 255), (15, 255), (40, 1)])) (serving 0x0201 1 (octets 56 [(0, 1), (4, 16), (14, 255), (15, 255), (40, 1)]) [(16, key 0x110 0x80)])) (by decide +kernel)
    ⟨7, 2, _, p, _, s', ⟨rfl, ⟨none, rfl⟩, rfl, rfl⟩, h⟩),
   (let ⟨p, s', h⟩ := ended_ok (x := macService false 2 (job 0x0301 1 (octets 56 [(0, 1), (1, 1), (2, 8), (6, 1)])) (serving 0x0301 1 (octets 56 [(0, 1), (1, 1), (2, 8), (6, 1)]) [(16, key 0x210 4)])) (by decide +kernel)
    ⟨7, 2, _, p, _, s', ⟨rfl, ⟨none, rfl⟩, rfl, rfl⟩, h⟩),
   (let ⟨p, s', h⟩ := ended_ok (x := macService true 2 (job 0x0302 1 (octets 56 [(0, 1), (1, 1), (2, 8), (6, 1)])) (serving 0x0302 1 (octets 56 [(0, 1), (1, 1), (2, 8), (6, 1)]) [(16, key 0x210 8)])) (by decide +kernel)
    ⟨7, 2, _, p, _, s', ⟨rfl, ⟨none, rfl⟩, rfl, rfl⟩, h⟩),
   (let ⟨p, s', h⟩ := ended_ok (x := dukptIkExport 2 (job 0x0401 2 (octets 16 [(8, 0x4E)])) (serving 0x0401 2 (octets 16 [(8, 0x4E)]) [(16, key 0x210 0x1000), (17, key 0x210 0x4000)])) (by decide +kernel)
    ⟨7, 2, _, p, _, s', ⟨rfl, ⟨none, rfl⟩, rfl, rfl⟩, h⟩),
   (let ⟨p, s', h⟩ := ended_ok (x := cscService false 2 (job 0x0501 1 (octets 24 [(0, 16), (10, 255), (11, 255), (15, 15), (16, 3)])) (serving 0x0501 1 (octets 24 [(0, 16), (10, 255), (11, 255), (15, 15), (16, 3)]) [(16, key 0x110 0x100)])) (by decide +kernel)
    ⟨7, 2, _, p, _, s', ⟨rfl, ⟨none, rfl⟩, rfl, rfl⟩, h⟩),
   (let ⟨p, s', h⟩ := ended_ok (x := cscService true 2 (job 0x0502 1 (octets 24 [(0, 16), (10, 255), (11, 255), (15, 15), (16, 3), (21, 15), (22, 255), (23, 255)])) (serving 0x0502 1 (octets 24 [(0, 16), (10, 255), (11, 255), (15, 15), (16, 3), (21, 15), (22, 255), (23, 255)]) [(16, key 0x110 0x100)])) (by decide +kernel)
    ⟨7, 2, _, p, _, s', ⟨rfl, ⟨none, rfl⟩, rfl, rfl⟩, h⟩),
   (let ⟨p, s', h⟩ := ended_ok (x := ff1Service true 2 (job 0x0601 1 (octets 72 [(0, 2), (4, 10), (40, 6)])) (serving 0x0601 1 (octets 72 [(0, 2), (4, 10), (40, 6)]) [(16, key 0x210 0x200)])) (by decide +kernel)
    ⟨7, 2, _, p, _, s', ⟨rfl, ⟨none, rfl⟩, rfl, rfl⟩, h⟩),
   (let ⟨p, s', h⟩ := ended_ok (x := ff1Service false 2 (job 0x0602 1 (octets 72 [(0, 2), (4, 10), (40, 6)])) (serving 0x0602 1 (octets 72 [(0, 2), (4, 10), (40, 6)]) [(16, key 0x210 0x400)])) (by decide +kernel)
    ⟨7, 2, _, p, _, s', ⟨rfl, ⟨none, rfl⟩, rfl, rfl⟩, h⟩),
   (let ⟨p, s', h⟩ := ended_ok (x := keyDerive 2 (job 0x0701 2 (octets 160 [(0, 2), (1, 1), (2, 0x10), (3, 2), (4, 4)])) (serving 0x0701 2 (octets 160 [(0, 2), (1, 1), (2, 0x10), (3, 2), (4, 4)]) [(16, key 0x210 0x2000), (17, { state := .empty, tenant := 1 })])) (by decide +kernel)
    ⟨7, 2, _, p, _, s', ⟨rfl, ⟨none, rfl⟩, rfl, rfl⟩, h⟩),
   (let ⟨p, s', h⟩ := ended_ok (x := batchClose 7 2 (job 0x0803 1 (octets 16 [(0, 1)])) ({ serving 0x0803 1 (octets 16 [(0, 1)]) [(16, key 0x1002 0x10000)] with svc := { batches := [(1, { tenant := 1, ref := [], tOpen := 0, last := 0 })] } })) (by decide +kernel)
    ⟨7, 2, _, p, _, s', ⟨rfl, ⟨none, rfl⟩, rfl, rfl⟩, h⟩),
   (let ⟨p, s', h⟩ := ended_ok (x := bundleService 2 (job 0x0A01 4 (octets 136 [(0, 1), (1, 1), (7, 1), (8, 1), (9, 8), (16, 16), (26, 255), (27, 255), (100, 1), (102, 1)])) ({ serving 0x0A01 4 (octets 136 [(0, 1), (1, 1), (7, 1), (8, 1), (9, 8), (16, 16), (26, 255), (27, 255), (100, 1), (102, 1)]) [(16, key 0x110 0x80), (17, key 0 0), (18, key 0 0), (19, key 0x210 8), (20, key 0x210 4), (21, key 0x210 0x200)] with svc := { models := [(0, { version := 1, rounding := 0, satFault := false, c0Claim := false, nv := 0, requiredLen := 0, outputIndex := 0, budget := 0, cost := 0, bodyBytes := 0, imageBytes := 0, features := [], stages := [] })] } })) (by decide +kernel)
    ⟨7, 2, _, p, _, s', ⟨rfl, ⟨none, rfl⟩, rfl, rfl⟩, h⟩)⟩

theorem test_met_ServiceResponses :
    (∃ (n : Nat), ∃ (q : Request), ∃ (s : State), ∃ (p : Bytes), ∃ (s' : State), pinTranslate n q s = .ok p s') ∧
    (∃ (n : Nat), ∃ (q : Request), ∃ (s : State), ∃ (p : Bytes), ∃ (s' : State), macService true n q s = .ok p s') ∧
    (∃ (n : Nat), ∃ (q : Request), ∃ (s : State), ∃ (p : Bytes), ∃ (s' : State), macService false n q s = .ok p s') ∧
    (∃ (n : Nat), ∃ (q : Request), ∃ (s : State), ∃ (p : Bytes), ∃ (s' : State), cscService true n q s = .ok p s') :=
  ⟨(let ⟨p, s', h⟩ := ended_ok (x := pinTranslate 2 (job 0x0101 2 (pinOctets)) (serving 0x0101 2 (pinOctets) [(16, key 0x110 0x10), (17, key 0x110 0x20)])) (by decide +kernel)
    ⟨2, _, _, p, s', h⟩),
   (let ⟨p, s', h⟩ := ended_ok (x := macService true 2 (job 0x0302 1 (octets 56 [(0, 1), (1, 1), (2, 8), (6, 1)])) (serving 0x0302 1 (octets 56 [(0, 1), (1, 1), (2, 8), (6, 1)]) [(16, key 0x210 8)])) (by decide +kernel)
    ⟨2, _, _, p, s', h⟩),
   (let ⟨p, s', h⟩ := ended_ok (x := macService false 2 (job 0x0301 1 (octets 56 [(0, 1), (1, 1), (2, 8), (6, 1)])) (serving 0x0301 1 (octets 56 [(0, 1), (1, 1), (2, 8), (6, 1)]) [(16, key 0x210 4)])) (by decide +kernel)
    ⟨2, _, _, p, s', h⟩),
   (let ⟨p, s', h⟩ := ended_ok (x := cscService true 2 (job 0x0502 1 (octets 24 [(0, 16), (10, 255), (11, 255), (15, 15), (16, 3), (21, 15), (22, 255), (23, 255)])) (serving 0x0502 1 (octets 24 [(0, 16), (10, 255), (11, 255), (15, 15), (16, 3), (21, 15), (22, 255), (23, 255)]) [(16, key 0x110 0x100)])) (by decide +kernel)
    ⟨2, _, _, p, s', h⟩)⟩

theorem test_met_TryCountersAndBatches :
    (∃ (r : Nat), ∃ (n : Nat), ∃ (q : Request), ∃ (s : State), Serving s r 0x0103 n q ∧ q.payload.length = 8 ∧ allZero (slice q.payload 4 4) = true) ∧
    (∃ (r : Nat), ∃ (n : Nat), ∃ (q : Request), ∃ (s : State), Serving s r 0x0801 n q ∧ q.payload.length = 16 ∧ s.svc.batches.length < 4096 ∧ (s.svc.batches.filter (fun e => e.2.tenant = q.hdr.tenant)).length < s.cfg 0x4121 2) ∧
    (∃ (r : Nat), ∃ (n : Nat), ∃ (q : Request), ∃ (b : Batch), ∃ (s : State), Serving s r 0x0802 n q ∧ q.payload.length = 16 + pad8 (leAt q.payload 8 2) ∧ allZero (slice q.payload 10 6) = true ∧ allZero (slice q.payload (16 + leAt q.payload 8 2) (pad8 (leAt q.payload 8 2) - leAt q.payload 8 2)) = true ∧ 0 < leAt q.payload 8 2 ∧ leAt q.payload 8 2 ≤ 16368 ∧ s.batch? (leAt q.payload 0 4) = some b ∧ b.tenant = q.hdr.tenant ∧ b.busy = none ∧ leAt q.payload 4 4 = b.appends + 1) ∧
    (∃ (r : Nat), ∃ (n : Nat), ∃ (q : Request), ∃ (b : Batch), ∃ (s : State), Serving s r 0x0804 n q ∧ q.payload.length = 8 ∧ allZero (slice q.payload 4 4) = true ∧ s.batch? (leAt q.payload 0 4) = some b ∧ b.tenant = q.hdr.tenant ∧ b.busy = none) ∧
    (∃ (h : Nat), ∃ (b : Batch), ∃ (s : State), s.batch? h = some b ∧ b.busy = none ∧ b.last + s.cfg 0x4121 1 * 1000000000 ≤ s.time) :=
  ⟨(⟨7, 2, job 0x0103 0 (octets 8 []), serving 0x0103 0 (octets 8 []) [], ⟨rfl, ⟨none, rfl⟩, rfl, rfl⟩, by decide +kernel, by decide +kernel⟩),
   (⟨7, 2, job 0x0801 0 (octets 16 []), serving 0x0801 0 (octets 16 []) [], ⟨rfl, ⟨none, rfl⟩, rfl, rfl⟩, by decide +kernel, by decide +kernel, by decide +kernel⟩),
   (⟨7, 2, job 0x0802 0 (octets 24 [(0, 1), (4, 1), (8, 1)]), { tenant := 1, ref := [], tOpen := 0, last := 0 }, { serving 0x0802 0 (octets 24 [(0, 1), (4, 1), (8, 1)]) [] with svc := { batches := [(1, { tenant := 1, ref := [], tOpen := 0, last := 0 })] } }, ⟨rfl, ⟨none, rfl⟩, rfl, rfl⟩, by decide +kernel, by decide +kernel, by decide +kernel, by decide +kernel, by decide +kernel, by decide +kernel, by decide +kernel, by decide +kernel, by decide +kernel⟩),
   (⟨7, 2, job 0x0804 0 (octets 8 [(0, 1)]), { tenant := 1, ref := [], tOpen := 0, last := 0 }, { serving 0x0804 0 (octets 8 [(0, 1)]) [] with svc := { batches := [(1, { tenant := 1, ref := [], tOpen := 0, last := 0 })] } }, ⟨rfl, ⟨none, rfl⟩, rfl, rfl⟩, by decide +kernel, by decide +kernel, by decide +kernel, by decide +kernel, by decide +kernel⟩),
   (⟨1, { tenant := 1, ref := [], tOpen := 0, last := 0 }, { up with time := 10 ^ 20, svc := { batches := [(1, { tenant := 1, ref := [], tOpen := 0, last := 0 })] } }, by decide +kernel, by decide +kernel, by decide +kernel⟩)⟩

theorem test_met_BatchOneAtATime :
    (∃ (r : Nat), ∃ (n : Nat), ∃ (q : Request), ∃ (b : Batch), ∃ (o : Nat), ∃ (s : State), Serving s r 0x0802 n q ∧ q.payload.length = 16 + pad8 (leAt q.payload 8 2) ∧ allZero (slice q.payload 10 6) = true ∧ allZero (slice q.payload (16 + leAt q.payload 8 2) (pad8 (leAt q.payload 8 2) - leAt q.payload 8 2)) = true ∧ 0 < leAt q.payload 8 2 ∧ leAt q.payload 8 2 ≤ 16368 ∧ s.batch? (leAt q.payload 0 4) = some b ∧ b.tenant = q.hdr.tenant ∧ b.busy = some o ∧ o ≠ r) ∧
    (∃ (r : Nat), ∃ (n : Nat), ∃ (q : Request), ∃ (b : Batch), ∃ (o : Nat), ∃ (s : State), Serving s r 0x0803 n q ∧ q.payload.length = 16 ∧ s.batch? (leAt q.payload 0 4) = some b ∧ b.tenant = q.hdr.tenant ∧ b.busy = some o ∧ o ≠ r) ∧
    (∃ (r : Nat), ∃ (n : Nat), ∃ (q : Request), ∃ (b : Batch), ∃ (o : Nat), ∃ (s : State), Serving s r 0x0804 n q ∧ q.payload.length = 8 ∧ allZero (slice q.payload 4 4) = true ∧ s.batch? (leAt q.payload 0 4) = some b ∧ b.tenant = q.hdr.tenant ∧ b.busy = some o ∧ o ≠ r) ∧
    (∃ (r : Nat), ∃ (n : Nat), ∃ (q : Request), ∃ (b : Batch), ∃ (s : State), Serving s r 0x0802 n q ∧ q.payload.length = 16 + pad8 (leAt q.payload 8 2) ∧ allZero (slice q.payload 10 6) = true ∧ allZero (slice q.payload (16 + leAt q.payload 8 2) (pad8 (leAt q.payload 8 2) - leAt q.payload 8 2)) = true ∧ 0 < leAt q.payload 8 2 ∧ leAt q.payload 8 2 ≤ 16368 ∧ s.batch? (leAt q.payload 0 4) = some b ∧ b.tenant = q.hdr.tenant ∧ (b.busy = none ∨ b.busy = some r) ∧ leAt q.payload 4 4 ≠ (b.appends + 1) % 2 ^ 32) :=
  ⟨(⟨7, 2, job 0x0802 0 (octets 24 [(0, 1), (4, 1), (8, 1)]), { tenant := 1, ref := [], tOpen := 0, last := 0, busy := some 8 }, 8, { serving 0x0802 0 (octets 24 [(0, 1), (4, 1), (8, 1)]) [] with svc := { batches := [(1, { tenant := 1, ref := [], tOpen := 0, last := 0, busy := some 8 })] } }, ⟨rfl, ⟨none, rfl⟩, rfl, rfl⟩, by decide +kernel, by decide +kernel, by decide +kernel, by decide +kernel, by decide +kernel, by decide +kernel, by decide +kernel, by decide +kernel, by decide +kernel⟩),
   (⟨7, 2, job 0x0803 0 (octets 16 [(0, 1)]), { tenant := 1, ref := [], tOpen := 0, last := 0, busy := some 8 }, 8, { serving 0x0803 0 (octets 16 [(0, 1)]) [] with svc := { batches := [(1, { tenant := 1, ref := [], tOpen := 0, last := 0, busy := some 8 })] } }, ⟨rfl, ⟨none, rfl⟩, rfl, rfl⟩, by decide +kernel, by decide +kernel, by decide +kernel, by decide +kernel, by decide +kernel⟩),
   (⟨7, 2, job 0x0804 0 (octets 8 [(0, 1)]), { tenant := 1, ref := [], tOpen := 0, last := 0, busy := some 8 }, 8, { serving 0x0804 0 (octets 8 [(0, 1)]) [] with svc := { batches := [(1, { tenant := 1, ref := [], tOpen := 0, last := 0, busy := some 8 })] } }, ⟨rfl, ⟨none, rfl⟩, rfl, rfl⟩, by decide +kernel, by decide +kernel, by decide +kernel, by decide +kernel, by decide +kernel, by decide +kernel⟩),
   (⟨7, 2, job 0x0802 0 (octets 24 [(0, 1), (4, 2), (8, 1)]), { tenant := 1, ref := [], tOpen := 0, last := 0 }, { serving 0x0802 0 (octets 24 [(0, 1), (4, 2), (8, 1)]) [] with svc := { batches := [(1, { tenant := 1, ref := [], tOpen := 0, last := 0 })] } }, ⟨rfl, ⟨none, rfl⟩, rfl, rfl⟩, by decide +kernel, by decide +kernel, by decide +kernel, by decide +kernel, by decide +kernel, by decide +kernel, by decide +kernel, by decide +kernel, by decide +kernel⟩)⟩

theorem test_met_CustomerProgramStatus :
    (∃ (r : Nat), ∃ (n : Nat), ∃ (q : Request), ∃ (c : Option Nat), ∃ (img : Image), ∃ (bd : Binding), ∃ (keys : List (Nat × Nat)), ∃ (x : Unit), ∃ (v : State), ∃ (s : State), ∃ (payload : Bytes), ∃ (status : Nat), s.req? r = some q ∧ q.stage = .running n c ∧ q.ready = false ∧ isCustomer q.hdr.service = true ∧ boundImage s q.hdr.tenant q.hdr.service = some (img, bd) ∧ payload.length ≤ img.maxRsp ∧ programKeys n q keys s = .ok x v ∧ 0x0480 ≤ status ∧ status ≤ 0x04EF) ∧
    (∃ (r : Nat), ∃ (n : Nat), ∃ (q : Request), ∃ (c : Option Nat), ∃ (img : Image), ∃ (bd : Binding), ∃ (keys : List (Nat × Nat)), ∃ (x : Unit), ∃ (v : State), ∃ (s : State), ∃ (payload : Bytes), ∃ (status : Nat), s.req? r = some q ∧ q.stage = .running n c ∧ q.ready = false ∧ isCustomer q.hdr.service = true ∧ boundImage s q.hdr.tenant q.hdr.service = some (img, bd) ∧ payload.length ≤ img.maxRsp ∧ programKeys n q keys s = .ok x v ∧ 0x0480 ≤ status ∧ status ≤ 0x04EF) ∧
    (∃ (r : Nat), ∃ (n : Nat), ∃ (q : Request), ∃ (c : Option Nat), ∃ (img : Image), ∃ (bd : Binding), ∃ (keys : List (Nat × Nat)), ∃ (x : Unit), ∃ (v : State), ∃ (s : State), ∃ (payload : Bytes), s.req? r = some q ∧ q.stage = .running n c ∧ q.ready = false ∧ isCustomer q.hdr.service = true ∧ boundImage s q.hdr.tenant q.hdr.service = some (img, bd) ∧ payload.length ≤ img.maxRsp ∧ programKeys n q keys s = .ok x v) ∧
    (∃ (r : Nat), ∃ (n : Nat), ∃ (q : Request), ∃ (c : Option Nat), ∃ (img : Image), ∃ (bd : Binding), ∃ (keys : List (Nat × Nat)), ∃ (x : Unit), ∃ (v : State), ∃ (s : State), ∃ (payload : Bytes), ∃ (status : Nat), s.req? r = some q ∧ q.stage = .running n c ∧ q.ready = false ∧ isCustomer q.hdr.service = true ∧ boundImage s q.hdr.tenant q.hdr.service = some (img, bd) ∧ payload.length ≤ img.maxRsp ∧ programKeys n q keys s = .ok x v ∧ status ≠ 0 ∧ ((status < 0x0480 ∨ 0x04EF < status))) ∧
    (∃ (r : Nat), ∃ (n : Nat), ∃ (q : Request), ∃ (c : Option Nat), ∃ (img : Image), ∃ (bd : Binding), ∃ (keys : List (Nat × Nat)), ∃ (x : Unit), ∃ (v : State), ∃ (s : State), ∃ (payload : Bytes), ∃ (status : Nat), s.req? r = some q ∧ q.stage = .running n c ∧ q.ready = false ∧ isCustomer q.hdr.service = true ∧ boundImage s q.hdr.tenant q.hdr.service = some (img, bd) ∧ payload.length ≤ img.maxRsp ∧ programKeys n q keys s = .ok x v ∧ status ≠ 0 ∧ ((status < 0x0480 ∨ 0x04EF < status))) ∧
    (∃ (r : Nat), ∃ (n : Nat), ∃ (q : Request), ∃ (c : Option Nat), ∃ (img : Image), ∃ (bd : Binding), ∃ (keys : List (Nat × Nat)), ∃ (x : Unit), ∃ (v : State), ∃ (s : State), ∃ (payload : Bytes), s.req? r = some q ∧ q.stage = .running n c ∧ q.ready = false ∧ isCustomer q.hdr.service = true ∧ boundImage s q.hdr.tenant q.hdr.service = some (img, bd) ∧ payload.length ≤ img.maxRsp ∧ programKeys n q keys s = .ok x v) ∧
    (∃ (r : Nat), ∃ (n : Nat), ∃ (q : Request), ∃ (c : Option Nat), ∃ (img : Image), ∃ (bd : Binding), ∃ (keys : List (Nat × Nat)), ∃ (x : Unit), ∃ (v : State), ∃ (s : State), ∃ (payload : Bytes), s.req? r = some q ∧ q.stage = .running n c ∧ q.ready = false ∧ isCustomer q.hdr.service = true ∧ boundImage s q.hdr.tenant q.hdr.service = some (img, bd) ∧ payload.length ≤ img.maxRsp ∧ programKeys n q keys s = .ok x v) :=
  ⟨(⟨7, 2, job 0x8001 0 [], none, { tenant := 1, service := 0x8001, budget := 0, c0Claim := false, maxReq := 0, maxRsp := 4, isaLevel := 1, storage := 0 }, { tenant := 1, code := 0x8001, image := 5, approved := true }, [], (), _, { serving 0x8001 0 [] [] with svc := { images := [(5, { tenant := 1, service := 0x8001, budget := 0, c0Claim := false, maxReq := 0, maxRsp := 4, isaLevel := 1, storage := 0 })], bindings := [{ tenant := 1, code := 0x8001, image := 5, approved := true }] } }, [1], 0x0480, by decide +kernel, by decide +kernel, by decide +kernel, by decide +kernel, by decide +kernel, by decide +kernel, rfl, by decide +kernel, by decide +kernel⟩),
   (⟨7, 2, job 0x8001 0 [], none, { tenant := 1, service := 0x8001, budget := 0, c0Claim := false, maxReq := 0, maxRsp := 4, isaLevel := 1, storage := 0 }, { tenant := 1, code := 0x8001, image := 5, approved := true }, [], (), _, { serving 0x8001 0 [] [] with svc := { images := [(5, { tenant := 1, service := 0x8001, budget := 0, c0Claim := false, maxReq := 0, maxRsp := 4, isaLevel := 1, storage := 0 })], bindings := [{ tenant := 1, code := 0x8001, image := 5, approved := true }] } }, [1], 0x04EF, by decide +kernel, by decide +kernel, by decide +kernel, by decide +kernel, by decide +kernel, by decide +kernel, rfl, by decide +kernel, by decide +kernel⟩),
   (⟨7, 2, job 0x8001 0 [], none, { tenant := 1, service := 0x8001, budget := 0, c0Claim := false, maxReq := 0, maxRsp := 4, isaLevel := 1, storage := 0 }, { tenant := 1, code := 0x8001, image := 5, approved := true }, [], (), _, { serving 0x8001 0 [] [] with svc := { images := [(5, { tenant := 1, service := 0x8001, budget := 0, c0Claim := false, maxReq := 0, maxRsp := 4, isaLevel := 1, storage := 0 })], bindings := [{ tenant := 1, code := 0x8001, image := 5, approved := true }] } }, [1], by decide +kernel, by decide +kernel, by decide +kernel, by decide +kernel, by decide +kernel, by decide +kernel, rfl⟩),
   (⟨7, 2, job 0x8001 0 [], none, { tenant := 1, service := 0x8001, budget := 0, c0Claim := false, maxReq := 0, maxRsp := 4, isaLevel := 1, storage := 0 }, { tenant := 1, code := 0x8001, image := 5, approved := true }, [], (), _, { serving 0x8001 0 [] [] with svc := { images := [(5, { tenant := 1, service := 0x8001, budget := 0, c0Claim := false, maxReq := 0, maxRsp := 4, isaLevel := 1, storage := 0 })], bindings := [{ tenant := 1, code := 0x8001, image := 5, approved := true }] } }, [1], 0x04F0, by decide +kernel, by decide +kernel, by decide +kernel, by decide +kernel, by decide +kernel, by decide +kernel, rfl, by decide +kernel, by decide +kernel⟩),
   (⟨7, 2, job 0x8001 0 [], none, { tenant := 1, service := 0x8001, budget := 0, c0Claim := false, maxReq := 0, maxRsp := 4, isaLevel := 1, storage := 0 }, { tenant := 1, code := 0x8001, image := 5, approved := true }, [], (), _, { serving 0x8001 0 [] [] with svc := { images := [(5, { tenant := 1, service := 0x8001, budget := 0, c0Claim := false, maxReq := 0, maxRsp := 4, isaLevel := 1, storage := 0 })], bindings := [{ tenant := 1, code := 0x8001, image := 5, approved := true }] } }, [1], 0x047F, by decide +kernel, by decide +kernel, by decide +kernel, by decide +kernel, by decide +kernel, by decide +kernel, rfl, by decide +kernel, by decide +kernel⟩),
   (⟨7, 2, job 0x8001 0 [], none, { tenant := 1, service := 0x8001, budget := 0, c0Claim := false, maxReq := 0, maxRsp := 4, isaLevel := 1, storage := 0 }, { tenant := 1, code := 0x8001, image := 5, approved := true }, [], (), _, { serving 0x8001 0 [] [] with svc := { images := [(5, { tenant := 1, service := 0x8001, budget := 0, c0Claim := false, maxReq := 0, maxRsp := 4, isaLevel := 1, storage := 0 })], bindings := [{ tenant := 1, code := 0x8001, image := 5, approved := true }] } }, [1], by decide +kernel, by decide +kernel, by decide +kernel, by decide +kernel, by decide +kernel, by decide +kernel, rfl⟩),
   (⟨7, 2, job 0x8001 0 [], none, { tenant := 1, service := 0x8001, budget := 0, c0Claim := false, maxReq := 0, maxRsp := 4, isaLevel := 1, storage := 0 }, { tenant := 1, code := 0x8001, image := 5, approved := true }, [], (), _, { serving 0x8001 0 [] [] with svc := { images := [(5, { tenant := 1, service := 0x8001, budget := 0, c0Claim := false, maxReq := 0, maxRsp := 4, isaLevel := 1, storage := 0 })], bindings := [{ tenant := 1, code := 0x8001, image := 5, approved := true }] } }, [1], by decide +kernel, by decide +kernel, by decide +kernel, by decide +kernel, by decide +kernel, by decide +kernel, rfl⟩)⟩

theorem test_met_BundleDecision :
    (∃ (arqc : Nat), ∃ (pin : Nat), ∃ (mac : Nat), (arqc = 1 ∨ mac = 1 ∨ pin = 2)) ∧
    (∃ (arqc : Nat), ∃ (pin : Nat), ∃ (mac : Nat), ∃ (score : Int), ∃ (decline : Int), (¬(arqc = 1 ∨ mac = 1 ∨ pin = 2)) ∧ decline ≤ score) ∧
    (∃ (arqc : Nat), ∃ (pin : Nat), ∃ (mac : Nat), ∃ (score : Int), ∃ (refer : Int), ∃ (decline : Int), (¬(arqc = 1 ∨ mac = 1 ∨ pin = 2)) ∧ score < decline ∧ refer ≤ score) ∧
    (∃ (arqc : Nat), ∃ (pin : Nat), ∃ (mac : Nat), ∃ (score : Int), ∃ (refer : Int), ∃ (decline : Int), (¬(arqc = 1 ∨ mac = 1 ∨ pin = 2)) ∧ score < decline ∧ score < refer) :=
  ⟨(⟨1, 0, 0, by decide +kernel⟩),
   (⟨0, 0, 0, 5, 5, by decide +kernel, by decide +kernel⟩),
   (⟨0, 0, 0, 4, 4, 5, by decide +kernel, by decide +kernel, by decide +kernel⟩),
   (⟨0, 0, 0, 3, 4, 5, by decide +kernel, by decide +kernel, by decide +kernel⟩)⟩

theorem test_met_QueueWork :
    (∃ (s : State), ∃ (r : Nat), ∃ (n : Nat), ∃ (q : Request), readyHead s = some r ∧ s.req? r = some q ∧ q.stage = .ready ∧ argMax (chansIn s) (freeC0 s) = some n ∧ 0 < freeC0 s n) ∧
    (∃ (s : State), ∃ (r : Nat), ∃ (n : Nat), ∃ (q : Request), ∃ (l : List Nat), inService s n = true ∧ freeSlots s n ≠ 0 ∧ s.qm.internal = r :: l ∧ s.req? r = some q ∧ q.stage = .queued) ∧
    (∃ (s : State), ∃ (s' : State), ∃ (r : Nat), ∃ (n : Nat), inService s n = true ∧ freeSlots s n ≠ 0 ∧ s.qm.internal = [] ∧ anyActive s n = true ∧ selectLoop n 4096 s = (some r, s')) ∧
    (∃ (s : State), ∃ (r : Nat), ∃ (id : Nat), ∃ (m : Nat), ∃ (n : Nat), inService s n = true ∧ freeSlots s n ≠ 0 ∧ anyActive s n = false ∧ stealable s n = [(r, id, m)] ∧ s.cfg 0x4003 3 * 1000 ≤ waited s r ∧ (reqCharge s r : Int) ≤ deficitOf s m id) ∧
    (∃ (qn : Nat), ∃ (r : Nat), ∃ (q : Request), ∃ (s : State), s.qm.waiting = [r] ∧ s.req? r = some q ∧ q.qn = qn) ∧
    (∃ (qn : Nat), ∃ (r : Nat), ∃ (s : State), (s.queue qn).waitLimit ≠ 0 ∧ queueClass (s.queue qn) ≠ 0 ∧ (s.queue qn).list = [r] ∧ (s.queue qn).waitLimit * 1000 < waited s r) ∧
    (∃ (r : Nat), ∃ (q : Request), ∃ (s : State), s.req? r = some q ∧ q.within = true ∧ q.stage = .ready ∧ q.pcie = false ∧ q.tIn + 17682 + q.extraNs ≤ s.time) ∧
    (∃ (r : Nat), ∃ (q : Request), ∃ (n : Nat), ∃ (c : Option Nat), ∃ (s : State), s.req? r = some q ∧ q.within = true ∧ q.stage = .running n c ∧ q.ready = false ∧ q.pcie = true ∧ q.tIn + 18606 + q.extraNs ≤ s.time) ∧
    (∃ (r : Nat), ∃ (q : Request), ∃ (a : Advert), ∃ (s : State), s.req? r = some q ∧ isHead s r q = true ∧ mayStart s r = true ∧ spillAllowed s q = true ∧ ((∀ n, n ∈ chansIn s → freeSlots s n = 0)) ∧ s.cfg 0x4003 2 * 1000 ≤ waited s r ∧ spillTarget s q = some a) :=
  ⟨(⟨{ up with reqs := [(7, { job 0x0101 0 [] with stage := .ready })], chans := [(2, { data := .inService })], qm := { readyList := [7] } }, 7, 2, { job 0x0101 0 [] with stage := .ready }, by decide +kernel, by decide +kernel, by decide +kernel, by decide +kernel, by decide +kernel⟩),
   (⟨{ up with reqs := [(7, { job 0x0101 0 [] with stage := .queued })], chans := [(2, { data := .inService })], qm := { internal := [7] } }, 7, 2, { job 0x0101 0 [] with stage := .queued }, [], by decide +kernel, by decide +kernel, by decide +kernel, by decide +kernel, by decide +kernel⟩),
   (⟨{ up with reqs := [(7, { job 0x0101 0 [] with stage := .queued, hdr := { service := 0x0101, tenant := 1, queue := 5, cls := 1 } })], chans := [(2, { data := .inService, active1 := [5] })], qm := { queues := [(5, { tenant := 1, qctl := 129, weight := 100, list := [7] })] } }, (selectLoop 2 4096 ({ up with reqs := [(7, { job 0x0101 0 [] with stage := .queued, hdr := { service := 0x0101, tenant := 1, queue := 5, cls := 1 } })], chans := [(2, { data := .inService, active1 := [5] })], qm := { queues := [(5, { tenant := 1, qctl := 129, weight := 100, list := [7] })] } })).2, 7, 2, by decide +kernel, by decide +kernel, by decide +kernel, by decide +kernel, Prod.ext (by decide +kernel) rfl⟩),
   (⟨{ up with time := 10 ^ 9, reqs := [(7, { job 0x0101 0 [] with stage := .queued, hdr := { service := 0x0101, tenant := 1, queue := 5, cls := 1 } })], chans := [(2, { data := .inService }), (3, { data := .inService, active1 := [5] })], qm := { queues := [(5, { tenant := 1, qctl := 129, weight := 100, list := [7], deficit := 10 ^ 9 })] } }, 7, 5, 3, 2, by decide +kernel, by decide +kernel, by decide +kernel, by decide +kernel, by decide +kernel, by decide +kernel⟩),
   (⟨0, 7, { job 0x0101 0 [] with stage := .fetchWait }, { up with reqs := [(7, { job 0x0101 0 [] with stage := .fetchWait })], qm := { waiting := [7] } }, by decide +kernel, by decide +kernel, by decide +kernel⟩),
   (⟨5, 7, { up with time := 2000, reqs := [(7, { job 0x0101 0 [] with stage := .queued })], qm := { queues := [(5, { qctl := 129, waitLimit := 1, list := [7] })] } }, by decide +kernel, by decide +kernel, by decide +kernel, by decide +kernel⟩),
   (⟨7, { job 0x0101 0 [] with stage := .ready, within := true }, { up with time := 17682, reqs := [(7, { job 0x0101 0 [] with stage := .ready, within := true })] }, by decide +kernel, by decide +kernel, by decide +kernel, by decide +kernel, by decide +kernel⟩),
   (⟨7, { job 0x0101 0 [] with stage := .running 2 none, within := true, pcie := true }, 2, none, { up with time := 18606, reqs := [(7, { job 0x0101 0 [] with stage := .running 2 none, within := true, pcie := true })] }, by decide +kernel, by decide +kernel, by decide +kernel, by decide +kernel, by decide +kernel, by decide +kernel⟩),
   (⟨7, { job 0x0101 0 [] with stage := .queued, hdr := { service := 0x0101, tenant := 1, queue := 5, cls := 1 } }, { addr := 5, links := 1, port := 0, c1 := 4, c2 := 4, c3 := 4 }, { up with time := 10 ^ 9, reqs := [(7, { job 0x0101 0 [] with stage := .queued, hdr := { service := 0x0101, tenant := 1, queue := 5, cls := 1 } })], qm := { queues := [(5, { tenant := 1, qctl := 145, list := [7] })] }, frz := { ports := [(0, { state := .up, cap := octets 64 [(8, 5)] })], adverts := [{ addr := 5, links := 1, port := 0, c1 := 4, c2 := 4, c3 := 4 }] } }, by decide +kernel, by decide +kernel, by decide +kernel, by decide +kernel, by decide +kernel, by decide +kernel, by decide +kernel⟩)⟩

theorem test_met_DescriptorsSubmitted :
    (∃ (c : Nat), ∃ (s : State), ((s.engOf (c / 8)).cipher.filter (fun j => j.ctx = (ctxNow s c).1)).length < 2) ∧
    (∃ (c : Nat), ∃ (s : State), 2 ≤ ((s.engOf (c / 8)).cipher.filter (fun j => j.ctx = (ctxNow s c).1)).length) ∧
    (∃ (c : Nat), ∃ (s : State), ((s.engOf (c / 8)).digest.filter (fun j => j.ctx = (ctxNow s c).1)).length < 2) ∧
    (∃ (c : Nat), ∃ (s : State), (s.engOf (c / 8)).pk.any (fun j => j.ctx = (ctxNow s c).1) = false) ∧
    (∃ (c : Nat), ∃ (s : State), (s.engOf (c / 8)).pk.any (fun j => j.ctx = (ctxNow s c).1) = true) ∧
    (∃ (c : Nat), ∃ (v : Nat), ∃ (s : State), ∃ (s' : State), (s.core c).stalled = some (0, v) ∧ submitWrite c v (s.modCore c (fun k => { k with stalled := none })) = .done s') ∧
    (∃ (c : Nat), ∃ (v : Nat), ∃ (s : State), ∃ (s' : State), (s.core c).stalled = some (4, v) ∧ dsubmitWrite c v (s.modCore c (fun k => { k with stalled := none })) = .done s') :=
  ⟨(⟨0, coreAt runs 0 [], by decide +kernel⟩),
   (⟨0, { coreAt runs 0 [] with eng := [(0, { cipher := [{ ctx := 0, core := 0, off := 0, desc := [] }, { ctx := 0, core := 0, off := 64, desc := [] }] })] }, by decide +kernel⟩),
   (⟨0, coreAt runs 0 [], by decide +kernel⟩),
   (⟨0, coreAt runs 0 [], by decide +kernel⟩),
   (⟨0, { coreAt runs 0 [] with eng := [(0, { pk := [{ ctx := 0, core := 0, off := 0, desc := [] }] })] }, by decide +kernel⟩),
   (⟨0, 64, coreAt { runs with stalled := some (0, 64) } (0) ([]), _, by decide +kernel, rfl⟩),
   (⟨0, 64, coreAt { runs with stalled := some (4, 64) } (0) ([]), _, by decide +kernel, rfl⟩)⟩

theorem test_met_DescriptorsComplete :
    (∃ (n : Nat), ∃ (off : Nat), ∃ (s : State), ∃ (j : CipherJob), ∃ (st : Nat), ∃ (verdict : Nat), ∃ (detail : Nat), ∃ (len : Nat), ∃ (s' : State), (s.engOf n).cipher.find? (fun j => j.off = off) = some j ∧ j.waits = [] ∧ j.stalled = false ∧ waitsHandle s n j = false ∧ cipherResult n j s = (st, verdict, detail, len, s')) ∧
    (∃ (n : Nat), ∃ (off : Nat), ∃ (s : State), ∃ (j : DigestJob), ∃ (e : Nat), ∃ (st : Nat), ∃ (verdict : Nat), ∃ (len : Nat), ∃ (s' : State), (s.engOf n).digest.find? (fun j => j.off = off) = some j ∧ j.waits = [] ∧ j.suspended = false ∧ j.engine = some e ∧ dependsWaits s n j = false ∧ digestResult n j s = (st, verdict, len, s')) ∧
    (∃ (n : Nat), ∃ (off : Nat), ∃ (s : State), ∃ (j : PkJob), ∃ (e : Nat), ∃ (st : Nat), ∃ (result : Nat), ∃ (len : Nat), ∃ (s' : State), (s.engOf n).pk.find? (fun j => j.off = off) = some j ∧ j.waits = [] ∧ j.engine = some e ∧ pkResult n j s = (st, result, len, s')) :=
  ⟨(⟨0, 64, { coreAt runs 0 [] with eng := [(0, { cipher := [{ ctx := 0, core := 0, off := 64, desc := [] }] })] }, { ctx := 0, core := 0, off := 64, desc := [] }, _, _, _, _, _, by decide +kernel, by decide +kernel, by decide +kernel, by decide +kernel, rfl⟩),
   (⟨0, 64, { coreAt runs 0 [] with eng := [(0, { digest := [{ ctx := 0, core := 0, off := 64, desc := [], engine := some 3 }] })] }, { ctx := 0, core := 0, off := 64, desc := [], engine := some 3 }, 3, _, _, _, _, by decide +kernel, by decide +kernel, by decide +kernel, by decide +kernel, by decide +kernel, rfl⟩),
   (⟨0, 64, { coreAt runs 0 [] with eng := [(0, { pk := [{ ctx := 0, core := 0, off := 64, desc := [], engine := some 3 }] })] }, { ctx := 0, core := 0, off := 64, desc := [], engine := some 3 }, 3, _, _, _, _, by decide +kernel, by decide +kernel, by decide +kernel, rfl⟩)⟩

theorem test_met_GeneratorsAndKeyStore :
    (∃ (g : Nat), ∃ (i : Nat), ∃ (s : State), genInst g i = true ∧ (tget {} (genOf s g).inst i).seeded = true) ∧
    (∃ (g : Nat), ∃ (i : Nat), ∃ (s : State), genInst g i = true ∧ (tget {} (genOf s g).inst i).seeded = true) ∧
    (∃ (g : Nat), ∃ (i : Nat), ∃ (s : State), genInst g i = true ∧ (s.noiseJitterBad && s.noiseLatchBad) = false) ∧
    (∃ (g : Nat), ∃ (s : State), g < 9 ∧ (genOf s g).state = .reseedDue ∧ (genOf s g).dueSince + 1000000000 ≤ s.time) ∧
    (∃ (n : Nat), ∃ (cell : Nat), ∃ (s : State), (s.engOf n).cipher.any (fun j => j.stalled && j.cells.contains cell) = true ∧ genShort s n = false) ∧
    (∃ (s : State), watching s = true ∧ s.noiseJitterBad = false ∧ s.noiseLatchBad = false) ∧
    (∃ (i : Nat), ∃ (s : State), s.ks.fills.contains i = true ∧ resident s i = true ∧ (s.slot i).macBad = false ∧ ((∀ n, (s.engOf n).cipher = [] ∧ (s.engOf n).digest = [] ∧ (s.engOf n).pk = []))) ∧
    (∃ (s : State), s.ks.rollover = true) ∧
    (∃ (n : Nat), ∃ (s : State), s.ks.scrubs.contains n = true) ∧
    (∃ (c : Nat), ∃ (index : Nat), ∃ (polOff : Nat), ∃ (s : State), ∃ (s' : State), index < 8 ∧ index < (ctxHdr s (c / 8) (ctxNow s c).1).nslot ∧ inArea (8 * (polOff / 8 % 2 ^ 19)) 32 = true ∧ claimSlot (c / 8) (ctxNow s c).1 ((ctxHdr s (c / 8) (ctxNow s c).1).slotRef index) (ctxHdr s (c / 8) (ctxNow s c).1).tenant (ctxBytes s (c / 8) (ctxNow s c).1 (8 * (polOff / 8 % 2 ^ 19)) 32) s = (0, s')) ∧
    (∃ (c : Nat), ∃ (index : Nat), ∃ (s : State), index < 8 ∧ index < (ctxHdr s (c / 8) (ctxNow s c).1).nslot) ∧
    (∃ (s : State), s.ks.changed = true ∧ s.ks.lastImage + s.cfg 0x5008 2 * 1000000000 ≤ s.time ∧ s.ks.image = none ∧ imageBuffers s = true) ∧
    (∃ (ok : Bool), ∃ (s : State), ∃ (j : ImageJob), s.ks.image = some j ∧ j.forCommit = false ∧ cerOpen (endImage ok s) = false) ∧
    (∃ (s : State), s.ks.zeroized = true) :=
  ⟨(⟨2, 1, { up with eng := [(2, { gen := { state := .running, inst := [(1, { seeded := true })] } })], time := 10 ^ 9 }, by decide +kernel, by decide +kernel⟩),
   (⟨2, 1, { up with eng := [(2, { gen := { state := .running, inst := [(1, { seeded := true })] } })], time := 10 ^ 9 }, by decide +kernel, by decide +kernel⟩),
   (⟨11, 1, up, by decide +kernel, by decide +kernel⟩),
   (⟨2, { up with eng := [(2, { gen := { state := .reseedDue, inst := [(1, { seeded := true })] } })], time := 10 ^ 9 }, by decide +kernel, by decide +kernel, by decide +kernel⟩),
   (⟨2, 5, { up with eng := [(2, { gen := { state := .running }, cipher := [{ ctx := 0, core := 0, off := 0, desc := [], cells := [5], stalled := true }] })] }, by decide +kernel, by decide +kernel⟩),
   (⟨up, by decide +kernel, by decide +kernel, by decide +kernel⟩),
   (⟨16, { up with ks := { fills := [16], cache := [16] } }, by decide +kernel, by decide +kernel, by decide +kernel, fun _ => ⟨rfl, rfl, rfl⟩⟩),
   (⟨{ up with ks := { rollover := true } }, by decide +kernel⟩),
   (⟨1, { up with ks := { scrubs := [1] } }, by decide +kernel⟩),
   (⟨0, 1, 32, { coreAt runs 32 (octets 32 [(0, 0x10), (1, 2), (4, 4), (24, 255)]) with reqs := [(7, { hdr := { tenant := 1, nslot := 2, slot0 := 16, slot1 := 17 }, via := .eth 0 1, stage := .running 0 none })], ks := { tenants := [(1, { state := .active })], slots := [(17, { state := .empty, tenant := 1 })] } }, _, by decide +kernel, by decide +kernel, by decide +kernel, rfl⟩),
   (⟨0, 1, { coreAt runs 32 (octets 32 [(0, 0x10), (1, 2), (4, 4), (24, 255)]) with reqs := [(7, { hdr := { tenant := 1, nslot := 2, slot0 := 16, slot1 := 17 }, via := .eth 0 1, stage := .running 0 none })], ks := { tenants := [(1, { state := .active })], slots := [(17, { state := .empty, tenant := 1 })] } }, by decide +kernel, by decide +kernel⟩),
   (⟨{ up with time := 10 ^ 18, od := [(odKey 0x5008 4, 1), (odKey 0x5008 5, 2)], ks := { changed := true } }, by decide +kernel, by decide +kernel, by decide +kernel, by decide +kernel⟩),
   (⟨true, { up with ks := { image := some { gen := 1, digest := [], buffer := 0, content := { gen := 1, mkid := [], mkgen := 0, tenants := [], slots := [] } } } }, { gen := 1, digest := [], buffer := 0, content := { gen := 1, mkid := [], mkgen := 0, tenants := [], slots := [] } }, by decide +kernel, by decide +kernel, by decide +kernel⟩),
   (⟨{ up with ks := { zeroized := true } }, by decide +kernel⟩)⟩

theorem test_met_IntegerResults :
    (∃ (c : Nat), ∃ (q : Pred), ∃ (s : State), Issues c q s) :=
  (⟨0, ⟨0, false⟩, coreAt runs 0 [], issues⟩)

theorem test_met_FieldAndSaturationValues :
    (∃ (i : Nat), i < 64) ∧
    (∃ (i : Nat), i < 64) ∧
    (∃ (v : Nat), v < 2 ^ 64 ∧ v ≠ 0) ∧
    (∃ (v : Nat), v < 2 ^ 64 ∧ v ≠ 0) ∧
    (∃ (a : Int), ∃ (k : Nat), (2 * (roundK .rne a k * 2 ^ k - a) = 2 ^ k ∨ 2 * (roundK .rne a k * 2 ^ k - a) = -(2 ^ k : Int)) ∧ 0 < k) :=
  ⟨(⟨63, by decide +kernel⟩),
   (⟨0, by decide +kernel⟩),
   (⟨2 ^ 64 - 1, by decide +kernel, by decide +kernel⟩),
   (⟨1, by decide +kernel, by decide +kernel⟩),
   (⟨1, 1, by decide +kernel, by decide +kernel⟩)⟩

theorem test_met_PredicateAndMultiplierResults :
    (∃ (c : Nat), ∃ (q : Pred), ∃ (s : State), ∃ (pd : BitVec 3), ∃ (pd2 : BitVec 3), Issues c q s ∧ (pd ≠ pd2 ∨ pd = 0)) ∧
    (∃ (c : Nat), ∃ (q : Pred), ∃ (s : State), ∃ (pd : BitVec 3), ∃ (pd2 : BitVec 3), Issues c q s ∧ (pd ≠ pd2 ∨ pd = 0)) ∧
    (∃ (c : Nat), ∃ (q : Pred), ∃ (s : State), (s.core c).run = .running ∧ abeDeliverable (s.core c) = false ∧ eventDue (s.core c) = none ∧ fetchCheck c s = (none, s) ∧ (s.core c).predOk q = false) ∧
    (∃ (c : Nat), ∃ (m : MulFlight), ∃ (l : List MulFlight), ∃ (s : State), (s.core c).muls = m :: l ∧ (s.core c).cycle ≤ m.ready ∧ ((∀ x, x ∈ l → m.ready < x.ready))) ∧
    (∃ (c : Nat), ∃ (q : Pred), ∃ (ms : BitVec 2), ∃ (s : State), Issues c q s ∧ ((∀ m, m ∈ (s.core c).muls → m.m ≠ ms.toNat))) ∧
    (∃ (c : Nat), ∃ (q : Pred), ∃ (ms : BitVec 2), ∃ (m : MulFlight), ∃ (s : State), Issues c q s ∧ (s.core c).muls = [m] ∧ m.m = ms.toNat ∧ (s.core c).cycle < m.ready ∧ (s.core c).earlyRead = none) :=
  ⟨(⟨0, ⟨0, false⟩, coreAt runs 0 [], 1, 2, issues, by decide +kernel⟩),
   (⟨0, ⟨0, false⟩, coreAt runs 0 [], 0, 0, issues, by decide +kernel⟩),
   (⟨0, ⟨0, true⟩, coreAt runs 0 [], by decide +kernel, by decide +kernel, by decide +kernel, by decide +kernel, by decide +kernel⟩),
   (⟨0, ⟨1, 6, 3⟩, [⟨2, 7, 5⟩], coreAt { runs with muls := [⟨1, 6, 3⟩, ⟨2, 7, 5⟩] } (0) ([]), by decide +kernel, by decide +kernel, by decide +kernel⟩),
   (⟨0, ⟨0, false⟩, 1, coreAt { runs with muls := [⟨2, 7, 5⟩] } (0) ([]), ⟨by decide +kernel, by decide +kernel, by decide +kernel, by decide +kernel, by decide +kernel⟩, by decide +kernel⟩),
   (⟨0, ⟨0, false⟩, 1, ⟨1, 6, 3⟩, coreAt { runs with muls := [⟨1, 6, 3⟩] } (0) ([]), ⟨by decide +kernel, by decide +kernel, by decide +kernel, by decide +kernel, by decide +kernel⟩, by decide +kernel, by decide +kernel, by decide +kernel, by decide +kernel⟩)⟩

theorem test_met_FractionalResults :
    (∃ (c : Nat), ∃ (q : Pred), ∃ (s : State), ∃ (fmt : BitVec 3), ∃ (rnd : BitVec 2), Issues c q s ∧ (fmt = 3 ∨ rnd = 0)) ∧
    (∃ (c : Nat), ∃ (q : Pred), ∃ (s : State), ∃ (fmt : BitVec 3), ∃ (rnd : BitVec 2), Issues c q s ∧ (fmt = 3 ∨ rnd = 0)) :=
  ⟨(⟨0, ⟨0, false⟩, coreAt runs 0 [], 3, 2, issues, by decide +kernel⟩),
   (⟨0, ⟨0, false⟩, coreAt runs 0 [], 1, 0, issues, by decide +kernel⟩)⟩

theorem test_met_SramAccesses :
    (∃ (c : Nat), ∃ (q : Pred), ∃ (ra : BitVec 5), ∃ (seg : BitVec 3), ∃ (disp : BitVec 32), ∃ (a : Nat), ∃ (key : Nat), ∃ (s : State), ∃ (size : BitVec 2), Issues c q s ∧ (s.core c).storeBuf = [] ∧ segCheck (s.core c) seg .read ((s.core c).effOff ra disp) (sizeBytes size) = .ok a ∧ OwnSramAt s c a .read (sizeBytes size) key) ∧
    (∃ (c : Nat), ∃ (q : Pred), ∃ (ra : BitVec 5), ∃ (seg : BitVec 3), ∃ (disp : BitVec 32), ∃ (a : Nat), ∃ (key : Nat), ∃ (s : State), ∃ (size : BitVec 2), Issues c q s ∧ (s.core c).storeBuf = [] ∧ segCheck (s.core c) seg .write ((s.core c).effOff ra disp) (sizeBytes size) = .ok a ∧ OwnSramAt s c a .write (sizeBytes size) key) ∧
    (∃ (c : Nat), ∃ (q : Pred), ∃ (ra : BitVec 5), ∃ (seg : BitVec 3), ∃ (disp : BitVec 32), ∃ (a : Nat), ∃ (key : Nat), ∃ (s : State), ∃ (dw : Bool), Issues c q s ∧ (s.core c).storeBuf = [] ∧ segCheck (s.core c) seg .atomic ((s.core c).effOff ra disp) (if dw then 8 else 4) = .ok a ∧ OwnSramAt s c a .atomic (if dw then 8 else 4) key) :=
  ⟨(⟨0, ⟨0, false⟩, 0, 1, 64, 64, 0x100000040, coreAt runs 0 [], 3, issues, by decide +kernel, by decide +kernel, ownSram .read (by decide +kernel)⟩),
   (⟨0, ⟨0, false⟩, 0, 1, 64, 64, 0x100000040, coreAt runs 0 [], 3, issues, by decide +kernel, by decide +kernel, ownSram .write (by decide +kernel)⟩),
   (⟨0, ⟨0, false⟩, 0, 1, 64, 64, 0x100000040, coreAt runs 0 [], true, issues, by decide +kernel, by decide +kernel, ownSram .atomic (by decide +kernel)⟩)⟩

theorem test_met_BranchAndBlockResults :
    (∃ (c : Nat), ∃ (q : Pred), ∃ (s : State), ∃ (ra : BitVec 5), Issues c q s ∧ ((s.core c).gr ra).toNat % 8 = 0) ∧
    (∃ (c : Nat), ∃ (q : Pred), ∃ (s : State), ∃ (ra : BitVec 5), Issues c q s ∧ ((s.core c).gr ra).toNat % 8 ≠ 0) ∧
    (∃ (c : Nat), ∃ (q : Pred), ∃ (rb : BitVec 5), ∃ (s : State), Issues c q s ∧ (s.core c).gr rb = 0) ∧
    (∃ (c : Nat), ∃ (q : Pred), ∃ (rd : BitVec 5), ∃ (rb : BitVec 5), ∃ (sd : BitVec 3), ∃ (units : Nat), ∃ (dk : Nat), ∃ (s : State), Issues c q s ∧ (s.core c).gr rb = 8 ∧ (s.core c).status.bprog = 0 ∧ 0 < units ∧ (s.core c).storeBuf = [] ∧ rangeCheck (s.core c) sd .write ((s.core c).gr rd).toNat 8 = none ∧ physOf (s.core c) sd ((s.core c).gr rd).toNat % 8 = 0 ∧ OwnSramAt s c (physOf (s.core c) sd ((s.core c).gr rd).toNat) .write 8 dk) ∧
    (∃ (c : Nat), ∃ (q : Pred), ∃ (rd : BitVec 5), ∃ (ra : BitVec 5), ∃ (rb : BitVec 5), ∃ (sd : BitVec 3), ∃ (sa : BitVec 3), ∃ (units : Nat), ∃ (dk : Nat), ∃ (sk : Nat), ∃ (s : State), Issues c q s ∧ (s.core c).gr rb = 8 ∧ (s.core c).status.bprog = 0 ∧ 0 < units ∧ (s.core c).storeBuf = [] ∧ rangeCheck (s.core c) sd .write ((s.core c).gr rd).toNat 8 = none ∧ rangeCheck (s.core c) sa .read ((s.core c).gr ra).toNat 8 = none ∧ physOf (s.core c) sd ((s.core c).gr rd).toNat % 8 = 0 ∧ physOf (s.core c) sa ((s.core c).gr ra).toNat % 8 = 0 ∧ OwnSramAt s c (physOf (s.core c) sd ((s.core c).gr rd).toNat) .write 8 dk ∧ OwnSramAt s c (physOf (s.core c) sa ((s.core c).gr ra).toNat) .read 8 sk) ∧
    (∃ (c : Nat), ∃ (q : Pred), ∃ (rd : BitVec 5), ∃ (ra : BitVec 5), ∃ (rb : BitVec 5), ∃ (sd : BitVec 3), ∃ (sa : BitVec 3), ∃ (units : Nat), ∃ (dk : Nat), ∃ (sk : Nat), ∃ (s : State), Issues c q s ∧ (s.core c).gr rb = 8 ∧ (s.core c).status.bprog = 0 ∧ 0 < units ∧ (s.core c).storeBuf = [] ∧ rangeCheck (s.core c) sd .read ((s.core c).gr rd).toNat 8 = none ∧ rangeCheck (s.core c) sa .read ((s.core c).gr ra).toNat 8 = none ∧ physOf (s.core c) sd ((s.core c).gr rd).toNat % 8 = 0 ∧ physOf (s.core c) sa ((s.core c).gr ra).toNat % 8 = 0 ∧ OwnSramAt s c (physOf (s.core c) sd ((s.core c).gr rd).toNat) .read 8 dk ∧ OwnSramAt s c (physOf (s.core c) sa ((s.core c).gr ra).toNat) .read 8 sk) :=
  ⟨(⟨0, ⟨0, false⟩, coreAt runs 0 [], 0, issues, by decide +kernel⟩),
   (⟨0, ⟨0, false⟩, coreAt { runs with g := [(1, 4)] } (0) ([]), 1, ⟨by decide +kernel, by decide +kernel, by decide +kernel, by decide +kernel, by decide +kernel⟩, by decide +kernel⟩),
   (⟨0, ⟨0, false⟩, 0, coreAt runs 0 [], issues, by decide +kernel⟩),
   (⟨0, ⟨0, false⟩, 1, 3, 1, 1, 0x100000040, coreAt { runs with g := [(1, 64), (2, 128), (3, 8)] } (0) ([]), ⟨by decide +kernel, by decide +kernel, by decide +kernel, by decide +kernel, by decide +kernel⟩, by decide +kernel, by decide +kernel, by decide +kernel, by decide +kernel, by decide +kernel, by decide +kernel, ⟨by decide +kernel, by decide +kernel, 64, by decide +kernel, by decide +kernel, by decide +kernel, by decide +kernel⟩⟩),
   (⟨0, ⟨0, false⟩, 1, 2, 3, 1, 2, 1, 0x100000040, 0x100000080, coreAt { runs with g := [(1, 64), (2, 128), (3, 8)] } (0) ([]), ⟨by decide +kernel, by decide +kernel, by decide +kernel, by decide +kernel, by decide +kernel⟩, by decide +kernel, by decide +kernel, by decide +kernel, by decide +kernel, by decide +kernel, by decide +kernel, by decide +kernel, by decide +kernel, ⟨by decide +kernel, by decide +kernel, 64, by decide +kernel, by decide +kernel, by decide +kernel, by decide +kernel⟩, ⟨by decide +kernel, by decide +kernel, 128, by decide +kernel, by decide +kernel, by decide +kernel, by decide +kernel⟩⟩),
   (⟨0, ⟨0, false⟩, 1, 2, 3, 1, 2, 1, 0x100000040, 0x100000080, coreAt { runs with g := [(1, 64), (2, 128), (3, 8)] } (0) ([]), ⟨by decide +kernel, by decide +kernel, by decide +kernel, by decide +kernel, by decide +kernel⟩, by decide +kernel, by decide +kernel, by decide +kernel, by decide +kernel, by decide +kernel, by decide +kernel, by decide +kernel, by decide +kernel, ⟨by decide +kernel, by decide +kernel, 64, by decide +kernel, by decide +kernel, by decide +kernel, by decide +kernel⟩, ⟨by decide +kernel, by decide +kernel, 128, by decide +kernel, by decide +kernel, by decide +kernel, by decide +kernel⟩⟩)⟩

theorem test_met_SystemResults :
    (∃ (s : State) (q : Pred), Issues 0 q s ∧ (s.core 0).storeBuf = [] ∧ (s.core 0).status.pl = 0 ∧ (s.core 0).status.pl ≠ 3 ∧ wakeCond s 0 = false) ∧
    (∃ (s : State) (q : Pred), Issues 0 q s ∧ (s.core 0).storeBuf = [] ∧ (s.core 0).status.pl = 2 ∧ crListed 0x010 = true ∧ levelOk (crWriteLevel 0x010) (s.core 0).status.pl = false) ∧
    (∃ (s : State) (q : Pred) (ra : BitVec 5) (target seg : BitVec 3) (a key : Nat), Issues 0 q s ∧ (s.core 0).storeBuf = [] ∧ (s.core 0).status.pl ≠ 2 ∧ segCheck (s.core 0) seg .read ((s.core 0).gr ra).toNat 16 = .ok a ∧ SramAt s 0 a .read 16 key ∧ sgldRefused (s.core 0) target (BitVec.ofNat 128 (leNat (memBytes s.mem key 16))) = false) ∧
    (∃ (s : State) (q : Pred) (ra : BitVec 5) (seg : BitVec 3) (a key : Nat), Issues 0 q s ∧ (s.core 0).storeBuf = [] ∧ (s.core 0).status.pl ≠ 2 ∧ segCheck (s.core 0) seg .write ((s.core 0).gr ra).toNat 16 = .ok a ∧ OwnSramAt s 0 a .write 16 key) :=
  ⟨(⟨coreAt runs 0 [], ⟨0, false⟩, issues, by decide +kernel, by decide +kernel, by decide +kernel, by decide +kernel⟩),
   (⟨coreAt { runs with status := { pl := 2, iml := 0 } } (0) ([]), ⟨0, false⟩, ⟨by decide +kernel, by decide +kernel, by decide +kernel, by decide +kernel, by decide +kernel⟩, by decide +kernel, by decide +kernel, by decide +kernel, by decide +kernel⟩),
   (⟨coreAt { runs with g := [(1, 1024)] } (1024) (leBytes 16 (mkSeg 0 4095 3 true false true true).toNat), ⟨0, false⟩, 1, 2, 1, 1024, 0x100000400, ⟨by decide +kernel, by decide +kernel, by decide +kernel, by decide +kernel, by decide +kernel⟩, by decide +kernel, by decide +kernel, by decide +kernel, ⟨by decide +kernel, 0, 1024, by decide +kernel, by decide +kernel, by decide +kernel, by decide +kernel⟩, by decide +kernel⟩),
   (⟨coreAt { runs with g := [(1, 1024)] } (0) ([]), ⟨0, false⟩, 1, 1, 1024, 0x100000400, ⟨by decide +kernel, by decide +kernel, by decide +kernel, by decide +kernel, by decide +kernel⟩, by decide +kernel, by decide +kernel, by decide +kernel, ⟨by decide +kernel, by decide +kernel, 1024, by decide +kernel, by decide +kernel, by decide +kernel, by decide +kernel⟩⟩)⟩

theorem test_met_GatesAndTraps :
    (∃ (c : Nat), ∃ (q : Pred), ∃ (gate : BitVec 16), ∃ (gk : Nat), ∃ (key : Nat), ∃ (g : Gate), ∃ (s : State), Issues c q s ∧ (s.core c).storeBuf = [] ∧ (s.core c).status.pl ≠ 0 ∧ gate.toNat < (s.core c).gateCount ∧ SramAt s c ((s.core c).gateBase + 32 * gate.toNat) .read 32 gk ∧ g = Gate.ofNat (leNat (memBytes s.mem gk 32)) ∧ gateAllows g (s.core c).status.pl.toNat = true ∧ stackValid ((s.core c).stackFor g.target).1 ((s.core c).stackFor g.target).2 g.target = true ∧ SramAt s c (sgBase ((s.core c).stackFor g.target).1 + ((s.core c).stackFor g.target).2 - 64) .write 64 key) ∧
    (∃ (c : Nat), ∃ (q : Pred), ∃ (a : Nat), ∃ (key : Nat), ∃ (f : Frame), ∃ (s : State), Issues c q s ∧ (s.core c).storeBuf = [] ∧ (s.core c).status.pl ≠ 2 ∧ frameCheck (s.core c) ((s.core c).gr 31).toNat = .ok a ∧ SramAt s c a .read 64 key ∧ f = Frame.ofNat (leNat (memBytes s.mem key 64)) ∧ returnRefused f (s.core c).status.pl.toNat = false) ∧
    (∃ (c : Nat), ∃ (q : Pred), ∃ (a : Nat), ∃ (key : Nat), ∃ (f : Frame), ∃ (s : State), Issues c q s ∧ (s.core c).storeBuf = [] ∧ (s.core c).status.pl ≠ 2 ∧ frameCheck (s.core c) ((s.core c).gr 31).toNat = .ok a ∧ SramAt s c a .read 64 key ∧ f = Frame.ofNat (leNat (memBytes s.mem key 64)) ∧ returnRefused f (s.core c).status.pl.toNat = true) ∧
    (∃ (c : Nat), ∃ (s : State), Fetches c s) ∧
    (∃ (c : Nat), ∃ (s : State), ∃ (q : Pred), Fetches c s ∧ (s.core c).predOk q = true ∧ (s.core c).armed = false) ∧
    (∃ (c : Nat), ∃ (s : State), ∃ (q : Pred), Fetches c s ∧ (s.core c).predOk q = true ∧ (s.core c).armed = true ∧ debugHaltable c s = true) ∧
    (∃ (c : Nat), ∃ (s : State), ∃ (pd : BitVec 3), Fetches c s ∧ pd ≠ 0) :=
  ⟨(⟨0, ⟨0, false⟩, 0, 0x100000400, 0x100000FC0, _, coreAt { runs with status := { pl := 2, iml := 0 }, gateBase := 1024, gateCount := 1, exc := { lseg0 := stackSeg 0, lsp0 := 4096 } } 1024 (leBytes 1 0 ++ leBytes 1 4 ++ zeros 2 ++ leBytes 4 8 ++ leBytes 16 (mkSeg 0 0x3FFFFF 3 true true false true).toNat ++ zeros 8), ⟨by decide +kernel, by decide +kernel, by decide +kernel, by decide +kernel, by decide +kernel⟩, by decide +kernel, by decide +kernel, by decide +kernel, ⟨by decide +kernel, 0, 1024, by decide +kernel, by decide +kernel, by decide +kernel, by decide +kernel⟩, rfl, by decide +kernel, by decide +kernel, ⟨by decide +kernel, 0, 4032, by decide +kernel, by decide +kernel, by decide +kernel, by decide +kernel⟩⟩),
   (⟨0, ⟨0, false⟩, 1024, 0x100000400, _, coreAt { runs with g := [(31, 1024)] } 1024 ((({ runs with status := { pl := 2 } } : Core).callFrame 0 0).bytes), ⟨by decide +kernel, by decide +kernel, by decide +kernel, by decide +kernel, by decide +kernel⟩, by decide +kernel, by decide +kernel, by decide +kernel, ⟨by decide +kernel, 0, 1024, by decide +kernel, by decide +kernel, by decide +kernel, by decide +kernel⟩, rfl, by decide +kernel⟩),
   (⟨0, ⟨0, false⟩, 1024, 0x100000400, _, coreAt { runs with g := [(31, 1024)] } 1024 ([0, 0, 0, 0, 0xFF]), ⟨by decide +kernel, by decide +kernel, by decide +kernel, by decide +kernel, by decide +kernel⟩, by decide +kernel, by decide +kernel, by decide +kernel, ⟨by decide +kernel, 0, 1024, by decide +kernel, by decide +kernel, by decide +kernel, by decide +kernel⟩, rfl, by decide +kernel⟩),
   (⟨0, coreAt runs 0 [], ⟨by decide +kernel, by decide +kernel, by decide +kernel, by decide +kernel⟩⟩),
   (⟨0, coreAt runs 0 [], ⟨0, false⟩, ⟨by decide +kernel, by decide +kernel, by decide +kernel, by decide +kernel⟩, by decide +kernel, by decide +kernel⟩),
   (⟨0, { coreAt { runs with armed := true } 0 [] with chans := [(0, { data := .restTest })], life := { state := .initial } }, ⟨0, false⟩, ⟨by decide +kernel, by decide +kernel, by decide +kernel, by decide +kernel⟩, by decide +kernel, by decide +kernel, by decide +kernel⟩),
   (⟨0, coreAt runs 0 [], 7, ⟨by decide +kernel, by decide +kernel, by decide +kernel, by decide +kernel⟩, by decide +kernel⟩)⟩

theorem test_met_ExceptionEntry :
    (∃ (c : Nat), ∃ (e : Exc), ∃ (s : State), ∃ (entry : Nat), ∃ (code : BitVec 128), ∃ (key : Nat), (s.core c).storeBuf = [] ∧ (s.core c).exc.onFs = false ∧ e.vector ≠ 0x0A ∧ ((s.core c).status.pl = 0 ∨ 72 ≤ c ∨ e.vector = 7 ∨ e.vector = 0x10) ∧ escalates e.vector (s.core c).status.iml.toNat = false ∧ EntryReady s c e.vector entry code key) ∧
    (∃ (c : Nat), ∃ (e : Exc), ∃ (s : State), ∃ (entry : Nat), ∃ (code : BitVec 128), ∃ (key : Nat), (s.core c).storeBuf = [] ∧ (s.core c).exc.onFs = false ∧ e.vector ≠ 0x0A ∧ ((s.core c).status.pl = 0 ∨ 72 ≤ c ∨ e.vector = 7 ∨ e.vector = 0x10) ∧ escalates e.vector (s.core c).status.iml.toNat = true ∧ (s.core c).exc.escDepth = 0 ∧ EntryReady s c 0x0D entry code key) ∧
    (∃ (c : Nat), ∃ (e : Exc), ∃ (s : State), ∃ (vk : Nat), (s.core c).storeBuf = [] ∧ (s.core c).exc.onFs = false ∧ e.vector ≠ 0x0A ∧ ((s.core c).status.pl = 0 ∨ 72 ≤ c ∨ e.vector = 7 ∨ e.vector = 0x10) ∧ escalates e.vector (s.core c).status.iml.toNat = false ∧ hasFaultStack c = true ∧ SramAt s c ((s.core c).exc.vbase + 32 * e.vector) .read 32 vk ∧ stackValid ((s.core c).stackFor 0).1 ((s.core c).stackFor 0).2 0 = false ∧ codeValid (s.core c).exc.fsCode (s.core c).exc.fsEntry.toNat = true ∧ (s.core c).exc.fsDepth < 16) :=
  ⟨(⟨0, { vector := 6 }, coreAt { runs with sg := [(6, stackSeg 0), (7, mkSeg 0 0x3FFFFF 0 true true false true)], g := [(31, 8192)], exc := { vbase := 1024 } } 1216 (leBytes 4 0 ++ leBytes 4 256 ++ leBytes 16 (mkSeg 0 0x3FFFFF 0 true true false true).toNat), _, _, 0x100001FC0, by decide +kernel, by decide +kernel, by decide +kernel, Or.inl (by decide +kernel), by decide +kernel, ⟨⟨0x1000004C0, ⟨by decide +kernel, 0, 1216, by decide +kernel, by decide +kernel, by decide +kernel, by decide +kernel⟩, by decide +kernel, by decide +kernel, rfl, rfl⟩, by decide +kernel, by decide +kernel, ⟨by decide +kernel, 0, 8128, by decide +kernel, by decide +kernel, by decide +kernel, by decide +kernel⟩⟩⟩),
   (⟨0, { vector := 6 }, coreAt { runs with sg := [(6, stackSeg 0), (7, mkSeg 0 0x3FFFFF 0 true true false true)], g := [(31, 8192)], exc := { vbase := 1024 }, status := { iml := 12 } } 1440 (leBytes 4 0 ++ leBytes 4 256 ++ leBytes 16 (mkSeg 0 0x3FFFFF 0 true true false true).toNat), _, _, 0x100001FC0, by decide +kernel, by decide +kernel, by decide +kernel, Or.inl (by decide +kernel), by decide +kernel, by decide +kernel, ⟨⟨0x1000005A0, ⟨by decide +kernel, 0, 1440, by decide +kernel, by decide +kernel, by decide +kernel, by decide +kernel⟩, by decide +kernel, by decide +kernel, rfl, rfl⟩, by decide +kernel, by decide +kernel, ⟨by decide +kernel, 0, 8128, by decide +kernel, by decide +kernel, by decide +kernel, by decide +kernel⟩⟩⟩),
   (⟨0, { vector := 6 }, coreAt { runs with exc := { vbase := 1024, fsCode := mkSeg 0 0x3FFFFF 0 true true false true, fsEntry := 256 } } 1216 (leBytes 4 0 ++ leBytes 4 256 ++ leBytes 16 (mkSeg 0 0x3FFFFF 0 true true false true).toNat), 0x1000004C0, by decide +kernel, by decide +kernel, by decide +kernel, Or.inl (by decide +kernel), by decide +kernel, by decide +kernel, ⟨by decide +kernel, 0, 1216, by decide +kernel, by decide +kernel, by decide +kernel, by decide +kernel⟩, by decide +kernel, by decide +kernel, by decide +kernel⟩)⟩

theorem test_met_ExceptionsAndEvents :
    (∃ (c : Nat), ∃ (e : BufStore), ∃ (l : List BufStore), ∃ (s : State), (s.core c).storeBuf = e :: l) ∧
    (∃ (c : Nat), ∃ (s : State), (s.core c).run = .running ∧ (s.core c).exc.abePend = true ∧ (s.core c).status.iml.toNat < 15) ∧
    (∃ (c : Nat), ∃ (l : Nat), ∃ (s : State), (s.core c).run = .running ∧ abeDeliverable (s.core c) = false ∧ irqLevel (s.core c) = l ∧ (s.core c).status.iml.toNat < l) ∧
    (∃ (c : Nat), ∃ (s : State), Fetches c s ∧ (s.core c).status.pl = 0 ∧ (s.core c).muls = []) ∧
    (∃ (n : Nat), ∃ (line : Nat), ∃ (s : State), n < 9 ∧ lineExists line = true ∧ (lineKind (s.intcOf n) line = 1 ∨ ((s.intcOf n).retained = false ∧ wordHeld s n (line / 32) = false))) ∧
    (∃ (n : Nat), ∃ (line : Nat), ∃ (s : State), n < 9 ∧ lineExists line = true ∧ lineKind (s.intcOf n) line = 1 ∧ recordsOf n line s = []) ∧
    (∃ (n : Nat), ∃ (line : Nat), ∃ (c : Nat), ∃ (s : State), n < 9 ∧ c < 8 ∧ isReqEvent line = false ∧ linePresentable s n line = true ∧ lineKind (s.intcOf n) line = 0 ∧ targetCores (s.intcOf n) line = [c] ∧ hasPosition (s.core (n * 8 + c)) (n * 8 + c) line = true ∧ runPriority (s.core (n * 8 + c)) < 16) ∧
    (∃ (c : Nat), ∃ (pos : Nat), ∃ (r : EvRec), ∃ (s : State), c < 72 ∧ tfind (s.core c).ev.erq pos = some r ∧ r.claimed = false ∧ isReqEvent r.event = false ∧ lineKind (s.intcOf (c / 8)) r.event = 1 ∧ srcBit (s.intcOf (c / 8)) r.event = false ∧ wordHeld s (c / 8) (r.event / 32) = false) ∧
    (∃ (c : Nat), ∃ (pos : Nat), ∃ (r : EvRec), ∃ (s : State), Fetches c s ∧ (s.core c).status.pl.toNat ≤ 1 ∧ bestRecord (s.core c).ev.erq = some (pos, r) ∧ isReqEvent r.event = false) ∧
    (∃ (c : Nat), ∃ (pos : Nat), ∃ (r : EvRec), ∃ (s : State), Fetches c s ∧ (s.core c).status.pl.toNat ≤ 1 ∧ pos < 1024 ∧ tfind (s.core c).ev.erq pos = some r ∧ r.claimed = true) ∧
    (∃ (n : Nat), ∃ (word : Nat), n < 9 ∧ word < 16) ∧
    (∃ (c : Nat), ∃ (word : Nat), ∃ (s : State), Fetches c s ∧ (s.core c).status.pl = 0 ∧ c < 72 ∧ word < 16 ∧ (s.core c).ev.holdGrant = false ∧ heldByOther s c word = false) ∧
    (∃ (c : Nat), ∃ (s : State), Fetches c s ∧ (s.core c).status.pl = 0 ∧ (s.core c).ev.holdGrant = false) ∧
    (∃ (c : Nat), ∃ (s : State), (s.core c).ev.holdGrant = true) ∧
    (∃ (c : Nat), ∃ (s : State), (s.core c).run = .lightSleep ∧ (bestRecord (s.core c).ev.erq).isSome = true) ∧
    (∃ (c : Nat), ∃ (s : State), (s.core c).run = .deepSleep ∧ (bestRecord (s.core c).ev.erq).isSome = true) ∧
    (∃ (event : Nat), devLevel event ≠ 0) ∧
    (∃ (l : DevLatch), ∃ (rest : List DevLatch), ∃ (s : State), s.devEv = l :: rest ∧ hasPosition (s.core 0x50) 0x50 l.event = true) :=
  ⟨(⟨0, ⟨0x1000000000, 8, 1, 0⟩, [], coreAt { runs with storeBuf := [⟨0x1000000000, 8, 1, 0⟩] } (0) ([]), by decide +kernel⟩),
   (⟨0, coreAt { runs with exc := { abePend := true } } (0) ([]), by decide +kernel, by decide +kernel, by decide +kernel⟩),
   (⟨0, 5, coreAt { runs with ev := { erq := [(0, { event := 1, level := 5, seq := 0 })] } } (0) ([]), by decide +kernel, by decide +kernel, by decide +kernel, by decide +kernel⟩),
   (⟨0, coreAt runs 0 [], ⟨by decide +kernel, by decide +kernel, by decide +kernel, by decide +kernel⟩, by decide +kernel, by decide +kernel⟩),
   (⟨8, 0x1FF, up, by decide +kernel, by decide +kernel, by decide +kernel⟩),
   (⟨0, 1, { up with intc := [(0, { linecfg := [(1, 0x100)] })] }, by decide +kernel, by decide +kernel, by decide +kernel, by decide +kernel⟩),
   (⟨0, 1, 3, { up with intc := [(0, { linecfg := [(1, 0x80003)], mask := [(0, 0)], pend := [(0, 2)] })], cores := [(3, { runs with ev := { erqEn := true } })] }, by decide +kernel, by decide +kernel, by decide +kernel, by decide +kernel, by decide +kernel, by decide +kernel, by decide +kernel, by decide +kernel⟩),
   (⟨0, 4, { event := 1, level := 5, seq := 0 }, { up with intc := [(0, { linecfg := [(1, 0x100)] })], cores := [(0, { runs with ev := { erq := [(4, { event := 1, level := 5, seq := 0 })] } })] }, by decide +kernel, by decide +kernel, by decide +kernel, by decide +kernel, by decide +kernel, by decide +kernel, by decide +kernel⟩),
   (⟨0, 4, { event := 1, level := 5, seq := 0 }, coreAt { runs with status := { iml := 15 }, ev := { erq := [(4, { event := 1, level := 5, seq := 0 })] } } (0) ([]), ⟨by decide +kernel, by decide +kernel, by decide +kernel, by decide +kernel⟩, by decide +kernel, by decide +kernel, by decide +kernel⟩),
   (⟨0, 4, { event := 1, level := 5, seq := 0, claimed := true }, coreAt { runs with ev := { erq := [(4, { event := 1, level := 5, seq := 0, claimed := true })] } } (0) ([]), ⟨by decide +kernel, by decide +kernel, by decide +kernel, by decide +kernel⟩, by decide +kernel, by decide +kernel, by decide +kernel, by decide +kernel⟩),
   (⟨8, 15, by decide +kernel, by decide +kernel⟩),
   (⟨0, 15, coreAt runs 0 [], ⟨by decide +kernel, by decide +kernel, by decide +kernel, by decide +kernel⟩, by decide +kernel, by decide +kernel, by decide +kernel, by decide +kernel, by decide +kernel⟩),
   (⟨0, coreAt runs 0 [], ⟨by decide +kernel, by decide +kernel, by decide +kernel, by decide +kernel⟩, by decide +kernel, by decide +kernel⟩),
   (⟨0, coreAt { runs with ev := { holdGrant := true } } (0) ([]), by decide +kernel⟩),
   (⟨0, coreAt { runs with run := .lightSleep, ev := { erq := [(4, { event := 1, level := 5, seq := 0 })] } } (0) ([]), by decide +kernel, by decide +kernel⟩),
   (⟨0, coreAt { runs with run := .deepSleep, ev := { erq := [(4, { event := 1, level := 5, seq := 0 })] } } (0) ([]), by decide +kernel, by decide +kernel⟩),
   (⟨0x8090, by decide +kernel⟩),
   (⟨{ event := 0x8030, data := 0, tRaise := 0 }, [], { up with devEv := [{ event := 0x8030, data := 0, tRaise := 0 }], cores := [(0x50, { ev := { erqEn := true } })] }, by decide +kernel, by decide +kernel⟩)⟩

theorem test_met_AccessRules :
    (∃ (s : State), s.acl.busy = true) ∧
    (∃ (s : State), s.acl.checked = true ∧ s.acl.busy = false) ∧
    (∃ (s : State), (s.acl.checked = false ∨ s.acl.busy = true)) ∧
    (∃ (s : State), (s.acl.checked = false ∨ s.acl.busy = true)) ∧
    (∃ (off : Nat), (off = 0 ∨ (0x1000 ≤ off ∧ off < 0x2000) ∨ (0x10000 ≤ off ∧ off < 0x20000))) ∧
    (∃ (off : Nat), (off = 0 ∨ (0x1000 ≤ off ∧ off < 0x2000) ∨ (0x10000 ≤ off ∧ off < 0x20000))) ∧
    (∃ (off : Nat), (off = 0 ∨ (0x1000 ≤ off ∧ off < 0x2000) ∨ (0x10000 ≤ off ∧ off < 0x20000))) ∧
    (∃ (s : State), (s.core 0x50).storeBuf = []) ∧
    (∃ (v : BitVec 128), ∃ (l : List (BitVec 128)), ∃ (s : State), s.acl.log = v :: l) ∧
    (∃ (s : State), ∃ (m : Nat), ∃ (a : Nat), ∃ (size : Nat), ∃ (k : AccKind), ∃ (n : Nat), ∃ (o : Nat), resolve s m a = .sram n o ∧ 0 < size ∧ accessVerdict s m k a size = none) ∧
    (∃ (s : State), ∃ (m : Nat), ∃ (a : Nat), ∃ (size : Nat), ∃ (k : AccKind), ∃ (n : Nat), ∃ (o : Nat), resolve s m a = .sram n o ∧ 0 < size ∧ accessVerdict s m k a size = none ∧ k.isDebug = true) ∧
    (∃ (s : State), ∃ (m : Nat), ∃ (a : Nat), resolve s m a = .hole) :=
  ⟨(⟨{ up with acl := { busy := true } }, by decide +kernel⟩),
   (⟨{ up with acl := { checked := true } }, by decide +kernel, by decide +kernel⟩),
   (⟨up, Or.inl (by decide +kernel)⟩),
   (⟨{ up with acl := { checked := true, busy := true } }, Or.inr (by decide +kernel)⟩),
   (⟨0, by decide +kernel⟩),
   (⟨0x1FFF, by decide +kernel⟩),
   (⟨0x1FFFF, by decide +kernel⟩),
   (⟨up, by decide +kernel⟩),
   (⟨1, [], { up with acl := { log := [1] } }, by decide +kernel⟩),
   (⟨coreAt runs 0 [], 0, 64, 8, .read, 0, 64, by decide +kernel, by decide +kernel, by decide +kernel⟩),
   (⟨coreAt runs 0 [], 0x7E, 0x100000040, 8, .debugRead, 0, 64, by decide +kernel, by decide +kernel, by decide +kernel, by decide +kernel⟩),
   (⟨up, 0, 0xFFFFFFFF, by decide +kernel⟩)⟩

theorem test_met_ProtectionAndDebug :
    (∃ (start : Nat), ∃ (size : Nat), ∃ (s : State), counterUnit start size = true ∧ s.mpe.poison.any (fun p => p.start = start && p.size = size) = true ∧ parentFails start size s = false ∧ (start, size) ∉ s.mpe.zeroing) ∧
    (∃ (a : Nat), ∃ (n : Nat), ∃ (l : List (Nat × Nat)), ∃ (s : State), s.mpe.zeroing = (a, n) :: l ∧ memWf s.mem = true) ∧
    (∃ (n : Nat), ∃ (w : Nat), ∃ (s : State), (s.chan n).data = .inService ∧ n < 9 ∧ w < 524288) ∧
    (∃ (line : Nat), ∃ (s : State), 64 * line < ddrUsable s) ∧
    (∃ (size : Nat), ∃ (addr : Nat), ∃ (key : Nat), ∃ (s : State), s.life.halted = false ∧ dbgBusy s = false ∧ debugEnabled s = true ∧ dbgSizeOk size = true ∧ accessVerdict s 0x7E .debugRead addr size = none ∧ ((∃ n o, resolve s 0x7E addr = .sram n o ∧ key = memKey (.sram n o) ∧ readError s (.sram n o) size = none))) ∧
    (∃ (size : Nat), ∃ (addr : Nat), ∃ (key : Nat), ∃ (s : State), s.life.halted = false ∧ dbgBusy s = false ∧ debugEnabled s = true ∧ dbgSizeOk size = true ∧ accessVerdict s 0x7E .debugWrite addr size = none ∧ ((∃ n o, resolve s 0x7E addr = .sram n o ∧ key = memKey (.sram n o) ∧ readError s (.sram n o) size = none))) ∧
    (∃ (s : State), debugEnabled s = false ∧ s.life.halted = false ∧ dbgBusy s = false) ∧
    (∃ (c : Nat), ∃ (s : State), dbgBusy s = false ∧ debugHaltable c s = true ∧ canHalt (s.core c) = true) ∧
    (∃ (c : Nat), ∃ (s : State), dbgBusy s = false ∧ debugEnabled s = true ∧ s.life.halted = false ∧ (s.core c).run = .halted) ∧
    (∃ (c : Nat), ∃ (i : Instr), ∃ (s : State), ∃ (u : State), dbgBusy s = false ∧ debugEnabled s = true ∧ s.life.halted = false ∧ (s.core c).run = .halted ∧ Ortan.decode c (wordAtPc c s) = i ∧ isaRun i ((dbgRequest 0x12 0 c 0 0 s).modCore c (fun k => { k with run := .running })) = .next u ∧ (u.core c).run = .running) ∧
    (∃ (c : Nat), ∃ (s : State), dbgBusy s = false ∧ debugEnabled s = true ∧ s.life.halted = false ∧ (s.core c).run = .halted) ∧
    (∃ (c : Nat), ∃ (s : State), dbgBusy s = false ∧ debugHaltable c s = true) ∧
    (∃ (s : State), dbgBusy s = false ∧ s.life.halted = false) ∧
    (∃ (s : State), s.pins.sysRst = true) ∧
    (∃ (s : State), s.pins.sysRst = false) :=
  ⟨(⟨4096, 4096, { up with mpe := { poison := [⟨4096, 4096, 1⟩] } }, by decide +kernel, by decide +kernel, by decide +kernel, by decide +kernel⟩),
   (⟨4096, 4096, [], { up with mpe := { zeroing := [(4096, 4096)] } }, by decide +kernel, by decide +kernel⟩),
   (⟨8, 524287, { up with chans := [(8, { data := .inService })] }, by decide +kernel, by decide +kernel, by decide +kernel⟩),
   (⟨0, { up with ddr := { cap := 8 } }, by decide +kernel⟩),
   (⟨8, 0x100000040, 0x100000040, { coreAt { runs with run := .halted, haltedFrom := .running } 0 [] with life := { state := .initial }, chans := [(0, { data := .restTest })] }, by decide +kernel, by decide +kernel, by decide +kernel, by decide +kernel, by decide +kernel, ⟨0, 64, by decide +kernel, by decide +kernel, by decide +kernel⟩⟩),
   (⟨1, 0x100000040, 0x100000040, { coreAt { runs with run := .halted, haltedFrom := .running } 0 [] with life := { state := .initial }, chans := [(0, { data := .restTest })] }, by decide +kernel, by decide +kernel, by decide +kernel, by decide +kernel, by decide +kernel, ⟨0, 64, by decide +kernel, by decide +kernel, by decide +kernel⟩⟩),
   (⟨up, by decide +kernel, by decide +kernel, by decide +kernel⟩),
   (⟨0, { coreAt { runs with run := .running } 0 [] with life := { state := .initial }, chans := [(0, { data := .restTest })] }, by decide +kernel, by decide +kernel, by decide +kernel⟩),
   (⟨0, { coreAt { runs with run := .halted, haltedFrom := .running } 0 [] with life := { state := .initial }, chans := [(0, { data := .restTest })] }, by decide +kernel, by decide +kernel, by decide +kernel, by decide +kernel⟩),
   (let ⟨u, h, h'⟩ := next_running (x := isaRun (Ortan.decode 0 (wordAtPc 0 debugged)) ((dbgRequest 0x12 0 0 0 0 debugged).modCore 0 (fun k => { k with run := .running }))) (by decide +kernel)
    ⟨0, _, debugged, u, by decide +kernel, by decide +kernel, by decide +kernel, by decide +kernel, rfl, h, h'⟩),
   (⟨0, { coreAt { runs with run := .halted, haltedFrom := .running } 0 [] with life := { state := .initial }, chans := [(0, { data := .restTest })] }, by decide +kernel, by decide +kernel, by decide +kernel, by decide +kernel⟩),
   (⟨0, { coreAt { runs with run := .halted, haltedFrom := .running } 0 [] with life := { state := .initial }, chans := [(0, { data := .restTest })] }, by decide +kernel, by decide +kernel⟩),
   (⟨up, by decide +kernel, by decide +kernel⟩),
   (⟨{ State.reset with pins := { sysRst := true } }, by decide +kernel⟩),
   (⟨up, by decide +kernel⟩)⟩

theorem test_met_ManagementTransports :
    (∃ (id : Nat), ∃ (c : Nat), ∃ (s : State), s.mgmt.busOff = false ∧ s.cfg 0x1010 3 ≠ 0 ∧ bits id 28 27 = 2 ∧ bits id 26 24 = c ∧ bits id 23 8 = 0 ∧ bits id 7 0 = s.cfg 0x1010 1 ∧ tfind s.mgmt.can c = none) ∧
    (∃ (ext : Bool), ∃ (id : Nat), ∃ (s : State), (ext = false ∨ bits id 7 0 ≠ s.cfg 0x1010 1 ∨ s.mgmt.busOff = true)) ∧
    (∃ (ext : Bool), ∃ (id : Nat), ∃ (s : State), (ext = false ∨ bits id 7 0 ≠ s.cfg 0x1010 1 ∨ s.mgmt.busOff = true)) ∧
    (∃ (c : Nat), ∃ (r : CanRx), ∃ (s : State), tfind s.mgmt.can c = some r ∧ r.since + 100000000 ≤ s.time) ∧
    (∃ (s : State), s.mgmt.busOff = false) ∧
    (∃ (f : Nat), ∃ (v : Nat), ∃ (s : State), f < 8 ∧ bit (s.mailbox f).ctrl 31 = true ∧ (s.mailbox f).state = 0 ∧ 48 ≤ v % 65536 ∧ v % 65536 ≤ 4400) ∧
    (∃ (f : Nat), ∃ (v : Nat), ∃ (s : State), f < 8 ∧ bit (s.mailbox f).ctrl 31 = true ∧ (s.mailbox f).state = 0 ∧ 48 ≤ v % 65536 ∧ v % 65536 ≤ 4400) ∧
    (∃ (f : Nat), ∃ (s : State), f < 8 ∧ bit (s.mailbox f).ctrl 31 = true ∧ (s.mailbox f).state ≠ 0) ∧
    (∃ (f : Nat), f < 8) ∧
    (∃ (f : Nat), f < 8) ∧
    (∃ (m : Nat), ∃ (body : Bytes), ∃ (s : State), m < 16 ∧ mgHelloGood body = true ∧ s.supRestarting = false ∧ s.mgSess m = none ∧ leAt body 0 1 = 0 ∧ s.cfgB 0x1041 1 = true) :=
  ⟨(⟨2 * 2 ^ 27 + 3 * 2 ^ 24 + 9, 3, { up with od := [(odKey 0x1010 1, 9), (odKey 0x1010 3, 1)] }, by decide +kernel, by decide +kernel, by decide +kernel, by decide +kernel, by decide +kernel, by decide +kernel, by decide +kernel⟩),
   (⟨false, 0, up, Or.inl (by decide +kernel)⟩),
   (⟨true, 0, { up with mgmt := { busOff := true } }, Or.inr (Or.inr (by decide +kernel))⟩),
   (⟨3, ⟨1, [], 0⟩, { up with mgmt := { can := [(3, ⟨1, [], 0⟩)] }, time := 10 ^ 8 }, by decide +kernel, by decide +kernel⟩),
   (⟨up, by decide +kernel⟩),
   (⟨7, 4400, { up with mgmt := { mb := [(7, { ctrl := 2 ^ 31 })] } }, by decide +kernel, by decide +kernel, by decide +kernel, by decide +kernel, by decide +kernel⟩),
   (⟨0, 48, { up with mgmt := { mb := [(0, { ctrl := 2 ^ 31 })] } }, by decide +kernel, by decide +kernel, by decide +kernel, by decide +kernel, by decide +kernel⟩),
   (⟨7, { up with mgmt := { mb := [(7, { ctrl := 2 ^ 31, state := 1 })] } }, by decide +kernel, by decide +kernel, by decide +kernel⟩),
   (⟨7, by decide +kernel⟩),
   (⟨7, by decide +kernel⟩),
   (⟨3, zeros 144, { up with od := [(odKey 0x1041 1, 1)] }, by decide +kernel, by decide +kernel, by decide +kernel, by decide +kernel, by decide +kernel, by decide +kernel⟩)⟩

theorem test_met_ManagementOperations :
    (∃ (m : Nat), ∃ (k : MgSess), ∃ (s : State), ∃ (flags : Nat), ∃ (items : List MgItem), ∃ (x : MgSess), Asks s m k ∧ itemCountOk items = true ∧ flags < 2 ∧ (readItems m flags 0 items (heard m k s)).1.length ≤ 4336 ∧ (readItems m flags 0 items (heard m k s)).2.2.mgSess m = some x) ∧
    (∃ (m : Nat), ∃ (k : MgSess), ∃ (s : State), ∃ (items : List MgItem), ∃ (x : MgSess), Asks s m k ∧ itemCountOk items = true ∧ (writeItems m 0 items (heard m k s)).1.length ≤ 4336 ∧ (writeItems m 0 items (heard m k s)).2.2.2.mgSess m = some x) ∧
    (∃ (m : Nat), ∃ (k : MgSess), ∃ (s : State), ∃ (items : List MgItem), Asks s m k ∧ itemCountOk items = true ∧ (items.map (fun it => (describeItem it).1)).flatten.length ≤ 4336) ∧
    (∃ (m : Nat), ∃ (k : MgSess), ∃ (s : State), ∃ (it : MgItem), ∃ (x : Nat), Asks s m k ∧ nextKey? k.role (odKey it.index it.sub) = some x ∧ (odFind (x / 256) (x % 256)).isSome = true) ∧
    (∃ (m : Nat), ∃ (k : MgSess), ∃ (s : State), Asks s m k ∧ k.txn = none) ∧
    (∃ (m : Nat), ∃ (k : MgSess), ∃ (s : State), ∃ (x : Txn), Asks s m k ∧ k.txn = some x) ∧
    (∃ (m : Nat), ∃ (k : MgSess), ∃ (s : State), ∃ (x : Txn), Asks s m k ∧ k.txn = some x ∧ x.state = .opened) ∧
    (∃ (m : Nat), ∃ (k : MgSess), ∃ (s : State), ∃ (x : Txn), Asks s m k ∧ k.txn = some x ∧ x.state = .opened ∧ commitAllowed s = true ∧ x.staged.all (fun y => roleWrites k.role y.index y.sub && (k.role != 3 || recordsOwn (heard m k s) m { k with lastRx := s.time } y.index y.data)) = true) ∧
    (∃ (m : Nat), ∃ (k : MgSess), ∃ (s : State), ∃ (x : Txn), Asks s m k ∧ k.txn = some x ∧ x.state = .opened ∧ k.lastRx + s.cfg 0x1100 1 * 1000000 ≤ s.time) ∧
    (∃ (m : Nat), ∃ (k : MgSess), ∃ (s : State), ∃ (x : Txn), Asks s m k ∧ k.txn = some x ∧ x.state = .opened ∧ x.openedAt + s.cfg 0x1100 2 * 1000000000 ≤ s.time) :=
  ⟨(let ⟨x, h⟩ := Option.isSome_iff_exists.mp (show ((readItems 3 1 0 [{ index := 0x9000, sub := 1, typ := 0 }] (heard 3 { role := 1, auth := true } (asked { role := 1, auth := true } up))).2.2.mgSess 3).isSome = true by decide +kernel); ⟨3, { role := 1, auth := true }, asked { role := 1, auth := true } up, 1, _, x, ⟨by decide +kernel, by decide +kernel, by decide +kernel, by decide +kernel⟩, by decide +kernel, by decide +kernel, by decide +kernel, h⟩),
   (let ⟨x, h⟩ := Option.isSome_iff_exists.mp (show ((writeItems 3 0 [{ index := 0x2010, sub := 4, typ := 0x07, len := 4, value := [0, 0, 0, 0] }] (heard 3 { role := 1, auth := true } (asked { role := 1, auth := true } up))).2.2.2.mgSess 3).isSome = true by decide +kernel); ⟨3, { role := 1, auth := true }, asked { role := 1, auth := true } up, _, x, ⟨by decide +kernel, by decide +kernel, by decide +kernel, by decide +kernel⟩, by decide +kernel, by decide +kernel, h⟩),
   (⟨3, { role := 1, auth := true }, asked { role := 1, auth := true } up, [{ index := 0x9000, sub := 1, typ := 0 }], ⟨by decide +kernel, by decide +kernel, by decide +kernel, by decide +kernel⟩, by decide +kernel, by decide +kernel⟩),
   (⟨3, { role := 1, auth := true }, asked { role := 1, auth := true } up, { index := 0x9073, sub := 2, typ := 0 }, odKey 0x9073 3, ⟨by decide +kernel, by decide +kernel, by decide +kernel, by decide +kernel⟩, by decide +kernel, by decide +kernel⟩),
   (⟨3, { role := 1, auth := true }, asked { role := 1, auth := true } up, ⟨by decide +kernel, by decide +kernel, by decide +kernel, by decide +kernel⟩, by decide +kernel⟩),
   (⟨3, { role := 1, auth := true, txn := some { id := 1, staged := [] } }, asked { role := 1, auth := true, txn := some { id := 1, staged := [] } } up, { id := 1, staged := [] }, ⟨by decide +kernel, by decide +kernel, by decide +kernel, by decide +kernel⟩, by decide +kernel⟩),
   (⟨3, { role := 1, auth := true, txn := some { id := 1, staged := [] } }, asked { role := 1, auth := true, txn := some { id := 1, staged := [] } } up, { id := 1, staged := [] }, ⟨by decide +kernel, by decide +kernel, by decide +kernel, by decide +kernel⟩, by decide +kernel, by decide +kernel⟩),
   (⟨3, { role := 1, auth := true, txn := some { id := 1, staged := [] } }, asked { role := 1, auth := true, txn := some { id := 1, staged := [] } } up, { id := 1, staged := [] }, ⟨by decide +kernel, by decide +kernel, by decide +kernel, by decide +kernel⟩, by decide +kernel, by decide +kernel, by decide +kernel, by decide +kernel⟩),
   (⟨3, { role := 1, auth := true, txn := some { id := 1, staged := [] } }, asked { role := 1, auth := true, txn := some { id := 1, staged := [] } } ({ up with time := 10 ^ 14 }), { id := 1, staged := [] }, ⟨by decide +kernel, by decide +kernel, by decide +kernel, by decide +kernel⟩, by decide +kernel, by decide +kernel, by decide +kernel⟩),
   (⟨3, { role := 1, auth := true, txn := some { id := 1, staged := [] } }, asked { role := 1, auth := true, txn := some { id := 1, staged := [] } } ({ up with time := 10 ^ 14 }), { id := 1, staged := [] }, ⟨by decide +kernel, by decide +kernel, by decide +kernel, by decide +kernel⟩, by decide +kernel, by decide +kernel, by decide +kernel⟩)⟩

theorem test_met_CommitCourse :
    (∃ (j : CommitJob), ∃ (s : State), s.mgmt.job = some j ∧ j.stage = 3 ∧ j.imageWait = false) ∧
    (∃ (j : CommitJob), ∃ (u : State), ∃ (s : State), s.mgmt.job = some j ∧ j.stage = 3 ∧ j.imageWait = false ∧ applyJob j { s with free := j.free0 } = .ok u) ∧
    (∃ (j : CommitJob), ∃ (m : Nat), ∃ (k : MgSess), ∃ (x : Txn), ∃ (s : State), s.mgmt.job = some j ∧ j.stage = 3 ∧ j.imageWait = false ∧ j.dtxn = none ∧ j.sess = some m ∧ s.mgSess m = some k ∧ k.txn = some x ∧ s.mgmt.commits = [] ∧ s.mgmt.toApply = []) ∧
    (∃ (n : Nat), ∃ (j : CommitJob), ∃ (s : State), s.mgmt.job = some j ∧ j.stage = 6 ∧ n ∈ j.waits ∧ j.waits.filter (fun x => x != n) ≠ []) ∧
    (∃ (n : Nat), ∃ (j : CommitJob), ∃ (s : State), s.mgmt.job = some j ∧ j.stage = 6 ∧ n ∈ j.waits ∧ j.waits.filter (fun x => x != n) = []) :=
  ⟨(⟨{ sess := some 3, txn := 1, slot := 0, staged := [], stage := 3 }, { up with mgmt := { job := some { sess := some 3, txn := 1, slot := 0, staged := [], stage := 3 } } }, by decide +kernel, by decide +kernel, by decide +kernel⟩),
   (⟨{ sess := some 3, txn := 1, slot := 0, staged := [], stage := 3 }, _, { up with mgmt := { job := some { sess := some 3, txn := 1, slot := 0, staged := [], stage := 3 } } }, by decide +kernel, by decide +kernel, by decide +kernel, rfl⟩),
   (⟨{ sess := some 3, txn := 1, slot := 0, staged := [], stage := 3 }, 3, { role := 1, auth := true, txn := some { id := 1, staged := [], state := .committing } }, { id := 1, staged := [], state := .committing }, { up with mgmt := { job := some { sess := some 3, txn := 1, slot := 0, staged := [], stage := 3 }, sess := [(3, { role := 1, auth := true, txn := some { id := 1, staged := [], state := .committing } })] } }, by decide +kernel, by decide +kernel, by decide +kernel, by decide +kernel, by decide +kernel, by decide +kernel, by decide +kernel, by decide +kernel, by decide +kernel⟩),
   (⟨2, { sess := some 3, txn := 1, slot := 0, staged := [], stage := 6, waits := [2, 3] }, { up with mgmt := { job := some { sess := some 3, txn := 1, slot := 0, staged := [], stage := 6, waits := [2, 3] } } }, by decide +kernel, by decide +kernel, by decide +kernel, by decide +kernel⟩),
   (⟨2, { sess := some 3, txn := 1, slot := 0, staged := [], stage := 6, waits := [2] }, { up with mgmt := { job := some { sess := some 3, txn := 1, slot := 0, staged := [], stage := 6, waits := [2] } } }, by decide +kernel, by decide +kernel, by decide +kernel, by decide +kernel⟩)⟩

theorem test_met_FriezePorts :
    (∃ (p : Nat), ∃ (s : State), p < 3 ∧ (s.frzPort p).state = .detect) ∧
    (∃ (p : Nat), ∃ (loss : List Nat), ∃ (s : State), p < 3 ∧ ((s.frzPort p).state = .train ∨ (s.frzPort p).state = .retrain) ∧ loss.any (fun v => decide (300 < v)) = false) ∧
    (∃ (p : Nat), ∃ (loss : List Nat), ∃ (s : State), p < 3 ∧ ((s.frzPort p).state = .train ∨ (s.frzPort p).state = .retrain) ∧ loss.any (fun v => decide (300 < v)) = false) ∧
    (∃ (p : Nat), ∃ (ber : Bool), ∃ (loss : List Nat), ∃ (s : State), p < 3 ∧ ((s.frzPort p).state = .train ∨ (s.frzPort p).state = .retrain) ∧ (ber = false ∨ loss.any (fun v => decide (300 < v)) = true)) ∧
    (∃ (p : Nat), ∃ (ber : Bool), ∃ (loss : List Nat), ∃ (s : State), p < 3 ∧ ((s.frzPort p).state = .train ∨ (s.frzPort p).state = .retrain) ∧ (ber = false ∨ loss.any (fun v => decide (300 < v)) = true)) ∧
    (∃ (p : Nat), ∃ (s : State), p < 3 ∧ (s.frzPort p).state = .align) ∧
    (∃ (p : Nat), ∃ (s : State), p < 3 ∧ (s.frzPort p).state = .handshake) ∧
    (∃ (p : Nat), ∃ (s : State), p < 3 ∧ (s.frzPort p).state = .measure ∧ 16 ≤ (s.frzPort p).exchanges ∧ 5000000 < dC (s.frzPort p)) ∧
    (∃ (p : Nat), ∃ (s : State), p < 3 ∧ (s.frzPort p).state = .measure ∧ 16 ≤ (s.frzPort p).exchanges ∧ dC (s.frzPort p) ≤ 5000000 ∧ joinResult s p ≠ 0) ∧
    (∃ (p : Nat), ∃ (s : State), p < 3 ∧ (s.frzPort p).state = .measure ∧ 16 ≤ (s.frzPort p).exchanges ∧ dC (s.frzPort p) ≤ 5000000 ∧ joinResult s p = 0) ∧
    (∃ (p : Nat), ∃ (l : Nat), ∃ (s : State), p < 3 ∧ stepLimit (s.frzPort p).state = some l ∧ (s.frzPort p).enteredAt + l ≤ s.time) ∧
    (∃ (p : Nat), ∃ (s : State), p < 3 ∧ ((s.frzPort p).state = .up ∨ (s.frzPort p).state = .held)) ∧
    (∃ (p : Nat), ∃ (s : State), p < 3 ∧ (s.frzPort p).txKey.isEmpty = false ∧ 2 ^ 31 ≤ (s.frzPort p).txSeq) ∧
    (∃ (p : Nat), ∃ (k : Slot), ∃ (u : State), ∃ (s : State), p < 3 ∧ ((s.frzPort p).state = .up ∨ (s.frzPort p).state = .held) ∧ fetchChecks (s.cfg 0x5005 1) 0 0x40000 (fun a => a = 0x1002) true s = .ok k u) :=
  ⟨(⟨2, { up with frz := { ports := [(2, { state := .detect })] } }, by decide +kernel, by decide +kernel⟩),
   (⟨2, [300], { up with frz := { ports := [(2, { state := .train })] } }, by decide +kernel, Or.inl (by decide +kernel), by decide +kernel⟩),
   (⟨0, [], { up with frz := { ports := [(0, { state := .retrain })] } }, by decide +kernel, Or.inr (by decide +kernel), by decide +kernel⟩),
   (⟨2, false, [], { up with frz := { ports := [(2, { state := .train })] } }, by decide +kernel, Or.inl (by decide +kernel), Or.inl (by decide +kernel)⟩),
   (⟨2, true, [301], { up with frz := { ports := [(2, { state := .retrain })] } }, by decide +kernel, Or.inr (by decide +kernel), Or.inr (by decide +kernel)⟩),
   (⟨2, { up with frz := { ports := [(2, { state := .align })] } }, by decide +kernel, by decide +kernel⟩),
   (⟨2, { up with frz := { ports := [(2, { state := .handshake })] } }, by decide +kernel, by decide +kernel⟩),
   (⟨2, { up with frz := { ports := [(2, { state := .measure, exchanges := 16, delay := 5000000 })] } }, by decide +kernel, by decide +kernel, by decide +kernel, by decide +kernel⟩),
   (⟨2, { up with frz := { ports := [(2, { state := .measure, exchanges := 16 })] } }, by decide +kernel, by decide +kernel, by decide +kernel, by decide +kernel, by decide +kernel⟩),
   (⟨2, { up with frz := { ports := [(2, { state := .measure, exchanges := 16, cap := octets 64 [(0, 1), (8, 5), (28, 0xFF), (29, 0xFF), (32, 0xFF), (33, 0xFF), (36, 1)] })] }, od := [(odKey 0x6002 1, 65535), (odKey 0x6002 2, 65535)], life := { state := .operational, step := 9, bankA := { release := 1, compatMin := 1, compatMax := 1 } } }, by decide +kernel, by decide +kernel, by decide +kernel, by decide +kernel, by decide +kernel⟩),
   (⟨2, 300000000, { up with frz := { ports := [(2, { state := .train })] }, time := 300000000 }, by decide +kernel, by decide +kernel, by decide +kernel⟩),
   (⟨2, { up with frz := { ports := [(2, { state := .up })] } }, by decide +kernel, Or.inl (by decide +kernel)⟩),
   (⟨2, { up with frz := { ports := [(2, { state := .up, txKey := [1], txSeq := 2 ^ 31 })] } }, by decide +kernel, by decide +kernel, by decide +kernel⟩),
   (⟨2, _, _, { up with frz := { ports := [(2, { state := .up })] }, od := [(odKey 0x5005 1, 16)], ks := { rootsPresent := true, tenants := [(0, { state := .active })], slots := [(16, { key 0x1002 0x40000 with tenant := 0 })] } }, by decide +kernel, Or.inl (by decide +kernel), rfl⟩)⟩

theorem test_met_LinkAndMessages :
    (∃ (p : Nat), ∃ (b : Bytes), ∃ (s : State), p < 3 ∧ ((s.frzPort p).state = .measure ∨ (s.frzPort p).state = .up ∨ (s.frzPort p).state = .held) ∧ leAt b 27 1 = (s.frzPort p).rxEpoch % 256 ∧ leAt b 0 8 = (s.frzPort p).rxSeq + 1 ∧ gcmTag (s.frzPort p).rxKey ((s.frzPort p).rxIv ++ leBytes 8 (leAt b 0 8)) (b.take 48) (slice b 48 576) = slice b 624 16) ∧
    (∃ (p : Nat), ∃ (b : Bytes), ∃ (s : State), p < 3 ∧ (s.frzPort p).state = .handshake ∧ allZero (slice b 624 16) = false) ∧
    (∃ (p : Nat), ∃ (s : State), p < 3 ∧ (s.frzPort p).state = .handshake ∧ (countFault 0x0B p 0 (bump 0x9068 2 0 (s.modFrzPort p (fun k => { k with nak := true })))).2 = false) ∧
    (∃ (p : Nat), ∃ (b : Bytes), ∃ (s : State), p < 3 ∧ (s.frzPort p).state = .held ∧ leAt b 27 1 = (s.frzPort p).rxEpoch % 256 ∧ gcmTag (s.frzPort p).rxKey ((s.frzPort p).rxIv ++ leBytes 8 (leAt b 0 8)) (b.take 48) (slice b 48 576) ≠ slice b 624 16) ∧
    (∃ (p : Nat), ∃ (s : State), p < 3 ∧ (s.frzPort p).state = .measure) ∧
    (∃ (p : Nat), ∃ (s : State), p < 3 ∧ (((s.frzPort p).state = .up ∨ (s.frzPort p).state = .held) ∧ (s.frzPort p).lastExchange + 1000000 ≤ s.time ∨ (s.frzPort p).state = .measure ∧ (s.frzPort p).lastExchange + 100000 ≤ s.time)) ∧
    (∃ (p : Nat), ∃ (s : State), p < 3 ∧ (((s.frzPort p).state = .up ∨ (s.frzPort p).state = .held) ∧ (s.frzPort p).lastExchange + 1000000 ≤ s.time ∨ (s.frzPort p).state = .measure ∧ (s.frzPort p).lastExchange + 100000 ≤ s.time)) ∧
    (∃ (x : Topo), ∃ (s : State), x.addr ≠ partAddr s ∧ ((∀ o, tfind s.frz.topo x.addr = some o → o.seq < x.seq))) ∧
    (∃ (x : Topo), ∃ (o : Topo), ∃ (s : State), tfind s.frz.topo x.addr = some o ∧ x.seq ≤ o.seq) ∧
    (∃ (s : State), s.frz.lastTopo + 10000000000 ≤ s.time) ∧
    (∃ (a : Advert), ∃ (p : Nat), ∃ (s : State), (s.frzPort p).state = .up ∧ a.addr ≠ partAddr s ∧ s.frz.adverts.find? (fun x => x.addr = a.addr) = none) ∧
    (∃ (p : Nat), ∃ (s : State), upPorts s = [p] ∧ (s.frzPort p).waiting = [] ∧ (s.frzPort p).sent = [] ∧ creditOf (s.frzPort p) 2 = 512 ∧ (ownAdvert s p).tenants.length < 4096) :=
  ⟨(⟨2, octets 640 [(0, 1), (624, 225), (625, 43), (626, 64), (627, 11), (628, 128), (629, 203), (630, 72), (631, 6), (632, 60), (633, 37), (634, 116), (635, 224), (636, 72), (637, 0), (638, 125), (639, 179)], { up with frz := { ports := [(2, { state := .measure })] } }, by decide +kernel, Or.inl (by decide +kernel), by decide +kernel, by decide +kernel, by decide +kernel⟩),
   (⟨2, octets 640 [(624, 1)], { up with frz := { ports := [(2, { state := .handshake })] } }, by decide +kernel, by decide +kernel, by decide +kernel⟩),
   (⟨2, { up with frz := { ports := [(2, { state := .handshake })] } }, by decide +kernel, by decide +kernel, by decide +kernel⟩),
   (⟨2, octets 640 [(0, 1)], { up with frz := { ports := [(2, { state := .held })] } }, by decide +kernel, by decide +kernel, by decide +kernel, by decide +kernel⟩),
   (⟨2, { up with frz := { ports := [(2, { state := .measure })] } }, by decide +kernel, by decide +kernel⟩),
   (⟨2, { up with frz := { ports := [(2, { state := .up })] }, time := 1000000 }, by decide +kernel, Or.inl ⟨Or.inl (by decide +kernel), by decide +kernel⟩⟩),
   (⟨2, { up with frz := { ports := [(2, { state := .measure })] }, time := 100000 }, by decide +kernel, Or.inr ⟨by decide +kernel, by decide +kernel⟩⟩),
   (⟨{ addr := 5, seq := 1 }, up, by decide +kernel, fun o h => nomatch h⟩),
   (⟨{ addr := 5, seq := 1 }, { addr := 5, seq := 1 }, { up with frz := { topo := [(5, { addr := 5, seq := 1 })] } }, by decide +kernel, by decide +kernel⟩),
   (⟨{ up with time := 10000000000 }, by decide +kernel⟩),
   (⟨{ addr := 5, links := 1, port := 0, c1 := 1, c2 := 1, c3 := 1 }, 2, { up with frz := { ports := [(2, { state := .up })] } }, by decide +kernel, by decide +kernel, by decide +kernel⟩),
   (⟨2, { up with frz := { ports := [(2, { state := .up })] } }, by decide +kernel, by decide +kernel, by decide +kernel, by decide +kernel, by decide +kernel⟩)⟩

theorem test_met_SpillAndAlarms :
    (∃ (p : Nat), ∃ (env : Bytes), p < 3 ∧ envelopeBad env = true) ∧
    (∃ (p : Nat), ∃ (env : Bytes), ∃ (s : State), p < 3 ∧ spilledReq (consume p 0x02 s) (leAt env 4 4) = none) ∧
    (∃ (p : Nat), ∃ (env : Bytes), ∃ (s : State), ∃ (q : Request), ∃ (port : Nat), p < 3 ∧ s.req? (leAt env 4 4) = some q ∧ q.stage = .spilled port ∧ bit (leAt env 2 1) 2 = false) ∧
    (∃ (p : Nat), ∃ (env : Bytes), ∃ (s : State), ∃ (q : Request), ∃ (port : Nat), p < 3 ∧ s.req? (leAt env 4 4) = some q ∧ q.stage = .spilled port ∧ q.hdr.class ≠ 0) ∧
    (∃ (p : Nat), ∃ (origin : Nat), ∃ (seq : Nat), ∃ (s : State), p < 3 ∧ (s.frzPort p).state = .up ∧ origin ≠ partAddr s ∧ ((∀ n, tfind s.frz.alarmSeq origin = some n → n < seq))) ∧
    (∃ (p : Nat), ∃ (origin : Nat), ∃ (seq : Nat), ∃ (n : Nat), ∃ (s : State), p < 3 ∧ (s.frzPort p).state = .up ∧ tfind s.frz.alarmSeq origin = some n ∧ seq ≤ n) ∧
    (∃ (data : Bytes), data.length < 32) ∧
    (∃ (dst : Nat), ∃ (data : Bytes), ∃ (s : State), 32 ≤ data.length ∧ (routeForm (leAt data 0 8) ≠ 1 ∨ dst = partAddr s) ∧ ((∀ e ∈ s.frz.returns, e.1 ≠ leAt data 0 8)) ∧ routeOwn s (leAt data 0 8) = true) ∧
    (∃ (p : Nat) (env msg : Bytes) (s : State) (q : Request), p < 3 ∧ envelopeBad env = false ∧ bit (leAt env 2 1) 0 = false ∧ q = { hdr := Header.ofBytes msg, payload := msg.drop 64, via := .frieze p, tIn := leAt env 8 8, wasSpilled := true, originAddr := leAt env 0 2, originRid := leAt env 4 4, envelope := env, extraNs := leAt env 16 4, pcie := bit (leAt env 2 1) 1, replayed := bit (leAt env 2 1) 2 } ∧ (let u := bump 0x9068 5 0 (consume p 0x01 s); let q' : Request := { q with budget := declaredBudget u q.hdr q.payload }; serviceChecks u q' = none ∧ outstanding u q.hdr.tenant < outLimit u q.hdr.tenant ∧ tableUsed u < 262144 ∧ chansIn u ≠ [] ∧ heldFrom u p < u.cfg (0x6020 + p) 3)) :=
  ⟨(⟨2, [], by decide +kernel, by decide +kernel⟩),
   (⟨2, octets 32 [], up, by decide +kernel, by decide +kernel⟩),
   (⟨2, octets 32 [(4, 7)], { up with reqs := [(7, { job 0x0101 0 [] with stage := .spilled 2, hdr := { cls := 1 } })] }, { job 0x0101 0 [] with stage := .spilled 2, hdr := { cls := 1 } }, 2, by decide +kernel, by decide +kernel, by decide +kernel, by decide +kernel⟩),
   (⟨2, octets 32 [(4, 7)], { up with reqs := [(7, { job 0x0101 0 [] with stage := .spilled 2, hdr := { cls := 1 } })] }, { job 0x0101 0 [] with stage := .spilled 2, hdr := { cls := 1 } }, 2, by decide +kernel, by decide +kernel, by decide +kernel, by decide +kernel⟩),
   (⟨2, 5, 1, { up with frz := { ports := [(2, { state := .up })] } }, by decide +kernel, by decide +kernel, by decide +kernel, fun n h => nomatch h⟩),
   (⟨2, 5, 1, 1, { up with frz := { ports := [(2, { state := .up })], alarmSeq := [(5, 1)] } }, by decide +kernel, by decide +kernel, by decide +kernel, by decide +kernel⟩),
   (⟨zeros 31, by decide +kernel⟩),
   (⟨0, zeros 32, up, by decide +kernel, Or.inl (by decide +kernel), by decide +kernel, by decide +kernel⟩),
   (⟨2, octets 32 [], octets 72 [(0, 1), (2, 1), (8, 1), (9, 1), (10, 1)], { up with chans := (List.range 9).map (fun n => (n, { data := .inService })), ks := { rootsPresent := true, tenants := [(1, { state := .active })] }, frz := { ports := [(2, { state := .up })] }, od := [(odKey 0x4004 1, 100), (odKey 0x6022 3, 100)] }, _, by decide +kernel, by decide +kernel, by decide +kernel, rfl, by decide +kernel, by decide +kernel, by decide +kernel, by decide +kernel, by decide +kernel⟩)⟩

theorem test_met_DomainTransactions :
    (∃ (coord : Nat), ∃ (d : Nat), ∃ (s : State), tfind s.mgmt.domain d = none ∧ decisionOf s d = none ∧ coord ≠ partAddr s) ∧
    (∃ (src : Nat), ∃ (d : Nat), ∃ (x : DomainTxn), ∃ (s : State), tfind s.mgmt.coord d = some x ∧ x.state = 0 ∧ src ∈ x.members) ∧
    (∃ (src : Nat), ∃ (d : Nat), ∃ (x : DomainTxn), ∃ (s : State), tfind s.mgmt.coord d = some x ∧ x.state = 0 ∧ src ∈ x.members ∧ src ∉ x.yes ∧ votesEnough s { x with yes := x.yes ++ [src] } = false) ∧
    (∃ (d : Nat), ∃ (x : DomainTxn), ∃ (s : State), tfind s.mgmt.domain d = some x ∧ x.state ≠ 3) ∧
    (∃ (d : Nat), ∃ (x : DomainTxn), ∃ (s : State), tfind s.mgmt.domain d = some x ∧ x.state ≠ 3 ∧ s.mgmt.job = none ∧ x.origin ≠ partAddr s) ∧
    (∃ (d : Nat), ∃ (x : DomainTxn), ∃ (s : State), tfind s.mgmt.domain d = some x ∧ x.state ≠ 3) ∧
    (∃ (v : Nat), ∃ (s : State), (domainList s).contains (partAddr s) = false ∧ v ≤ s.mgmt.domVer) ∧
    (∃ (r : Tenant), ∃ (v : Nat), ∃ (s : State), (domainList s).contains (partAddr s) = true ∧ v ≤ s.mgmt.domVer ∧ r.replicated = true) ∧
    (∃ (d : Nat), ∃ (x : DomainTxn), ∃ (s : State), tfind s.mgmt.coord d = some x ∧ x.state = 0 ∧ x.since + s.cfg 0x6005 2 * 1000000 ≤ s.time) ∧
    (∃ (d : Nat), ∃ (x : DomainTxn), ∃ (s : State), tfind s.mgmt.coord d = some x ∧ x.state = 2 ∧ x.lastQuery + 100000000 ≤ s.time) ∧
    (∃ (d : Nat), ∃ (x : DomainTxn), ∃ (s : State), tfind s.mgmt.domain d = some x ∧ x.state = 1 ∧ Nat.max x.since x.lastQuery + 1000000000 ≤ s.time ∧ s.frz.removed.contains x.coord = false) ∧
    (∃ (j : CommitJob), ∃ (m : Nat), ∃ (d : Nat), ∃ (k : MgSess), ∃ (x : Txn), ∃ (s : State), s.mgmt.job = some j ∧ j.domain = true ∧ j.dtxn = some d ∧ j.sess = some m ∧ s.mgSess m = some k ∧ k.txn = some x ∧ j.since + s.cfg 0x6005 2 * 1000000 + 1000000000 ≤ s.time) ∧
    (∃ (m : Nat), ∃ (k : MgSess), ∃ (d : Nat), ∃ (x : DomainTxn), ∃ (s : State), Asks s m k ∧ k.role = 1 ∧ d < 2 ^ 64 ∧ tfind s.mgmt.domain d = some x ∧ x.state = 1 ∧ x.origin ≠ partAddr s ∧ s.mgmt.job = none ∧ s.mgmt.toApply = [] ∧ s.mgmt.commits = []) ∧
    (∃ (m : Nat), ∃ (k : MgSess), ∃ (d : Nat), ∃ (s : State), Asks s m k ∧ k.role = 1 ∧ d < 2 ^ 64 ∧ tfind s.mgmt.domain d = none) :=
  ⟨(⟨6, 5, up, by decide +kernel, by decide +kernel, by decide +kernel⟩),
   (⟨7, 5, { id := 5, origin := 4, coord := 6, staged := [], state := 0, members := [7] }, { up with mgmt := { coord := [(5, { id := 5, origin := 4, coord := 6, staged := [], state := 0, members := [7] })] }, time := 10 ^ 13 }, by decide +kernel, by decide +kernel, by decide +kernel⟩),
   (⟨7, 5, { id := 5, origin := 4, coord := 6, staged := [], state := 0, members := [7, 8] }, { up with mgmt := { coord := [(5, { id := 5, origin := 4, coord := 6, staged := [], state := 0, members := [7, 8] })] }, time := 10 ^ 13 }, by decide +kernel, by decide +kernel, by decide +kernel, by decide +kernel, by decide +kernel⟩),
   (⟨5, { id := 5, origin := 4, coord := 6, staged := [], state := 1 }, { up with mgmt := { domain := [(5, { id := 5, origin := 4, coord := 6, staged := [], state := 1 })] }, time := 10 ^ 13 }, by decide +kernel, by decide +kernel⟩),
   (⟨5, { id := 5, origin := 4, coord := 6, staged := [], state := 1 }, { up with mgmt := { domain := [(5, { id := 5, origin := 4, coord := 6, staged := [], state := 1 })] }, time := 10 ^ 13 }, by decide +kernel, by decide +kernel, by decide +kernel, by decide +kernel⟩),
   (⟨5, { id := 5, origin := 4, coord := 6, staged := [], state := 1 }, { up with mgmt := { domain := [(5, { id := 5, origin := 4, coord := 6, staged := [], state := 1 })] }, time := 10 ^ 13 }, by decide +kernel, by decide +kernel⟩),
   (⟨0, up, by decide +kernel, by decide +kernel⟩),
   (⟨{ replicated := true }, 0, { up with frz := { addr := 5 }, odb := [(odKey 0x6006 1, [5, 0])] }, by decide +kernel, by decide +kernel, by decide +kernel⟩),
   (⟨5, { id := 5, origin := 4, coord := 6, staged := [], state := 0 }, { up with mgmt := { coord := [(5, { id := 5, origin := 4, coord := 6, staged := [], state := 0 })] }, time := 10 ^ 13 }, by decide +kernel, by decide +kernel, by decide +kernel⟩),
   (⟨5, { id := 5, origin := 4, coord := 6, staged := [], state := 2 }, { up with mgmt := { coord := [(5, { id := 5, origin := 4, coord := 6, staged := [], state := 2 })] }, time := 10 ^ 13 }, by decide +kernel, by decide +kernel, by decide +kernel⟩),
   (⟨5, { id := 5, origin := 4, coord := 6, staged := [], state := 1 }, { up with mgmt := { domain := [(5, { id := 5, origin := 4, coord := 6, staged := [], state := 1 })] }, time := 10 ^ 13 }, by decide +kernel, by decide +kernel, by decide +kernel, by decide +kernel⟩),
   (⟨{ sess := some 3, txn := 1, slot := 0, staged := [], stage := 2, domain := true, dtxn := some 5 }, 3, 5, { role := 1, auth := true, txn := some { id := 1, staged := [] } }, { id := 1, staged := [] }, { up with mgmt := { job := some { sess := some 3, txn := 1, slot := 0, staged := [], stage := 2, domain := true, dtxn := some 5 }, sess := [(3, { role := 1, auth := true, txn := some { id := 1, staged := [] } })] }, time := 10 ^ 13 }, by decide +kernel, by decide +kernel, by decide +kernel, by decide +kernel, by decide +kernel, by decide +kernel, by decide +kernel⟩),
   (⟨3, { role := 1, auth := true }, 5, { id := 5, origin := 4, coord := 6, staged := [], state := 1 }, asked { role := 1, auth := true } ({ up with mgmt := { domain := [(5, { id := 5, origin := 4, coord := 6, staged := [], state := 1 })] }, time := 10 ^ 13 }), ⟨by decide +kernel, by decide +kernel, by decide +kernel, by decide +kernel⟩, by decide +kernel, by decide +kernel, by decide +kernel, by decide +kernel, by decide +kernel, by decide +kernel, by decide +kernel, by decide +kernel⟩),
   (⟨3, { role := 1, auth := true }, 5, asked { role := 1, auth := true } up, ⟨by decide +kernel, by decide +kernel, by decide +kernel, by decide +kernel⟩, by decide +kernel, by decide +kernel, by decide +kernel⟩)⟩

theorem test_met_AlarmReports :
    (∃ (a : Nat), ∃ (s : State), a ≤ 0x22 ∧ a ≠ 0x14 ∧ a ≠ 0x15 ∧ watching s = true ∧ (s.alarm a).state = .clear) ∧
    (∃ (a : Nat), ∃ (s : State), (0x22 < a ∨ watching s = false)) ∧
    (∃ (a : Nat), ∃ (s : State), (0x22 < a ∨ watching s = false)) ∧
    (∃ (a : Nat), ∃ (s : State), (s.alarm a).state = .active ∧ inWindow s a = true) ∧
    (∃ (a : Nat), ∃ (s : State), (s.alarm a).state = .active ∧ inWindow s a = false) ∧
    (∃ (a : Nat), ∃ (s : State), (s.alarm a).state ≠ .active) ∧
    (∃ (n : Nat), ∃ (s : State), n < 256 ∧ watching s = true ∧ (s.alarm 0).state = .clear ∧ true ∈ (tget [] s.arm.hist n).take 3) ∧
    (∃ (g : Nat), ∃ (r : Nat), ∃ (s : State), g < 32 ∧ tget 0 s.arm.baseR g ≠ 0 ∧ tget 0 s.arm.baseR g * 110 < r * 100 ∧ tget false s.arm.deviated g = true ∧ watching s = true ∧ (s.alarm 1).state = .clear) ∧
    (∃ (g : Nat), ∃ (s : State), tget 0 s.arm.baseR g = 0 ∧ tget 0 s.arm.baseC g = 0) ∧
    (∃ (s : State), watching s = true ∧ (s.alarm 0x1D).state = .clear) ∧
    (∃ (a : Nat), ∃ (s : State), (s.arm.failed.filter (fun x => x != a) ≠ [] ∨ s.arm.failed = [])) ∧
    (∃ (a : Nat), ∃ (s : State), (s.arm.failed.filter (fun x => x != a) ≠ [] ∨ s.arm.failed = [])) ∧
    (∃ (n : Nat), ∃ (v : Nat), ∃ (s : State), n < 4 ∧ watching s = true ∧ tampWindow (tampMode s n) (tget 0 s.arm.trained n) v = true ∧ (s.alarm (0x0E + n)).state = .clear) ∧
    (∃ (n : Nat), ∃ (v : Nat), ∃ (x : Nat), ∃ (s : State), n < 4 ∧ watching s = true ∧ tampLevel (tampMode s n) v = true ∧ tfind s.arm.tampSince n = some x ∧ x + s.cfg 0x7009 (n + 1) * 1000 ≤ s.time ∧ (s.alarm (0x0A + n)).state = .clear) ∧
    (∃ (n : Nat), ∃ (v : Nat), ∃ (s : State), n < 4 ∧ watching s = true ∧ tampLevel (tampMode s n) v = false) :=
  ⟨(⟨5, up, by decide +kernel, by decide +kernel, by decide +kernel, by decide +kernel, by decide +kernel⟩),
   (⟨35, up, Or.inl (by decide +kernel)⟩),
   (⟨5, { up with batt := { mainPower := false } }, Or.inr (by decide +kernel)⟩),
   (⟨5, { up with alarms := [(5, { state := .active })], window := some { openedAt := 0, before := 0, reports := [{ alarm := 5, level := 2, sdata := [] }] } }, by decide +kernel, by decide +kernel⟩),
   (⟨5, { up with alarms := [(5, { state := .active })] }, by decide +kernel, by decide +kernel⟩),
   (⟨5, up, by decide +kernel⟩),
   (⟨255, { up with arm := { hist := [(255, [false, false, true, false])] } }, by decide +kernel, by decide +kernel, by decide +kernel, by decide +kernel⟩),
   (⟨31, 1000, { up with arm := { baseR := [(31, 900)], deviated := [(31, true)] } }, by decide +kernel, by decide +kernel, by decide +kernel, by decide +kernel, by decide +kernel, by decide +kernel⟩),
   (⟨0, up, by decide +kernel, by decide +kernel⟩),
   (⟨up, by decide +kernel, by decide +kernel⟩),
   (⟨5, { up with arm := { failed := [3, 5] } }, Or.inl (by decide +kernel)⟩),
   (⟨5, up, Or.inr (by decide +kernel)⟩),
   (⟨3, 200000, { up with od := [(odKey 0x7008 4, 1)] }, by decide +kernel, by decide +kernel, by decide +kernel, by decide +kernel⟩),
   (⟨0, 900, 0, { up with time := 10 ^ 9, od := [(odKey 0x7008 1, 1)], arm := { tampSince := [(0, 0)] } }, by decide +kernel, by decide +kernel, by decide +kernel, by decide +kernel, by decide +kernel, by decide +kernel⟩),
   (⟨0, 800, { up with od := [(odKey 0x7008 1, 1)] }, by decide +kernel, by decide +kernel, by decide +kernel⟩)⟩

theorem test_met_AlarmResponses :
    (∃ (w : Window), ∃ (s : State), s.window = some w ∧ cerOpen s = false ∧ ((∀ r ∈ w.reports, r.alarm ≤ 0x24 ∧ r.level ≤ w.before ∧ (s.alarm r.alarm).oneShot = false))) ∧
    (∃ (w : Window), ∃ (s : State), s.window = some w ∧ w.before < 4 ∧ ((∃ r ∈ w.reports, r.level = 4)) ∧ ((∀ r ∈ w.reports, r.level ≤ 4))) ∧
    (∃ (w : Window), ∃ (s : State), s.window = some w ∧ w.before < 3 ∧ ((∃ r ∈ w.reports, r.level = 3)) ∧ ((∀ r ∈ w.reports, r.level ≤ 3))) ∧
    (∃ (s : State), s.window = none) ∧
    (∃ (a : Nat), ∃ (s : State), (s.alarm a).state = .held ∧ alarmLatched s a = false ∧ (s.alarm a).raised < 4 ∧ (s.alarm a).leftAt + s.cfg 0x7003 1 * 1000000000 ≤ s.time) ∧
    (∃ (a : Nat), ∃ (s : State), (s.alarm a).state = .held ∧ (alarmLatched s a = true ∨ s.time < (s.alarm a).leftAt + s.cfg 0x7003 1 * 1000000000)) ∧
    (∃ (a : Nat), ∃ (s : State), (s.alarm a).state = .held ∧ (alarmLatched s a = true ∨ s.time < (s.alarm a).leftAt + s.cfg 0x7003 1 * 1000000000)) ∧
    (∃ (m : Nat), ∃ (k : MgSess), ∃ (a : Nat), ∃ (s : State), Asks s m k ∧ k.role = 1 ∧ a ≤ 0x24 ∧ (s.alarm a).state = .held ∧ alarmLatched s a = true ∧ (s.alarm a).raised ≤ 2 ∧ inWindow s a = false) ∧
    (∃ (m : Nat), ∃ (k : MgSess), ∃ (a : Nat), ∃ (s : State), Asks s m k ∧ k.role = 1 ∧ a ≤ 0x24 ∧ ((s.alarm a).state = .active ∨ 2 < (s.alarm a).raised ∨ inWindow s a = true)) ∧
    (∃ (m : Nat), ∃ (k : MgSess), ∃ (a : Nat), ∃ (s : State), Asks s m k ∧ k.role = 1 ∧ a ≤ 0x24 ∧ ((s.alarm a).state = .active ∨ 2 < (s.alarm a).raised ∨ inWindow s a = true)) ∧
    (∃ (m : Nat), ∃ (k : MgSess), ∃ (a : Nat), ∃ (s : State), Asks s m k ∧ k.role = 1 ∧ a ≤ 0x24 ∧ ((s.alarm a).state = .active ∨ 2 < (s.alarm a).raised ∨ inWindow s a = true)) ∧
    (∃ (s : State), s.batt.mainPower = true) ∧
    (∃ (s : State), s.batt.mainPower = false) ∧
    (∃ (s : State), watching s = false ∧ s.batt.reporting = []) ∧
    (∃ (a : Nat), ∃ (s : State), watching s = false ∧ a < 0x25 ∧ sampled s a = true ∧ armedErases s a = true) ∧
    (∃ (a : Nat), ∃ (s : State), watching s = false ∧ a < 0x25 ∧ a ≠ 0x1F ∧ sampled s a = true ∧ armedErases s a = false) ∧
    (∃ (s : State), watching s = true) :=
  ⟨(⟨{ openedAt := 0, before := 1, reports := [{ alarm := 5, level := 1, sdata := [] }] }, { up with window := some { openedAt := 0, before := 1, reports := [{ alarm := 5, level := 1, sdata := [] }] } }, by decide +kernel, by decide +kernel, by decide +kernel⟩),
   (⟨{ openedAt := 0, before := 3, reports := [{ alarm := 5, level := 4, sdata := [] }] }, { up with window := some { openedAt := 0, before := 3, reports := [{ alarm := 5, level := 4, sdata := [] }] } }, by decide +kernel, by decide +kernel, by decide +kernel, by decide +kernel⟩),
   (⟨{ openedAt := 0, before := 2, reports := [{ alarm := 5, level := 3, sdata := [] }] }, { up with window := some { openedAt := 0, before := 2, reports := [{ alarm := 5, level := 3, sdata := [] }] } }, by decide +kernel, by decide +kernel, by decide +kernel, by decide +kernel⟩),
   (⟨up, by decide +kernel⟩),
   (⟨0x22, { up with alarms := [(34, { state := .held, raised := 1, flags := some 0 })], time := 10 ^ 15 }, by decide +kernel, by decide +kernel, by decide +kernel, by decide +kernel⟩),
   (⟨5, { up with alarms := [(5, { state := .held, flags := some 1 })] }, by decide +kernel, Or.inl (by decide +kernel)⟩),
   (⟨5, { up with alarms := [(5, { state := .held, flags := some 0 })] }, by decide +kernel, Or.inr (by decide +kernel)⟩),
   (⟨3, { role := 1, auth := true }, 5, asked { role := 1, auth := true } ({ up with alarms := [(5, { state := .held, raised := 2, flags := some 1 })] }), ⟨by decide +kernel, by decide +kernel, by decide +kernel, by decide +kernel⟩, by decide +kernel, by decide +kernel, by decide +kernel, by decide +kernel, by decide +kernel, by decide +kernel⟩),
   (⟨3, { role := 1, auth := true }, 0x24, asked { role := 1, auth := true } ({ up with alarms := [(36, { state := .active })] }), ⟨by decide +kernel, by decide +kernel, by decide +kernel, by decide +kernel⟩, by decide +kernel, by decide +kernel, Or.inl (by decide +kernel)⟩),
   (⟨3, { role := 1, auth := true }, 5, asked { role := 1, auth := true } ({ up with alarms := [(5, { state := .held, raised := 3 })] }), ⟨by decide +kernel, by decide +kernel, by decide +kernel, by decide +kernel⟩, by decide +kernel, by decide +kernel, Or.inr (Or.inl (by decide +kernel))⟩),
   (⟨3, { role := 1, auth := true }, 5, asked { role := 1, auth := true } ({ up with window := some { openedAt := 0, before := 0, reports := [{ alarm := 5, level := 1, sdata := [] }] } }), ⟨by decide +kernel, by decide +kernel, by decide +kernel, by decide +kernel⟩, by decide +kernel, by decide +kernel, Or.inr (Or.inr (by decide +kernel))⟩),
   (⟨up, by decide +kernel⟩),
   (⟨{ up with batt := { mainPower := false } }, by decide +kernel⟩),
   (⟨{ up with batt := { mainPower := false } }, by decide +kernel, by decide +kernel⟩),
   (⟨0, { up with batt := { mainPower := false } }, by decide +kernel, by decide +kernel, by decide +kernel, by decide +kernel⟩),
   (⟨0, { up with batt := { mainPower := false, flags := [(0, 0)] }, alarms := [] }, by decide +kernel, by decide +kernel, by decide +kernel, by decide +kernel, by decide +kernel⟩),
   (⟨up, by decide +kernel⟩)⟩

theorem test_met_LogChain :
    (∃ (s : State), chainBad s = none ∧ (retained s ≠ [] ∨ (s.pat.blocks = [] ∧ headLink s = linkZero s))) ∧
    (∃ (s : State), retained s ≠ [] ∧ chainBad s = none) :=
  ⟨(⟨up, rfl, Or.inr ⟨rfl, rfl⟩⟩),
   (⟨{ up with pat := { headSeq := 1, headLink := linkAfter (linkZero up) { seq := 1, time := 0, source := 0, code := 1, data := zeros 24 }, buffer := [{ seq := 1, time := 0, source := 0, code := 1, data := zeros 24, link := linkAfter (linkZero up) { seq := 1, time := 0, source := 0, code := 1, data := zeros 24 } }] } }, List.cons_ne_nil _ _, chain_of_one _ _ rfl rfl rfl rfl rfl⟩)⟩

theorem test_met_LogKeeping :
    (∃ (b : LogBlock), ∃ (s : State), canProgram s = true ∧ 4 ≤ s.pat.buffer.length ∧ openLog s = some b) ∧
    (∃ (b : LogBlock), ∃ (s : State), canProgram s = true ∧ 4 ≤ s.pat.buffer.length ∧ openLog s = some b) ∧
    (∃ (b : LogBlock), ∃ (e : Entry), ∃ (l : List Entry), ∃ (s : State), canProgram s = true ∧ s.pat.buffer = e :: l ∧ l.length < 3 ∧ e.entered + 50000000 ≤ s.time ∧ openLog s = some b) ∧
    (∃ (e : Entry), ∃ (l : List Entry), ∃ (s : State), s.pat.buffer = e :: l ∧ s.time < e.entered + 50000000) ∧
    (∃ (s : State), s.pat.lastCpTime + s.cfg 0x7110 2 * 1000000000 ≤ s.time) ∧
    (∃ (s : State), s.time < s.pat.lastCpTime + s.cfg 0x7110 2 * 1000000000) ∧
    (∃ (m : Nat), ∃ (k : MgSess), ∃ (s : State), Asks s m k ∧ k.role = 1) ∧
    (∃ (m : Nat), ∃ (k : MgSess), ∃ (e : Entry), ∃ (l : List Entry), ∃ (s : State), Asks s m k ∧ (k.role = 1 ∨ k.role = 2) ∧ s.pat.openCps = e :: l ∧ e.seq < 2 ^ 64 ∧ e.link.length = 16 ∧ s.pat.readCps.contains e.seq = true) ∧
    (∃ (m : Nat), ∃ (k : MgSess), ∃ (q : Nat), ∃ (e : Entry), ∃ (s : State), Asks s m k ∧ (k.role = 1 ∨ k.role = 2) ∧ k.txn = none ∧ selValue k 0x7111 1 = q ∧ s.plink.state = .up ∧ serviceCount s ≠ 0 ∧ checkpointAt s q = some e) ∧
    (∃ (b : LogBlock), ∃ (l : List LogBlock), ∃ (s : State), s.pat.blocks = b :: l ∧ freeBlocks s ≤ 4 ∧ recyclable s = true) ∧
    (∃ (s : State), (recyclable s = false ∨ 4 < freeBlocks s)) ∧
    (∃ (s : State), (recyclable s = false ∨ 4 < freeBlocks s)) ∧
    (∃ (s : State), chainBad s = none) ∧
    (∃ (bad : Option Nat), ∃ (s : State), (bad ≠ none ∨ chainBad s ≠ none) ∧ watching s = true ∧ (s.alarm 0x21).state = .clear) :=
  ⟨(⟨{ pos := 0, openCount := 0, firstSeq := 0, linkBefore := [], entries := [], closed := false }, { up with pat := { buffer := [{ seq := 1, time := 0, source := 1, code := 1, data := [] }, { seq := 2, time := 0, source := 1, code := 1, data := [] }, { seq := 3, time := 0, source := 1, code := 1, data := [] }, { seq := 4, time := 0, source := 1, code := 1, data := [] }], blocks := [{ pos := 0, openCount := 0, firstSeq := 0, linkBefore := [], entries := [], closed := false }] } }, by decide +kernel, by decide +kernel, by decide +kernel⟩),
   (⟨{ pos := 0, openCount := 0, firstSeq := 0, linkBefore := [], entries := [], closed := false }, { up with pat := { buffer := [{ seq := 1, time := 0, source := 1, code := 1, data := [] }, { seq := 2, time := 0, source := 1, code := 1, data := [] }, { seq := 3, time := 0, source := 1, code := 1, data := [] }, { seq := 4, time := 0, source := 1, code := 1, data := [] }], blocks := [{ pos := 0, openCount := 0, firstSeq := 0, linkBefore := [], entries := [], closed := false }] } }, by decide +kernel, by decide +kernel, by decide +kernel⟩),
   (⟨{ pos := 0, openCount := 0, firstSeq := 0, linkBefore := [], entries := [], closed := false }, { seq := 1, time := 0, source := 1, code := 1, data := [] }, [], { up with time := 50000000, pat := { buffer := [{ seq := 1, time := 0, source := 1, code := 1, data := [] }], blocks := [{ pos := 0, openCount := 0, firstSeq := 0, linkBefore := [], entries := [], closed := false }] } }, by decide +kernel, by decide +kernel, by decide +kernel, by decide +kernel, by decide +kernel⟩),
   (⟨{ seq := 1, time := 0, source := 1, code := 1, data := [] }, [], { up with time := 49999999, pat := { buffer := [{ seq := 1, time := 0, source := 1, code := 1, data := [] }], blocks := [{ pos := 0, openCount := 0, firstSeq := 0, linkBefore := [], entries := [], closed := false }] } }, by decide +kernel, by decide +kernel⟩),
   (⟨{ up with time := 10 ^ 15 }, by decide +kernel⟩),
   (⟨up, by decide +kernel⟩),
   (⟨3, { role := 1, auth := true }, asked { role := 1, auth := true } up, ⟨by decide +kernel, by decide +kernel, by decide +kernel, by decide +kernel⟩, by decide +kernel⟩),
   (⟨3, { role := 1, auth := true }, { seq := 9, time := 0, source := 0, code := 2, data := [], link := zeros 16 }, [], asked { role := 1, auth := true } ({ up with pat := { openCps := [{ seq := 9, time := 0, source := 0, code := 2, data := [], link := zeros 16 }], readCps := [9] } }), ⟨by decide +kernel, by decide +kernel, by decide +kernel, by decide +kernel⟩, Or.inl (by decide +kernel), by decide +kernel, by decide +kernel, by decide +kernel, by decide +kernel⟩),
   (⟨3, { role := 1, auth := true, sel := [(odKey 0x7111 1, 9)] }, 9, { seq := 9, time := 0, source := 0, code := 2, data := [], link := zeros 16 }, asked { role := 1, auth := true, sel := [(odKey 0x7111 1, 9)] } ({ up with plink := { state := .up }, pat := { buffer := [{ seq := 9, time := 0, source := 0, code := 2, data := [], link := zeros 16 }], blocks := [] }, chans := (List.range 9).map (fun n => (n, { data := .inService })) }), ⟨by decide +kernel, by decide +kernel, by decide +kernel, by decide +kernel⟩, Or.inl (by decide +kernel), by decide +kernel, by decide +kernel, by decide +kernel, by decide +kernel, by decide +kernel⟩),
   (⟨{ pos := 0, openCount := 0, firstSeq := 0, linkBefore := [], entries := [{ seq := 1, time := 0, source := 1, code := 1, data := [] }], closed := true }, (List.range 59).map (fun i => { pos := i + 1, openCount := 0, firstSeq := 0, linkBefore := [] }), { up with pat := { lastAck := 2, blocks := { pos := 0, openCount := 0, firstSeq := 0, linkBefore := [], entries := [{ seq := 1, time := 0, source := 1, code := 1, data := [] }], closed := true } :: (List.range 59).map (fun i => { pos := i + 1, openCount := 0, firstSeq := 0, linkBefore := [] }) } }, rfl, by decide +kernel, by decide +kernel⟩),
   (⟨up, Or.inl (by decide +kernel)⟩),
   (⟨{ up with pat := { lastAck := 2, blocks := [{ pos := 0, openCount := 0, firstSeq := 0, linkBefore := [], entries := [{ seq := 1, time := 0, source := 1, code := 1, data := [] }], closed := false }, { pos := 0, openCount := 0, firstSeq := 0, linkBefore := [], entries := [], closed := false }] } }, Or.inr (by decide +kernel)⟩),
   (⟨up, rfl⟩),
   (⟨some 4, up, Or.inl (by decide +kernel), by decide +kernel, by decide +kernel⟩)⟩

theorem test_met_FlashArray :
    (∃ (op : Nat), ∃ (c : Instr), ∃ (r : Nat), ∃ (s : State), (op, c) ∈ [(1, Instr.program), (2, .erase), (5, .blankCheck)] ∧ flashRefusal op s = some r) ∧
    (∃ (op : Nat), ∃ (c : Instr), ∃ (r : Nat), ∃ (s : State), (op, c) ∈ [(1, Instr.program), (2, .erase), (5, .blankCheck)] ∧ flashRefusal op s = some r) ∧
    (∃ (op : Nat), ∃ (c : Instr), ∃ (r : Nat), ∃ (s : State), (op, c) ∈ [(1, Instr.program), (2, .erase), (5, .blankCheck)] ∧ flashRefusal op s = some r) ∧
    (∃ (s : State), flashRefusal 1 s = none) ∧
    (∃ (s : State), flashRefusal 2 s = none) ∧
    (∃ (s : State), flashRefusal 5 s = none) ∧
    (∃ (b : Nat), ∃ (d : Bytes), ∃ (s : State), s.flash.running = some (2, b, d)) ∧
    (∃ (s : State), ((∀ b d, s.flash.running ≠ some (2, b, d)))) ∧
    (∃ (s : State), s.flash.busy = false ∧ s.flash.suspended = true) ∧
    (∃ (s : State), (s.flash.busy = true ∨ s.flash.suspended = false)) ∧
    (∃ (s : State), (s.flash.busy = true ∨ s.flash.suspended = false)) ∧
    (∃ (p : Nat), ∃ (d : Bytes), ∃ (n : Nat), ∃ (s : State), s.flash.running = some (1, p, d) ∧ n ≤ 200) ∧
    (∃ (p : Nat), ∃ (d : Bytes), ∃ (s : State), s.flash.running = some (1, p, d)) ∧
    (∃ (b : Nat), ∃ (d : Bytes), ∃ (n : Nat), ∃ (s : State), s.flash.running = some (2, b, d) ∧ n ≤ 1200 ∧ (s.flash.block b).closed = false) ∧
    (∃ (b : Nat), ∃ (d : Bytes), ∃ (s : State), s.flash.running = some (2, b, d)) ∧
    (∃ (p : Nat), ∃ (d : Bytes), ∃ (s : State), s.flash.running = some (5, p, d)) ∧
    (∃ (u : Nat), ∃ (s : State), u < 2 ^ 19 ∧ wsNeeded s ≤ s.flash.cfg % 16 ∧ s.flash.suspended = true ∧ s.flash.sblock = u / 2048) ∧
    (∃ (u : Nat), ∃ (n : Nat), ∃ (s : State), u < 2 ^ 19 ∧ wsNeeded s ≤ s.flash.cfg % 16 ∧ (s.flash.suspended = false ∨ s.flash.sblock ≠ u / 2048) ∧ n ≤ s.flash.thresh ∧ n ≤ 24 ∧ (s.flash.block (u / 2048)).unspecified = false) ∧
    (∃ (u : Nat), ∃ (n : Nat), ∃ (s : State), u < 2 ^ 19 ∧ wsNeeded s ≤ s.flash.cfg % 16 ∧ (s.flash.suspended = false ∨ s.flash.sblock ≠ u / 2048) ∧ n ≤ s.flash.thresh ∧ n ≤ 24 ∧ (s.flash.block (u / 2048)).unspecified = false) ∧
    (∃ (u : Nat), ∃ (n : Nat), ∃ (s : State), u < 2 ^ 19 ∧ wsNeeded s ≤ s.flash.cfg % 16 ∧ (s.flash.suspended = false ∨ s.flash.sblock ≠ u / 2048) ∧ s.flash.thresh < n ∧ n ≤ 24 ∧ (s.flash.block (u / 2048)).unspecified = false) ∧
    (∃ (u : Nat), ∃ (n : Nat), ∃ (s : State), u < 2 ^ 19 ∧ wsNeeded s ≤ s.flash.cfg % 16 ∧ (s.flash.suspended = false ∨ s.flash.sblock ≠ u / 2048) ∧ 24 < n) ∧
    (∃ (s : State), wsNeeded s ≤ s.flash.cfg % 16 ∧ s.flash.suspended = false ∧ s.flash.blocks = [] ∧ s.flash.units = []) :=
  ⟨(⟨2, .erase, 6, { up with flash := { addr := 256 } }, by decide +kernel, by decide +kernel⟩),
   (⟨1, .program, 1, { up with flash := { busy := true } }, by decide +kernel, by decide +kernel⟩),
   (⟨5, .blankCheck, 3, { up with flash := { suspended := true } }, by decide +kernel, by decide +kernel⟩),
   (⟨{ up with flash := { addr := 256 } }, by decide +kernel⟩),
   (⟨{ up with flash := { addr := 131072 } }, by decide +kernel⟩),
   (⟨up, by decide +kernel⟩),
   (⟨7, [], { up with flash := { running := some (2, 7, []), busy := true } }, by decide +kernel⟩),
   (⟨{ up with flash := { running := some (1, 7, []) } }, fun b d h => absurd (Option.some.inj h) (by simp)⟩),
   (⟨{ up with flash := { suspended := true } }, by decide +kernel, by decide +kernel⟩),
   (⟨up, Or.inr (by decide +kernel)⟩),
   (⟨{ up with flash := { busy := true } }, Or.inl (by decide +kernel)⟩),
   (⟨7, [], 200, { up with flash := { running := some (1, 7, []) } }, by decide +kernel, by decide +kernel⟩),
   (⟨7, [], { up with flash := { running := some (1, 7, []) } }, by decide +kernel⟩),
   (⟨7, [], 1200, { up with flash := { running := some (2, 7, []) } }, by decide +kernel, by decide +kernel, by decide +kernel⟩),
   (⟨7, [], { up with flash := { running := some (2, 7, []) } }, by decide +kernel⟩),
   (⟨7, [], { up with flash := { running := some (5, 7, []) } }, by decide +kernel⟩),
   (⟨2 ^ 19 - 1, { up with flash := { suspended := true, sblock := 255 } }, by decide +kernel, by decide +kernel, by decide +kernel, by decide +kernel⟩),
   (⟨2 ^ 19 - 1, 8, up, by decide +kernel, by decide +kernel, Or.inl (by decide +kernel), by decide +kernel, by decide +kernel, by decide +kernel⟩),
   (⟨2048, 0, { up with flash := { suspended := true, sblock := 0 } }, by decide +kernel, by decide +kernel, Or.inr (by decide +kernel), by decide +kernel, by decide +kernel, by decide +kernel⟩),
   (⟨0, 24, up, by decide +kernel, by decide +kernel, Or.inl (by decide +kernel), by decide +kernel, by decide +kernel, by decide +kernel⟩),
   (⟨0, 25, up, by decide +kernel, by decide +kernel, Or.inl (by decide +kernel), by decide +kernel⟩),
   (⟨up, by decide +kernel, by decide +kernel, by decide +kernel, by decide +kernel⟩)⟩

theorem test_met_BanksAndImages :
    (∃ (s : State), s.life.fwRestart = true) ∧
    (∃ (s : State), s.life.fwRestart = false) ∧
    (∃ (s : State), s.supRestarting = true ∧ s.mgmt.job = none) ∧
    (∃ (s : State), s.supRestarting = false) ∧
    (∃ (s : State), s.life.act = 2 ∧ s.life.trialAt + s.cfg 0x8020 4 * 1000000000 ≤ s.time) ∧
    (∃ (s : State), (s.life.act ≠ 2 ∨ s.time < s.life.trialAt + s.cfg 0x8020 4 * 1000000000)) ∧
    (∃ (s : State), (s.life.act ≠ 2 ∨ s.time < s.life.trialAt + s.cfg 0x8020 4 * 1000000000)) ∧
    (∃ (m : Nat), ∃ (k : MgSess), ∃ (s : State), Asks s m k ∧ k.role = 1 ∧ inTrial s = true) ∧
    (∃ (m : Nat), ∃ (k : MgSess), ∃ (s : State), Asks s m k ∧ k.role = 1 ∧ inTrial s = false) ∧
    (∃ (m : Nat), ∃ (k : MgSess), ∃ (s : State), Asks s m k ∧ k.role = 1 ∧ s.ks.image = none ∧ imageBuffers s = true) ∧
    (∃ (m : Nat), ∃ (k : MgSess), ∃ (i : ImageJob), ∃ (s : State), Asks s m k ∧ k.role = 1 ∧ s.ks.image = some i) ∧
    (∃ (b : BootIn), ∃ (s : State), s.life.wait = .keyStore ∧ s.ddr.cap ≠ 0 ∧ s.ks.anchor ≠ none ∧ b.image = 0 ∧ s.time < s.life.waitSince + s.cfg 0x8010 1 * 1000000000) ∧
    (∃ (b : BootIn), ∃ (s : State), s.life.wait ≠ .keyStore ∧ (s.ks.missing = false ∨ acceptable b s = none)) ∧
    (∃ (b : BootIn), ∃ (s : State), s.life.wait ≠ .keyStore ∧ (s.ks.missing = false ∨ acceptable b s = none)) ∧
    (∃ (b : BootIn), ∃ (i : KsImage), ∃ (s : State), s.life.wait ≠ .keyStore ∧ s.ks.missing = true ∧ acceptable b s = some i) :=
  ⟨(⟨{ up with life := { state := .operational, step := 9, fwRestart := true } }, by decide +kernel⟩),
   (⟨up, by decide +kernel⟩),
   (⟨{ up with supRestarting := true }, by decide +kernel, by decide +kernel⟩),
   (⟨up, by decide +kernel⟩),
   (⟨{ up with life := { state := .operational, step := 9, act := 2 }, time := 10 ^ 15 }, by decide +kernel, by decide +kernel⟩),
   (⟨up, Or.inl (by decide +kernel)⟩),
   (⟨{ up with life := { state := .operational, step := 9, act := 2 } }, Or.inr (by decide +kernel)⟩),
   (⟨3, { role := 1, auth := true }, asked { role := 1, auth := true } ({ up with life := { state := .operational, step := 9, act := 2 } }), ⟨by decide +kernel, by decide +kernel, by decide +kernel, by decide +kernel⟩, by decide +kernel, by decide +kernel⟩),
   (⟨3, { role := 1, auth := true }, asked { role := 1, auth := true } up, ⟨by decide +kernel, by decide +kernel, by decide +kernel, by decide +kernel⟩, by decide +kernel, by decide +kernel⟩),
   (⟨3, { role := 1, auth := true }, asked { role := 1, auth := true } ({ up with od := [(odKey 0x5008 4, 1), (odKey 0x5008 5, 1)] }), ⟨by decide +kernel, by decide +kernel, by decide +kernel, by decide +kernel⟩, by decide +kernel, by decide +kernel, by decide +kernel⟩),
   (⟨3, { role := 1, auth := true }, { gen := 1, digest := [], buffer := 0, content := { gen := 1, mkid := [], mkgen := 0, tenants := [], slots := [] } }, asked { role := 1, auth := true } ({ up with ks := { image := some { gen := 1, digest := [], buffer := 0, content := { gen := 1, mkid := [], mkgen := 0, tenants := [], slots := [] } } } }), ⟨by decide +kernel, by decide +kernel, by decide +kernel, by decide +kernel⟩, by decide +kernel, by decide +kernel⟩),
   (⟨{ image := 0 }, { up with life := { state := .operational, step := 9, wait := .keyStore }, ks := { anchor := some { gen := 1, digest := [] } }, ddr := { cap := 32 } }, by decide +kernel, by decide +kernel, by decide +kernel, by decide +kernel, by decide +kernel⟩),
   (⟨{}, up, by decide +kernel, Or.inl (by decide +kernel)⟩),
   (⟨{}, { up with ks := { missing := true } }, by decide +kernel, Or.inr (by decide +kernel)⟩),
   (⟨{}, { gen := 1, mkid := [], mkgen := 0, tenants := [], slots := [] }, { up with ks := { missing := true, anchor := some { gen := 1, digest := [] }, bufferA := some { gen := 1, mkid := [], mkgen := 0, tenants := [], slots := [] }, bufferB := some { gen := 1, mkid := [], mkgen := 0, tenants := [], slots := [] } } }, by decide +kernel, by decide +kernel, by decide +kernel⟩)⟩

theorem test_met_ResetAndBoot :
    (∃ (ns : Nat), ∃ (s : State), 10000 ≤ ns ∧ s.batt.mainPower = true ∧ s.pins.held = false) ∧
    (∃ (ns : Nat), ∃ (s : State), ns < 1000 ∧ s.batt.mainPower = true ∧ s.pins.held = false) ∧
    (∃ (ns : Nat), ∃ (s : State), 1000 ≤ ns ∧ s.batt.mainPower = true ∧ s.pins.held = false) ∧
    (∃ (s : State), (s.batt.mainPower = false ∨ s.pins.held = true)) ∧
    (∃ (s : State), (s.batt.mainPower = false ∨ s.pins.held = true)) ∧
    (∃ (b : BootIn), ∃ (s : State), s.pins.held = true ∧ b.romFault ≠ 1 ∧ b.rails = false) ∧
    (∃ (b : BootIn), ∃ (s : State), s.pins.held = true ∧ inTrial s = false ∧ b.romFault ≠ 1 ∧ b.rails = true ∧ b.checkOk = false) ∧
    (∃ (s : State), s.pins.held = false) ∧
    (∃ (b : BootIn), ∃ (s : State), s.life.wait = .supply ∧ b.romFault ≠ 1 ∧ b.rails = false) ∧
    (∃ (b : BootIn), ∃ (s : State), s.life.wait = .supply ∧ inTrial s = false ∧ b.romFault ≠ 1 ∧ b.rails = true ∧ b.checkOk = false) ∧
    (∃ (s : State), s.life.wait ≠ .supply) ∧
    (∃ (b : BootIn), ∃ (s : State), s.life.wait = .clock ∧ b.romFault = 2) ∧
    (∃ (s : State), s.life.wait = .clock) ∧
    (∃ (s : State), s.life.wait ≠ .clock) ∧
    (∃ (s : State), s.life.wait = .partner ∧ s.life.waitSince + 400000000 ≤ s.time) ∧
    (∃ (s : State), (s.life.wait ≠ .partner ∨ s.time < s.life.waitSince + 400000000)) ∧
    (∃ (s : State), (s.life.wait ≠ .partner ∨ s.time < s.life.waitSince + 400000000)) :=
  ⟨(⟨10000, up, by decide +kernel, by decide +kernel, by decide +kernel⟩),
   (⟨999, up, by decide +kernel, by decide +kernel, by decide +kernel⟩),
   (⟨1000, up, by decide +kernel, by decide +kernel, by decide +kernel⟩),
   (⟨{ up with batt := { mainPower := false } }, Or.inl (by decide +kernel)⟩),
   (⟨State.reset, Or.inr (by decide +kernel)⟩),
   (⟨{ rails := false }, State.reset, by decide +kernel, by decide +kernel, by decide +kernel⟩),
   (⟨{ checkOk := false }, State.reset, by decide +kernel, by decide +kernel, by decide +kernel, by decide +kernel, by decide +kernel⟩),
   (⟨up, by decide +kernel⟩),
   (⟨{ rails := false }, { up with life := { state := .operational, step := 9, wait := .supply } }, by decide +kernel, by decide +kernel, by decide +kernel⟩),
   (⟨{ checkOk := false }, { up with life := { state := .operational, step := 9, wait := .supply } }, by decide +kernel, by decide +kernel, by decide +kernel, by decide +kernel, by decide +kernel⟩),
   (⟨up, by decide +kernel⟩),
   (⟨{ romFault := 2 }, { up with life := { state := .operational, step := 9, wait := .clock } }, by decide +kernel, by decide +kernel⟩),
   (⟨{ up with life := { state := .operational, step := 9, wait := .clock } }, by decide +kernel⟩),
   (⟨up, by decide +kernel⟩),
   (⟨{ up with life := { state := .operational, step := 9, wait := .partner }, time := 400000000 }, by decide +kernel, by decide +kernel⟩),
   (⟨up, Or.inl (by decide +kernel)⟩),
   (⟨{ up with life := { state := .operational, step := 9, wait := .partner } }, Or.inr (by decide +kernel)⟩)⟩

theorem test_met_CleanBoot :
    (∃ (b : BootIn), ∃ (s : State), s.pins.held = true ∧ inTrial s = false ∧ s.batt.valid = true ∧ s.life.halted = false ∧ b.romFault = 0 ∧ b.rails = true ∧ b.checkOk = true ∧ b.clock = true ∧ b.armature = [] ∧ b.link = 0 ∧ b.tests = [] ∧ b.bankA = true ∧ b.bankB = true ∧ (b.ddr = 8 ∨ b.ddr = 16 ∨ b.ddr = 32) ∧ (((selectedBank s).state = .confirmed ∧ s.life.fuses.rollback ≤ (selectedBank s).secver)) ∧ s.ks.anchor = none) :=
  (⟨{}, { State.reset with life := { bankA := { state := .confirmed, release := 1 } } }, by decide +kernel, by decide +kernel, by decide +kernel, by decide +kernel, by decide +kernel, by decide +kernel, by decide +kernel, by decide +kernel, by decide +kernel, by decide +kernel, by decide +kernel, by decide +kernel, by decide +kernel, Or.inr (Or.inr rfl), ⟨by decide +kernel, by decide +kernel⟩, by decide +kernel⟩)

theorem test_met_SdSlot :
    (∃ (card : SdCard), ∃ (s : State), s.life.halted = false ∧ s.cards.sd.state = .empty ∧ card.sdhc = true ∧ card.locked = false) ∧
    (∃ (card : SdCard), ∃ (fail : Nat), ∃ (s : State), s.life.halted = false ∧ s.cards.sd.state = .empty ∧ (fail ≠ 0 ∨ card.sdhc = false ∨ card.locked = true)) ∧
    (∃ (card : SdCard), ∃ (fail : Nat), ∃ (s : State), s.life.halted = false ∧ s.cards.sd.state = .empty ∧ (fail ≠ 0 ∨ card.sdhc = false ∨ card.locked = true)) ∧
    (∃ (card : SdCard), ∃ (fail : Nat), ∃ (s : State), s.life.halted = false ∧ s.cards.sd.state = .empty ∧ (fail ≠ 0 ∨ card.sdhc = false ∨ card.locked = true)) ∧
    (∃ (s : State), s.life.halted = false ∧ s.cards.sd.state ≠ .empty) ∧
    (∃ (s : State), s.cards.sd.state ≠ .empty) ∧
    (∃ (s : State), s.cards.sd.state = .empty) ∧
    (∃ (s : State), s.cards.sd.state = .busy) ∧
    (∃ (s : State), s.cards.sd.state ≠ .busy) ∧
    (∃ (s : State), s.cards.sd.state = .ready ∧ s.cards.sd.lastXfer + s.cfg 0x8101 3 * 1000000 ≤ s.time) ∧
    (∃ (s : State), (s.cards.sd.state ≠ .ready ∨ s.time < s.cards.sd.lastXfer + s.cfg 0x8101 3 * 1000000)) ∧
    (∃ (s : State), (s.cards.sd.state ≠ .ready ∨ s.time < s.cards.sd.lastXfer + s.cfg 0x8101 3 * 1000000)) ∧
    (∃ (s : State), s.cards.sd.state = .busy ∧ s.cards.sd.job = none) ∧
    (∃ (j : CardSet), ∃ (s : State), s.cards.sd.state = .busy ∧ s.cards.sd.job = some j ∧ s.cards.sd.written < j.blocks) ∧
    (∃ (j : CardSet), ∃ (c : SdCard), ∃ (s : State), s.cards.sd.state = .busy ∧ s.cards.sd.job = some j ∧ s.cards.sd.card = some c ∧ j.blocks ≤ s.cards.sd.written) ∧
    (∃ (s : State), s.cards.sd.job = none) ∧
    (∃ (m : Nat), ∃ (k : MgSess), ∃ (s : State), Asks s m k ∧ k.role = 1 ∧ s.cards.sd.state ≠ .ready ∧ s.cards.sd.state ≠ .asleep) ∧
    (∃ (m : Nat), ∃ (k : MgSess), ∃ (s : State), ∃ (c : SdCard), Asks s m k ∧ k.role = 1 ∧ (s.cards.sd.state = .ready ∨ s.cards.sd.state = .asleep) ∧ s.cards.sd.card = some c ∧ cardProtected c = false) ∧
    (∃ (m : Nat), ∃ (k : MgSess), ∃ (s : State), ∃ (c : SdCard), Asks s m k ∧ k.role = 1 ∧ (s.cards.sd.state = .ready ∨ s.cards.sd.state = .asleep) ∧ s.cards.sd.card = some c ∧ cardProtected c = false) ∧
    (∃ (m : Nat), ∃ (k : MgSess), ∃ (s : State), ∃ (c : SdCard), Asks s m k ∧ k.role = 1 ∧ (s.cards.sd.state = .ready ∨ s.cards.sd.state = .asleep) ∧ s.cards.sd.card = some c ∧ cardProtected c = true) ∧
    (∃ (m : Nat), ∃ (k : MgSess), ∃ (s : State), ∃ (c : SdCard), Asks s m k ∧ k.role = 1 ∧ (s.cards.sd.state = .ready ∨ s.cards.sd.state = .asleep) ∧ s.cards.sd.card = some c ∧ c.perm = false) ∧
    (∃ (m : Nat), ∃ (k : MgSess), ∃ (s : State), ∃ (c : SdCard), Asks s m k ∧ k.role = 1 ∧ (s.cards.sd.state = .ready ∨ s.cards.sd.state = .asleep) ∧ s.cards.sd.card = some c ∧ c.perm = true) ∧
    (∃ (m : Nat), ∃ (k : MgSess), ∃ (s : State), ∃ (c : SdCard), Asks s m k ∧ k.role = 1 ∧ (s.cards.sd.state = .ready ∨ s.cards.sd.state = .asleep) ∧ s.cards.sd.card = some c ∧ cardProtected c = true) ∧
    (∃ (m : Nat), ∃ (k : MgSess), ∃ (s : State), ∃ (c : SdCard), ∃ (i : KsImage), Asks s m k ∧ k.role = 1 ∧ (s.cards.sd.state = .ready ∨ s.cards.sd.state = .asleep) ∧ s.cards.sd.card = some c ∧ i = snapshot ((match s.ks.anchor with | some a => a.gen | none => 0) + 1) (heard m k s) ∧ cardProtected c = false ∧ c.volume.isSome = true ∧ nextBlockOf c + (bodyBytes (.backup i) + 479) / 480 + 2 ≤ c.capacity) ∧
    (∃ (m : Nat), ∃ (k : MgSess), ∃ (s : State), ∃ (c : SdCard), ∃ (b : Bank), Asks s m k ∧ k.role = 1 ∧ (s.cards.sd.state = .ready ∨ s.cards.sd.state = .asleep) ∧ s.cards.sd.card = some c ∧ b = (if s.life.bankA.state = .confirmed then s.life.bankA else s.life.bankB) ∧ b.state = .confirmed ∧ cardProtected c = false ∧ c.volume.isSome = true ∧ nextBlockOf c + (b.len + 479) / 480 + 2 ≤ c.capacity) ∧
    (∃ (m : Nat), ∃ (k : MgSess), ∃ (s : State), ∃ (c : SdCard), ∃ (q : Nat), ∃ (e : Entry), Asks s m k ∧ k.role = 1 ∧ (s.cards.sd.state = .ready ∨ s.cards.sd.state = .asleep) ∧ s.cards.sd.card = some c ∧ q < 2 ^ 64 ∧ (retained s).filter (fun x => q ≤ x.seq && x.seq ≤ s.pat.lastCp) = [e] ∧ isCheckpoint e = false ∧ cardProtected c = false ∧ c.volume.isSome = true ∧ nextBlockOf c + 3 ≤ c.capacity) ∧
    (∃ (m : Nat), ∃ (k : MgSess), ∃ (s : State), ∃ (c : SdCard), Asks s m k ∧ k.role = 1 ∧ (s.cards.sd.state = .ready ∨ s.cards.sd.state = .asleep) ∧ s.cards.sd.card = some c ∧ ((∀ x ∈ c.sets, x.body.stype ≠ 4))) ∧
    (∃ (m : Nat), ∃ (k : MgSess), ∃ (s : State), Asks s m k ∧ k.role = 1 ∧ s.life.bankA.state ≠ .confirmed ∧ s.life.bankB.state ≠ .confirmed) ∧
    (∃ (m : Nat), ∃ (k : MgSess), ∃ (s : State), ∃ (q : Nat), Asks s m k ∧ k.role = 1 ∧ q < 2 ^ 64 ∧ (retained s).filter (fun x => q ≤ x.seq && x.seq ≤ s.pat.lastCp) = []) :=
  ⟨(⟨{}, up, by decide +kernel, by decide +kernel, by decide +kernel, by decide +kernel⟩),
   (⟨{}, 1, up, by decide +kernel, by decide +kernel, Or.inl (by decide +kernel)⟩),
   (⟨{ sdhc := false }, 0, up, by decide +kernel, by decide +kernel, Or.inr (Or.inl rfl)⟩),
   (⟨{ locked := true }, 0, up, by decide +kernel, by decide +kernel, Or.inr (Or.inr rfl)⟩),
   (⟨{ up with cards := { sd := { state := .ready } } }, by decide +kernel, by decide +kernel⟩),
   (⟨{ up with cards := { sd := { state := .ready } } }, by decide +kernel⟩),
   (⟨up, by decide +kernel⟩),
   (⟨{ up with cards := { sd := { state := .busy } } }, by decide +kernel⟩),
   (⟨up, by decide +kernel⟩),
   (⟨{ up with cards := { sd := { state := .ready } }, time := 10 ^ 15 }, by decide +kernel, by decide +kernel⟩),
   (⟨up, Or.inl (by decide +kernel)⟩),
   (⟨{ up with cards := { sd := { state := .ready } } }, Or.inr (by decide +kernel)⟩),
   (⟨{ up with cards := { sd := { state := .busy } } }, by decide +kernel, by decide +kernel⟩),
   (⟨{ no := 1, first := 64, blocks := 3, body := .ack [] }, { up with cards := { sd := { state := .busy, job := some { no := 1, first := 64, blocks := 3, body := .ack [] }, written := 2 } } }, by decide +kernel, by decide +kernel, by decide +kernel⟩),
   (⟨{ no := 1, first := 64, blocks := 3, body := .ack [] }, {}, { up with cards := { sd := { state := .busy, job := some { no := 1, first := 64, blocks := 3, body := .ack [] }, written := 3, card := some {} } } }, by decide +kernel, by decide +kernel, by decide +kernel, by decide +kernel⟩),
   (⟨up, by decide +kernel⟩),
   (⟨3, { role := 1, auth := true }, asked { role := 1, auth := true } up, ⟨by decide +kernel, by decide +kernel, by decide +kernel, by decide +kernel⟩, by decide +kernel, by decide +kernel, by decide +kernel⟩),
   (⟨3, { role := 1, auth := true }, asked { role := 1, auth := true } ({ up with cards := { sd := { state := .ready, card := some { capacity := 10 ^ 6, volume := some [1] } } } }), { capacity := 10 ^ 6, volume := some [1] }, ⟨by decide +kernel, by decide +kernel, by decide +kernel, by decide +kernel⟩, by decide +kernel, Or.inl (by decide +kernel), by decide +kernel, by decide +kernel⟩),
   (⟨3, { role := 1, auth := true }, asked { role := 1, auth := true } ({ up with cards := { sd := { state := .asleep, card := some { capacity := 10 ^ 6, volume := some [1] } } } }), { capacity := 10 ^ 6, volume := some [1] }, ⟨by decide +kernel, by decide +kernel, by decide +kernel, by decide +kernel⟩, by decide +kernel, Or.inr (by decide +kernel), by decide +kernel, by decide +kernel⟩),
   (⟨3, { role := 1, auth := true }, asked { role := 1, auth := true } ({ up with cards := { sd := { state := .ready, card := some { perm := true } } } }), { perm := true }, ⟨by decide +kernel, by decide +kernel, by decide +kernel, by decide +kernel⟩, by decide +kernel, Or.inl (by decide +kernel), by decide +kernel, by decide +kernel⟩),
   (⟨3, { role := 1, auth := true }, asked { role := 1, auth := true } ({ up with cards := { sd := { state := .ready, card := some { capacity := 10 ^ 6, volume := some [1] } } } }), { capacity := 10 ^ 6, volume := some [1] }, ⟨by decide +kernel, by decide +kernel, by decide +kernel, by decide +kernel⟩, by decide +kernel, Or.inl (by decide +kernel), by decide +kernel, by decide +kernel⟩),
   (⟨3, { role := 1, auth := true }, asked { role := 1, auth := true } ({ up with cards := { sd := { state := .ready, card := some { perm := true } } } }), { perm := true }, ⟨by decide +kernel, by decide +kernel, by decide +kernel, by decide +kernel⟩, by decide +kernel, Or.inl (by decide +kernel), by decide +kernel, by decide +kernel⟩),
   (⟨3, { role := 1, auth := true }, asked { role := 1, auth := true } ({ up with cards := { sd := { state := .ready, card := some { perm := true } } } }), { perm := true }, ⟨by decide +kernel, by decide +kernel, by decide +kernel, by decide +kernel⟩, by decide +kernel, Or.inl (by decide +kernel), by decide +kernel, by decide +kernel⟩),
   (⟨3, { role := 1, auth := true }, asked { role := 1, auth := true } ({ up with cards := { sd := { state := .ready, card := some { capacity := 10 ^ 6, volume := some [1] } } } }), { capacity := 10 ^ 6, volume := some [1] }, _, ⟨by decide +kernel, by decide +kernel, by decide +kernel, by decide +kernel⟩, by decide +kernel, Or.inl (by decide +kernel), by decide +kernel, rfl, by decide +kernel, by decide +kernel, by decide +kernel⟩),
   (⟨3, { role := 1, auth := true }, asked { role := 1, auth := true } ({ up with cards := { sd := { state := .ready, card := some { capacity := 10 ^ 6, volume := some [1] } } }, life := { bankB := { state := .confirmed, len := 1000 } } }), { capacity := 10 ^ 6, volume := some [1] }, { state := .confirmed, len := 1000 }, ⟨by decide +kernel, by decide +kernel, by decide +kernel, by decide +kernel⟩, by decide +kernel, Or.inl (by decide +kernel), by decide +kernel, by decide +kernel, by decide +kernel, by decide +kernel, by decide +kernel, by decide +kernel⟩),
   (⟨3, { role := 1, auth := true }, asked { role := 1, auth := true } ({ up with cards := { sd := { state := .ready, card := some { capacity := 10 ^ 6, volume := some [1] } } }, pat := { buffer := [{ seq := 4, time := 0, source := 1, code := 1, data := [] }], lastCp := 9 } }), { capacity := 10 ^ 6, volume := some [1] }, 4, { seq := 4, time := 0, source := 1, code := 1, data := [] }, ⟨by decide +kernel, by decide +kernel, by decide +kernel, by decide +kernel⟩, by decide +kernel, Or.inl (by decide +kernel), by decide +kernel, by decide +kernel, by decide +kernel, by decide +kernel, by decide +kernel, by decide +kernel, by decide +kernel⟩),
   (⟨3, { role := 1, auth := true }, asked { role := 1, auth := true } ({ up with cards := { sd := { state := .ready, card := some { capacity := 10 ^ 6, volume := some [1] } } } }), { capacity := 10 ^ 6, volume := some [1] }, ⟨by decide +kernel, by decide +kernel, by decide +kernel, by decide +kernel⟩, by decide +kernel, Or.inl (by decide +kernel), by decide +kernel, by decide +kernel⟩),
   (⟨3, { role := 1, auth := true }, asked { role := 1, auth := true } up, ⟨by decide +kernel, by decide +kernel, by decide +kernel, by decide +kernel⟩, by decide +kernel, by decide +kernel, by decide +kernel⟩),
   (⟨3, { role := 1, auth := true }, asked { role := 1, auth := true } up, 1, ⟨by decide +kernel, by decide +kernel, by decide +kernel, by decide +kernel⟩, by decide +kernel, by decide +kernel, by decide +kernel⟩)⟩

theorem test_met_CeremoniesAndCards :
    (∃ (m : Nat), ∃ (k : MgSess), ∃ (s : State), ∃ (c : Instr), ∃ (n : Nat), Asks s m k ∧ roleWrites k.role 0x8110 1 = true ∧ (c, n) ∈ [(Instr.mkGenerate m, 1), (.mkCombine m, 2), (.mkRollover m, 3), (.zeroize m, 4), (.reinit m, 5), (.decommission m, 6), (.debugUnlock m, 7), (.endResponse m, 8), (.keyGenerate m, 9), (.keyComponents m, 10), (.publicLoad m, 11), (.restore m, 12), (.rosterChange m, 13)] ∧ cerOpen s = false ∧ cerLife n s.life.state = true ∧ ((cerNeedsKey n = true → levelHeld s < 3)) ∧ ((n = 8 → maskAlarms s (2 ^ 37 - 1) ≠ [])) ∧ cerRecordOk n (heard m k s) = true) ∧
    (∃ (m : Nat), ∃ (k : MgSess), ∃ (s : State), ∃ (c : Instr), ∃ (n : Nat), Asks s m k ∧ roleWrites k.role 0x8110 1 = true ∧ (c, n) ∈ [(Instr.mkGenerate m, 1), (.mkCombine m, 2), (.mkRollover m, 3), (.zeroize m, 4), (.reinit m, 5), (.decommission m, 6), (.debugUnlock m, 7), (.endResponse m, 8), (.keyGenerate m, 9), (.keyComponents m, 10), (.publicLoad m, 11), (.restore m, 12), (.rosterChange m, 13)] ∧ cerOpen s = false ∧ cerLife n s.life.state = true ∧ ((cerNeedsKey n = true → levelHeld s < 3)) ∧ ((n = 8 → maskAlarms s (2 ^ 37 - 1) ≠ [])) ∧ cerRecordOk n (heard m k s) = true) ∧
    (∃ (m : Nat), ∃ (k : MgSess), ∃ (s : State), ∃ (c : Instr), ∃ (n : Nat), Asks s m k ∧ roleWrites k.role 0x8110 1 = true ∧ (c, n) ∈ [(Instr.mkGenerate m, 1), (.mkCombine m, 2), (.mkRollover m, 3), (.zeroize m, 4), (.reinit m, 5), (.decommission m, 6), (.debugUnlock m, 7), (.endResponse m, 8), (.keyGenerate m, 9), (.keyComponents m, 10), (.publicLoad m, 11), (.restore m, 12), (.rosterChange m, 13)] ∧ cerOpen s = false ∧ cerLife n s.life.state = true ∧ ((cerNeedsKey n = true → levelHeld s < 3)) ∧ ((n = 8 → maskAlarms s (2 ^ 37 - 1) ≠ [])) ∧ cerRecordOk n (heard m k s) = true) ∧
    (∃ (m : Nat), ∃ (k : MgSess), ∃ (s : State), ∃ (c : Instr), ∃ (n : Nat), Asks s m k ∧ roleWrites k.role 0x8110 1 = true ∧ (c, n) ∈ [(Instr.mkGenerate m, 1), (.mkCombine m, 2), (.mkRollover m, 3), (.zeroize m, 4), (.reinit m, 5), (.decommission m, 6), (.debugUnlock m, 7), (.endResponse m, 8), (.keyGenerate m, 9), (.keyComponents m, 10), (.publicLoad m, 11), (.restore m, 12), (.rosterChange m, 13)] ∧ cerOpen s = false ∧ cerLife n s.life.state = true ∧ ((cerNeedsKey n = true → levelHeld s < 3)) ∧ ((n = 8 → maskAlarms s (2 ^ 37 - 1) ≠ [])) ∧ cerRecordOk n (heard m k s) = true) ∧
    (∃ (m : Nat), ∃ (k : MgSess), ∃ (s : State), ∃ (c : Instr), ∃ (n : Nat), Asks s m k ∧ roleWrites k.role 0x8110 1 = true ∧ (c, n) ∈ [(Instr.mkGenerate m, 1), (.mkCombine m, 2), (.mkRollover m, 3), (.zeroize m, 4), (.reinit m, 5), (.decommission m, 6), (.debugUnlock m, 7), (.endResponse m, 8), (.keyGenerate m, 9), (.keyComponents m, 10), (.publicLoad m, 11), (.restore m, 12), (.rosterChange m, 13)] ∧ cerOpen s = false ∧ cerLife n s.life.state = true ∧ ((cerNeedsKey n = true → levelHeld s < 3)) ∧ ((n = 8 → maskAlarms s (2 ^ 37 - 1) ≠ [])) ∧ cerRecordOk n (heard m k s) = true) ∧
    (∃ (m : Nat), ∃ (k : MgSess), ∃ (s : State), ∃ (c : Instr), ∃ (n : Nat), Asks s m k ∧ roleWrites k.role 0x8110 1 = true ∧ (c, n) ∈ [(Instr.mkGenerate m, 1), (.mkCombine m, 2), (.mkRollover m, 3), (.zeroize m, 4), (.reinit m, 5), (.decommission m, 6), (.debugUnlock m, 7), (.endResponse m, 8), (.keyGenerate m, 9), (.keyComponents m, 10), (.publicLoad m, 11), (.restore m, 12), (.rosterChange m, 13)] ∧ cerOpen s = false ∧ cerLife n s.life.state = true ∧ ((cerNeedsKey n = true → levelHeld s < 3)) ∧ ((n = 8 → maskAlarms s (2 ^ 37 - 1) ≠ [])) ∧ cerRecordOk n (heard m k s) = true) ∧
    (∃ (m : Nat), ∃ (k : MgSess), ∃ (s : State), ∃ (c : Instr), ∃ (n : Nat), Asks s m k ∧ roleWrites k.role 0x8110 1 = true ∧ (c, n) ∈ [(Instr.mkGenerate m, 1), (.mkCombine m, 2), (.mkRollover m, 3), (.zeroize m, 4), (.reinit m, 5), (.decommission m, 6), (.debugUnlock m, 7), (.endResponse m, 8), (.keyGenerate m, 9), (.keyComponents m, 10), (.publicLoad m, 11), (.restore m, 12), (.rosterChange m, 13)] ∧ (cerOpen s = true ∨ cerLife n s.life.state = false ∨ (cerNeedsKey n = true ∧ 3 ≤ levelHeld s))) ∧
    (∃ (m : Nat), ∃ (k : MgSess), ∃ (s : State), ∃ (c : Instr), ∃ (n : Nat), Asks s m k ∧ roleWrites k.role 0x8110 1 = true ∧ (c, n) ∈ [(Instr.mkGenerate m, 1), (.mkCombine m, 2), (.mkRollover m, 3), (.zeroize m, 4), (.reinit m, 5), (.decommission m, 6), (.debugUnlock m, 7), (.endResponse m, 8), (.keyGenerate m, 9), (.keyComponents m, 10), (.publicLoad m, 11), (.restore m, 12), (.rosterChange m, 13)] ∧ (cerOpen s = true ∨ cerLife n s.life.state = false ∨ (cerNeedsKey n = true ∧ 3 ≤ levelHeld s))) ∧
    (∃ (m : Nat), ∃ (k : MgSess), ∃ (s : State), ∃ (c : Instr), ∃ (n : Nat), Asks s m k ∧ roleWrites k.role 0x8110 1 = true ∧ (c, n) ∈ [(Instr.mkGenerate m, 1), (.mkCombine m, 2), (.mkRollover m, 3), (.zeroize m, 4), (.reinit m, 5), (.decommission m, 6), (.debugUnlock m, 7), (.endResponse m, 8), (.keyGenerate m, 9), (.keyComponents m, 10), (.publicLoad m, 11), (.restore m, 12), (.rosterChange m, 13)] ∧ (cerOpen s = true ∨ cerLife n s.life.state = false ∨ (cerNeedsKey n = true ∧ 3 ≤ levelHeld s))) ∧
    (∃ (m : Nat), ∃ (k : MgSess), ∃ (s : State), ∃ (b : Bytes), Asks s m k ∧ roleWrites k.role 0x8110 1 = true ∧ b.length ≤ 4096 ∧ cerOpen s = false) ∧
    (∃ (m : Nat), ∃ (k : MgSess), ∃ (s : State), ∃ (b : Bytes), Asks s m k ∧ roleWrites k.role 0x8110 1 = true ∧ b.length ≤ 4096 ∧ cerOpen s = true) ∧
    (∃ (m : Nat), ∃ (k : MgSess), ∃ (s : State), Asks s m k ∧ roleWrites k.role 0x8110 1 = true ∧ cerOpen s = true) ∧
    (∃ (m : Nat), ∃ (k : MgSess), ∃ (s : State), Asks s m k ∧ roleWrites k.role 0x8110 1 = true ∧ cerOpen s = false) ∧
    (∃ (s : State), cerOpen s = true ∧ s.cards.cer.start + s.cfg 0x8110 6 * 1000000000 ≤ s.time) ∧
    (∃ (s : State), (cerOpen s = false ∨ s.time < s.cards.cer.start + s.cfg 0x8110 6 * 1000000000)) ∧
    (∃ (s : State), (cerOpen s = false ∨ s.time < s.cards.cer.start + s.cfg 0x8110 6 * 1000000000)) ∧
    (∃ (n : Nat), ∃ (s : State), n < 2 ∧ (officerSlot s n).state = .empty) ∧
    (∃ (n : Nat), ∃ (s : State), n < 2 ∧ (officerSlot s n).state = .empty) ∧
    (∃ (n : Nat), ∃ (s : State), n < 2 ∧ cerOpen s = true ∧ (officerSlot s n).state = .inCeremony ∧ (officerSlot s n).step ≠ 0) ∧
    (∃ (n : Nat), ∃ (s : State), n < 2 ∧ (cerOpen s = false ∨ (officerSlot s n).state ≠ .inCeremony ∨ (officerSlot s n).step = 0)) ∧
    (∃ (n : Nat), ∃ (s : State), n < 2 ∧ (cerOpen s = false ∨ (officerSlot s n).state ≠ .inCeremony ∨ (officerSlot s n).step = 0)) ∧
    (∃ (n : Nat), ∃ (s : State), n < 2 ∧ (cerOpen s = false ∨ (officerSlot s n).state ≠ .inCeremony ∨ (officerSlot s n).step = 0)) ∧
    (∃ (n : Nat), ∃ (s : State), n < 2 ∧ (officerSlot s n).step = 1) ∧
    (∃ (n : Nat), ∃ (d : Bytes), ∃ (s : State), n < 2 ∧ (officerSlot s n).step = 2 ∧ d.length = 101 ∧ cerOpen s = false) ∧
    (∃ (n : Nat), ∃ (d : Bytes), ∃ (s : State), n < 2 ∧ (officerSlot s n).step = 3 ∧ cerOpen s = true ∧ d.length = 225 ∧ pkVerify 2 2 false (officerSlot s n).pub (digest 2 ((officerSlot s n).sent ++ d.take 97 ++ slice d 97 32) 0) [] (slice d 129 96) = true ∧ (cerOfficers s).any (fun e => e.2 = officerHash (officerSlot s n)) = true) ∧
    (∃ (n : Nat), ∃ (w : Nat), ∃ (s : State), n < 2 ∧ w ≠ 0x9000 ∧ (officerSlot s n).step ≠ 0 ∧ (officerSlot s n).step ≠ 4) ∧
    (∃ (n : Nat), ∃ (w : Nat), ∃ (s : State), n < 2 ∧ w ≠ 0x9000 ∧ (officerSlot s n).step = 4 ∧ cerOpen s = true) ∧
    (∃ (n : Nat), ∃ (s : State), n < 2 ∧ (officerSlot s n).step = 0) ∧
    (∃ (n : Nat), ∃ (s : State), n < 2 ∧ (officerSlot s n).step ≠ 0 ∧ (officerSlot s n).step ≠ 4) ∧
    (∃ (n : Nat), ∃ (s : State), n < 2 ∧ (officerSlot s n).step = 4 ∧ cerOpen s = true) :=
  ⟨(⟨3, { role := 1, auth := true }, asked { role := 1, auth := true } ({ up with life := { state := .initial }, cards := { param := [1, 2, 3, 0, 0, 0, 0, 0] } }), .mkGenerate 3, 1, ⟨by decide +kernel, by decide +kernel, by decide +kernel, by decide +kernel⟩, by decide +kernel, by decide +kernel, by decide +kernel, by decide +kernel, by decide +kernel, by decide +kernel, by decide +kernel⟩),
   (⟨3, { role := 1, auth := true }, asked { role := 1, auth := true } ({ up with life := { state := .initial }, cards := { param := octets 16 [(0, 2)] } }), .mkCombine 3, 2, ⟨by decide +kernel, by decide +kernel, by decide +kernel, by decide +kernel⟩, by decide +kernel, by decide +kernel, by decide +kernel, by decide +kernel, by decide +kernel, by decide +kernel, by decide +kernel⟩),
   (⟨3, { role := 1, auth := true }, asked { role := 1, auth := true } ({ up with life := { state := .operational }, cards := { param := octets 8 [(0, 4)], roster := [(1, [1]), (2, [2])], rosterM := 2 } }), .zeroize 3, 4, ⟨by decide +kernel, by decide +kernel, by decide +kernel, by decide +kernel⟩, by decide +kernel, by decide +kernel, by decide +kernel, by decide +kernel, by decide +kernel, by decide +kernel, by decide +kernel⟩),
   (⟨3, { role := 1, auth := true }, asked { role := 1, auth := true } ({ up with life := { state := .recovery }, cards := { param := octets 8 [(0, 7)], roster := [(1, [1]), (2, [2])], rosterM := 2 } }), .debugUnlock 3, 7, ⟨by decide +kernel, by decide +kernel, by decide +kernel, by decide +kernel⟩, by decide +kernel, by decide +kernel, by decide +kernel, by decide +kernel, by decide +kernel, by decide +kernel, by decide +kernel⟩),
   (⟨3, { role := 1, auth := true }, asked { role := 1, auth := true } ({ up with life := { state := .operational }, cards := { param := octets 12 [(0, 12)], roster := [(1, [1]), (2, [2])], rosterM := 2 } }), .restore 3, 12, ⟨by decide +kernel, by decide +kernel, by decide +kernel, by decide +kernel⟩, by decide +kernel, by decide +kernel, by decide +kernel, by decide +kernel, by decide +kernel, by decide +kernel, by decide +kernel⟩),
   (⟨3, { role := 1, auth := true }, asked { role := 1, auth := true } ({ up with life := { state := .operational }, cards := { param := octets 16 [(0, 8)], roster := [(1, [1]), (2, [2])], rosterM := 2 }, alarms := [(5, { state := .held, raised := 3, flags := some 1 })] }), .endResponse 3, 8, ⟨by decide +kernel, by decide +kernel, by decide +kernel, by decide +kernel⟩, by decide +kernel, by decide +kernel, by decide +kernel, by decide +kernel, by decide +kernel, by decide +kernel, by decide +kernel⟩),
   (⟨3, { role := 1, auth := true }, asked { role := 1, auth := true } ({ up with cards := { cer := { state := .collecting } } }), .zeroize 3, 4, ⟨by decide +kernel, by decide +kernel, by decide +kernel, by decide +kernel⟩, by decide +kernel, by decide +kernel, Or.inl (by decide +kernel)⟩),
   (⟨3, { role := 1, auth := true }, asked { role := 1, auth := true } up, .mkGenerate 3, 1, ⟨by decide +kernel, by decide +kernel, by decide +kernel, by decide +kernel⟩, by decide +kernel, by decide +kernel, Or.inr (Or.inl (by decide +kernel))⟩),
   (⟨3, { role := 1, auth := true }, asked { role := 1, auth := true } ({ up with alarms := [(5, { state := .held, raised := 3 })] }), .keyGenerate 3, 9, ⟨by decide +kernel, by decide +kernel, by decide +kernel, by decide +kernel⟩, by decide +kernel, by decide +kernel, Or.inr (Or.inr (by decide +kernel))⟩),
   (⟨3, { role := 1, auth := true }, asked { role := 1, auth := true } up, [], ⟨by decide +kernel, by decide +kernel, by decide +kernel, by decide +kernel⟩, by decide +kernel, by decide +kernel, by decide +kernel⟩),
   (⟨3, { role := 1, auth := true }, asked { role := 1, auth := true } ({ up with cards := { cer := { state := .collecting } } }), [], ⟨by decide +kernel, by decide +kernel, by decide +kernel, by decide +kernel⟩, by decide +kernel, by decide +kernel, by decide +kernel⟩),
   (⟨3, { role := 1, auth := true }, asked { role := 1, auth := true } ({ up with cards := { cer := { state := .collecting } } }), ⟨by decide +kernel, by decide +kernel, by decide +kernel, by decide +kernel⟩, by decide +kernel, by decide +kernel⟩),
   (⟨3, { role := 1, auth := true }, asked { role := 1, auth := true } up, ⟨by decide +kernel, by decide +kernel, by decide +kernel, by decide +kernel⟩, by decide +kernel, by decide +kernel⟩),
   (⟨{ up with cards := { cer := { state := .applying } }, time := 10 ^ 15 }, by decide +kernel, by decide +kernel⟩),
   (⟨up, Or.inl (by decide +kernel)⟩),
   (⟨{ up with cards := { cer := { state := .applying } } }, Or.inr (by decide +kernel)⟩),
   (⟨1, up, by decide +kernel, by decide +kernel⟩),
   (⟨1, up, by decide +kernel, by decide +kernel⟩),
   (⟨1, { up with cards := { cer := { state := .collecting }, slot1 := { state := .inCeremony, step := 3 } } }, by decide +kernel, by decide +kernel, by decide +kernel, by decide +kernel⟩),
   (⟨1, up, by decide +kernel, Or.inl (by decide +kernel)⟩),
   (⟨1, { up with cards := { cer := { state := .collecting }, slot1 := { state := .ready, step := 3 } } }, by decide +kernel, Or.inr (Or.inl (by decide +kernel))⟩),
   (⟨1, { up with cards := { cer := { state := .collecting }, slot1 := { state := .inCeremony } } }, by decide +kernel, Or.inr (Or.inr (by decide +kernel))⟩),
   (⟨1, { up with cards := { slot1 := { step := 1 } } }, by decide +kernel, by decide +kernel⟩),
   (⟨1, octets 101 [], { up with cards := { slot1 := { step := 2 } } }, by decide +kernel, by decide +kernel, by decide +kernel, by decide +kernel⟩),
   (⟨1, (octets 129 [] ++ gSign (octets 129 [])), { up with cards := { cer := { state := .collecting }, slot1 := { step := 3, pub := gPub }, roster := [(1, officerHash { step := 3, pub := gPub })] } }, by decide +kernel, by decide +kernel, by decide +kernel, by decide +kernel, by decide +kernel, List.any_eq_true.mpr ⟨_, List.mem_cons_self, decide_eq_true rfl⟩⟩),
   (⟨1, 0x6982, { up with cards := { slot1 := { step := 3 } } }, by decide +kernel, by decide +kernel, by decide +kernel, by decide +kernel⟩),
   (⟨1, 0x6982, { up with cards := { cer := { state := .writingCards }, slot1 := { step := 4 } } }, by decide +kernel, by decide +kernel, by decide +kernel, by decide +kernel⟩),
   (⟨1, up, by decide +kernel, by decide +kernel⟩),
   (⟨1, { up with cards := { slot1 := { step := 1 } } }, by decide +kernel, by decide +kernel, by decide +kernel⟩),
   (⟨1, { up with cards := { cer := { state := .applying }, slot1 := { step := 4 } } }, by decide +kernel, by decide +kernel, by decide +kernel⟩)⟩

theorem test_met_CeremonyEffects :
    (∃ (n : Nat), ∃ (d : Bytes), ∃ (o : OfficerSlot), ∃ (s : State), n < 2 ∧ (officerSlot s n).step = 4 ∧ cerOpen s = true ∧ s.cards.cer.ctype = 1 ∧ officerUnseal (officerSlot s n) d = (some ((digest 2 (officerSlot s n).share 0).take 16), o) ∧ s.cards.cer.n ≤ s.cards.cer.confirmed.length + 1) ∧
    (∃ (n : Nat), ∃ (d : Bytes), ∃ (ct : Nat), ∃ (s : State), n < 2 ∧ (officerSlot s n).step = 3 ∧ s.cards.cer.state = .collecting ∧ s.cards.cer.ctype = ct ∧ d.length = 225 ∧ pkVerify 2 2 false (officerSlot s n).pub (digest 2 ((officerSlot s n).sent ++ d.take 97 ++ slice d 97 32) 0) [] (slice d 129 96) = true ∧ s.cards.roster.any (fun e => e.2 = officerHash (officerSlot s n)) = true ∧ s.cards.cer.approvals.any (fun e => e.2 = officerHash (officerSlot s n)) = false ∧ s.cards.cer.m ≠ 0 ∧ s.cards.cer.m ≤ s.cards.cer.approvals.length + 1 ∧ ct = 4) ∧
    (∃ (n : Nat), ∃ (d : Bytes), ∃ (ct : Nat), ∃ (s : State), n < 2 ∧ (officerSlot s n).step = 3 ∧ s.cards.cer.state = .collecting ∧ s.cards.cer.ctype = ct ∧ d.length = 225 ∧ pkVerify 2 2 false (officerSlot s n).pub (digest 2 ((officerSlot s n).sent ++ d.take 97 ++ slice d 97 32) 0) [] (slice d 129 96) = true ∧ s.cards.roster.any (fun e => e.2 = officerHash (officerSlot s n)) = true ∧ s.cards.cer.approvals.any (fun e => e.2 = officerHash (officerSlot s n)) = false ∧ s.cards.cer.m ≠ 0 ∧ s.cards.cer.m ≤ s.cards.cer.approvals.length + 1 ∧ ct = 7) :=
  ⟨(⟨1, (officerSeal { step := 4 } ((digest 2 [] 0).take 16)).1, _, { up with cards := { cer := { state := .writingCards, ctype := 1, n := 1 }, slot1 := { step := 4 } } }, by decide +kernel, by decide +kernel, by decide +kernel, by decide +kernel, Prod.ext (by decide +kernel) rfl, by decide +kernel⟩),
   (⟨1, (octets 129 [] ++ gSign (octets 129 [])), 4, { up with cards := { cer := { state := .collecting, ctype := 4, m := 1 }, slot1 := { step := 3, pub := gPub }, roster := [(1, officerHash { step := 3, pub := gPub })] } }, by decide +kernel, by decide +kernel, by decide +kernel, by decide +kernel, by decide +kernel, by decide +kernel, List.any_eq_true.mpr ⟨_, List.mem_cons_self, decide_eq_true rfl⟩, by decide +kernel, by decide +kernel, by decide +kernel, by decide +kernel⟩),
   (⟨1, (octets 129 [] ++ gSign (octets 129 [])), 7, { up with cards := { cer := { state := .collecting, ctype := 7, m := 1 }, slot1 := { step := 3, pub := gPub }, roster := [(1, officerHash { step := 3, pub := gPub })] } }, by decide +kernel, by decide +kernel, by decide +kernel, by decide +kernel, by decide +kernel, by decide +kernel, List.any_eq_true.mpr ⟨_, List.mem_cons_self, decide_eq_true rfl⟩, by decide +kernel, by decide +kernel, by decide +kernel, by decide +kernel⟩)⟩

theorem test_met_HealthTests :
    (∃ (m : Nat), ∃ (k : MgSess), ∃ (s : State), ∃ (i : Nat), ∃ (sub : Nat), Asks s m k ∧ k.role = 1 ∧ i < 65535 ∧ sub < 255 ∧ clearable i sub = true ∧ i ≠ 0x9004 ∧ i ≠ 0x9001) ∧
    (∃ (m : Nat), ∃ (k : MgSess), ∃ (s : State), ∃ (i : Nat), ∃ (sub : Nat), Asks s m k ∧ k.role = 1 ∧ i < 65535 ∧ sub < 255 ∧ clearable i sub = false) ∧
    (∃ (m : Nat), ∃ (k : MgSess), ∃ (s : State), ∃ (n : Nat), Asks s m k ∧ k.role = 1 ∧ n < 9) ∧
    (∃ (m : Nat), ∃ (k : MgSess), ∃ (s : State), ∃ (n : Nat), Asks s m k ∧ k.role = 1 ∧ 9 ≤ n ∧ n < 256) ∧
    (∃ (m : Nat), ∃ (k : MgSess), ∃ (s : State), ∃ (n : Nat), Asks s m k ∧ k.role = 1 ∧ n < 9 ∧ (s.chan n).data ≠ .quarantine ∧ ((∀ x, s.rest.lastUrgent = some x → x + 10000000000 ≤ s.time))) ∧
    (∃ (m : Nat), ∃ (k : MgSess), ∃ (s : State), ∃ (n : Nat), ∃ (x : Nat), Asks s m k ∧ k.role = 1 ∧ n < 9 ∧ ((s.chan n).data = .quarantine ∨ (s.rest.lastUrgent = some x ∧ s.time < x + 10000000000))) ∧
    (∃ (m : Nat), ∃ (k : MgSess), ∃ (s : State), ∃ (n : Nat), ∃ (x : Nat), Asks s m k ∧ k.role = 1 ∧ n < 9 ∧ ((s.chan n).data = .quarantine ∨ (s.rest.lastUrgent = some x ∧ s.time < x + 10000000000))) ∧
    (∃ (m : Nat), ∃ (k : MgSess), ∃ (s : State), ∃ (n : Nat), Asks s m k ∧ k.role = 1 ∧ n < 9 ∧ (s.chan n).data = .quarantine ∧ (s.chan n).heldQuarantine = true ∧ (s.chan n).testPhase = 0) ∧
    (∃ (m : Nat), ∃ (k : MgSess), ∃ (s : State), ∃ (n : Nat), Asks s m k ∧ k.role = 1 ∧ n < 9 ∧ ((s.chan n).data ≠ .quarantine ∨ (s.chan n).heldQuarantine = false ∨ (s.chan n).testPhase ≠ 0)) ∧
    (∃ (m : Nat), ∃ (k : MgSess), ∃ (s : State), ∃ (n : Nat), Asks s m k ∧ k.role = 1 ∧ n < 9 ∧ ((s.chan n).data ≠ .quarantine ∨ (s.chan n).heldQuarantine = false ∨ (s.chan n).testPhase ≠ 0)) ∧
    (∃ (m : Nat), ∃ (k : MgSess), ∃ (s : State), ∃ (n : Nat), Asks s m k ∧ k.role = 1 ∧ n < 9 ∧ ((s.chan n).data ≠ .quarantine ∨ (s.chan n).heldQuarantine = false ∨ (s.chan n).testPhase ≠ 0)) ∧
    (∃ (m : Nat), ∃ (k : MgSess), ∃ (s : State), Asks s m k ∧ k.role = 1) ∧
    (∃ (n : Nat), ∃ (s : State), n < 9 ∧ (s.chan n).data = .quarantine ∧ (s.chan n).testPhase = 0 ∧ (s.chan n).heldQuarantine = false ∧ s.supRestarting = false) ∧
    (∃ (n : Nat), ∃ (s : State), ((s.chan n).data ≠ .quarantine ∨ (s.chan n).testPhase ≠ 0 ∨ (s.chan n).heldQuarantine = true)) ∧
    (∃ (n : Nat), ∃ (s : State), ((s.chan n).data ≠ .quarantine ∨ (s.chan n).testPhase ≠ 0 ∨ (s.chan n).heldQuarantine = true)) ∧
    (∃ (n : Nat), ∃ (s : State), ((s.chan n).data ≠ .quarantine ∨ (s.chan n).testPhase ≠ 0 ∨ (s.chan n).heldQuarantine = true)) ∧
    (∃ (b : Nat), b < 2) ∧
    (∃ (u : Nat), ∃ (s : State), u % 2 = 0 ∧ watching s = true ∧ (s.alarm 0x19).state = .clear) ∧
    (∃ (s : State), watching s = true ∧ (s.alarm 0x1D).state = .clear) ∧
    (∃ (g : Nat), ∃ (u : Nat), pairedUnit g u = false) ∧
    (∃ (u : Nat), ∃ (s : State), u < 9 ∧ haltedCore s u = false) ∧
    (∃ (u : Nat), u < 4) ∧
    (∃ (u : Nat), ∃ (s : State), u < 3 ∧ (s.frzPort u).state ≠ .up) :=
  ⟨(⟨3, { role := 1, auth := true }, asked { role := 1, auth := true } up, 0x9068, 5, ⟨by decide +kernel, by decide +kernel, by decide +kernel, by decide +kernel⟩, by decide +kernel, by decide +kernel, by decide +kernel, by decide +kernel, by decide +kernel, by decide +kernel⟩),
   (⟨3, { role := 1, auth := true }, asked { role := 1, auth := true } up, 0x9004, 1, ⟨by decide +kernel, by decide +kernel, by decide +kernel, by decide +kernel⟩, by decide +kernel, by decide +kernel, by decide +kernel, by decide +kernel⟩),
   (⟨3, { role := 1, auth := true }, asked { role := 1, auth := true } up, 8, ⟨by decide +kernel, by decide +kernel, by decide +kernel, by decide +kernel⟩, by decide +kernel, by decide +kernel⟩),
   (⟨3, { role := 1, auth := true }, asked { role := 1, auth := true } up, 9, ⟨by decide +kernel, by decide +kernel, by decide +kernel, by decide +kernel⟩, by decide +kernel, by decide +kernel, by decide +kernel⟩),
   (⟨3, { role := 1, auth := true }, asked { role := 1, auth := true } up, 8, ⟨by decide +kernel, by decide +kernel, by decide +kernel, by decide +kernel⟩, by decide +kernel, by decide +kernel, by decide +kernel, fun x h => nomatch h⟩),
   (⟨3, { role := 1, auth := true }, asked { role := 1, auth := true } ({ up with chans := [(8, { data := .quarantine })] }), 8, 0, ⟨by decide +kernel, by decide +kernel, by decide +kernel, by decide +kernel⟩, by decide +kernel, by decide +kernel, Or.inl (by decide +kernel)⟩),
   (⟨3, { role := 1, auth := true }, asked { role := 1, auth := true } ({ up with rest := { lastUrgent := some 0 } }), 8, 0, ⟨by decide +kernel, by decide +kernel, by decide +kernel, by decide +kernel⟩, by decide +kernel, by decide +kernel, Or.inr ⟨by decide +kernel, by decide +kernel⟩⟩),
   (⟨3, { role := 1, auth := true }, asked { role := 1, auth := true } ({ up with chans := [(8, { data := .quarantine, heldQuarantine := true })] }), 8, ⟨by decide +kernel, by decide +kernel, by decide +kernel, by decide +kernel⟩, by decide +kernel, by decide +kernel, by decide +kernel, by decide +kernel, by decide +kernel⟩),
   (⟨3, { role := 1, auth := true }, asked { role := 1, auth := true } up, 8, ⟨by decide +kernel, by decide +kernel, by decide +kernel, by decide +kernel⟩, by decide +kernel, by decide +kernel, Or.inl (by decide +kernel)⟩),
   (⟨3, { role := 1, auth := true }, asked { role := 1, auth := true } ({ up with chans := [(8, { data := .quarantine })] }), 8, ⟨by decide +kernel, by decide +kernel, by decide +kernel, by decide +kernel⟩, by decide +kernel, by decide +kernel, Or.inr (Or.inl (by decide +kernel))⟩),
   (⟨3, { role := 1, auth := true }, asked { role := 1, auth := true } ({ up with chans := [(8, { data := .quarantine, heldQuarantine := true, testPhase := 3 })] }), 8, ⟨by decide +kernel, by decide +kernel, by decide +kernel, by decide +kernel⟩, by decide +kernel, by decide +kernel, Or.inr (Or.inr (by decide +kernel))⟩),
   (⟨3, { role := 1, auth := true }, asked { role := 1, auth := true } up, ⟨by decide +kernel, by decide +kernel, by decide +kernel, by decide +kernel⟩, by decide +kernel⟩),
   (⟨8, { up with chans := [(8, { data := .quarantine })] }, by decide +kernel, by decide +kernel, by decide +kernel, by decide +kernel, by decide +kernel⟩),
   (⟨8, up, Or.inl (by decide +kernel)⟩),
   (⟨8, { up with chans := [(8, { data := .quarantine, testPhase := 1 })] }, Or.inr (Or.inl (by decide +kernel))⟩),
   (⟨8, { up with chans := [(8, { data := .quarantine, heldQuarantine := true })] }, Or.inr (Or.inr (by decide +kernel))⟩),
   (⟨1, by decide +kernel⟩),
   (⟨2, up, by decide +kernel, by decide +kernel, by decide +kernel⟩),
   (⟨up, by decide +kernel, by decide +kernel⟩),
   (⟨4, 0, by decide +kernel⟩),
   (⟨8, up, by decide +kernel, by decide +kernel⟩),
   (⟨3, by decide +kernel⟩),
   (⟨2, up, by decide +kernel, by decide +kernel⟩)⟩

theorem test_met_FaultHistories :
    (∃ (source : Nat), ∃ (unit : Nat), ∃ (s : State), ((∀ n, faultChannel source unit = some n → source = 0x10 ∨ source = 0x11 ∨ chanNotCounted s n = false))) ∧
    (∃ (source : Nat), ∃ (unit : Nat), ∃ (s : State), ∃ (source' : Nat), ∃ (unit' : Nat), ((∀ n, faultChannel source unit = some n → source = 0x10 ∨ source = 0x11 ∨ chanNotCounted s n = false)) ∧ faultKey source' unit' ≠ faultKey source unit) ∧
    (∃ (source : Nat), ∃ (unit : Nat), ∃ (lvl : Nat), ∃ (s : State), ((∀ n, faultChannel source unit = some n → source = 0x10 ∨ source = 0x11 ∨ chanNotCounted s n = false)) ∧ (countFault source unit lvl s).2 = true) ∧
    (∃ (source : Nat), ∃ (unit : Nat), ∃ (lvl : Nat), ∃ (s : State), ((∀ n, faultChannel source unit = some n → source = 0x10 ∨ source = 0x11 ∨ chanNotCounted s n = false)) ∧ (countFault source unit lvl s).2 = false) :=
  ⟨(⟨1, 2, up, fun n h => Or.inr (Or.inr (by cases h; decide +kernel))⟩),
   (⟨1, 2, up, 1, 3, fun n h => Or.inr (Or.inr (by cases h; decide +kernel)), by decide +kernel⟩),
   (⟨1, 2, 2, { up with health := { faults := [(faultKey 1 2, { times := List.replicate 1000 0 })] } }, fun n h => Or.inr (Or.inr (by cases h; decide +kernel)), by decide +kernel⟩),
   (⟨1, 2, 2, up, fun n h => Or.inr (Or.inr (by cases h; decide +kernel)), by decide +kernel⟩)⟩

theorem test_met_MeasurementsAndWrites :
    (∃ (s : State), s.pcie.training = true) ∧
    (∃ (s : State), s.pcie.training = false) ∧
    (∃ (l : List Nat), ∃ (s : State), s.batt.mainPower = true ∧ l.length ≤ 10) ∧
    (∃ (l : List Nat), ∃ (s : State), s.batt.mainPower = true ∧ (l.take 20).any (fun v => decide (1680 < v)) = false) ∧
    (∃ (s : State), s.batt.mainPower = true) ∧
    (∃ (v0 : Nat), ∃ (v1 : Nat), ∃ (s : State), s.batt.mainPower = true ∧ 2600 ≤ s.health.battMv ∧ (v0 - v1) * 500 ≤ s.cfg 0x2010 4 * 1000) ∧
    (∃ (s : State), s.health.battMv < 2600) ∧
    (∃ (s : State), s.batt.mainPower = true ∧ s.pins.almForced = false) ∧
    (∃ (s : State), s.batt.mainPower = false) ∧
    (∃ (master : Nat), ∃ (a : Nat), ∃ (size : Nat), ∃ (w : Viol), ∃ (s : State), accessVerdict s master .write a size = some w) ∧
    (∃ (master : Nat), ∃ (a : Nat), ∃ (size : Nat), ∃ (s : State), accessVerdict s master .write a size = none ∧ isReg (resolve s master a) = false) ∧
    (∃ (master : Nat), ∃ (a : Nat), ∃ (size : Nat), ∃ (v : Nat), ∃ (u : State), ∃ (s : State), accessVerdict s master .write a size = none ∧ isReg (resolve s master a) = true ∧ regWrite master (resolve s master a) size (v % 2 ^ (8 * size)) s = .done u) :=
  ⟨(⟨{ up with pcie := { training := true } }, by decide +kernel⟩),
   (⟨up, by decide +kernel⟩),
   (⟨[720], up, by decide +kernel, by decide +kernel⟩),
   (⟨[1680, 25], up, by decide +kernel, by decide +kernel⟩),
   (⟨up, by decide +kernel⟩),
   (⟨3000, 2999, { up with od := [(odKey 0x2010 4, 10)], health := { battMv := 2600 } }, by decide +kernel, by decide +kernel, by decide +kernel⟩),
   (⟨{ up with health := { battMv := 2599 } }, by decide +kernel⟩),
   (⟨up, by decide +kernel, by decide +kernel⟩),
   (⟨{ up with batt := { mainPower := false } }, by decide +kernel⟩),
   (⟨0, 0x100000000, 4, { rule := 0xFFF, noMatch := true }, up, by decide +kernel⟩),
   (⟨0x50, 0x400000, 4, up, by decide +kernel, by decide +kernel⟩),
   (⟨0x51, 0x50000004, 4, 256, _, up, by decide +kernel, by decide +kernel, rfl⟩)⟩

theorem test_met_CountersAndLevel :
    (∃ (i : Nat), ∃ (sub : Nat), ∃ (unit : Nat), ctrKey i sub unit ≠ ctrKey 0x9001 4 0) ∧
    (∃ (i : Nat), ∃ (sub : Nat), ∃ (unit : Nat), ∃ (n : Nat), ∃ (s : State), ctrKey i sub unit ≠ ctrKey 0x9001 4 0 ∧ s.count i sub unit < ctrMax i sub ∧ ctrMax i sub ≤ s.count i sub unit + n) ∧
    (∃ (i : Nat), ∃ (sub : Nat), ∃ (unit : Nat), ∃ (j : Nat), ctrKey i sub unit ≠ ctrKey 0x9001 4 0 ∧ j ≠ ctrKey i sub unit ∧ j ≠ ctrKey 0x9001 4 0) ∧
    (∃ (e : Nat × Alarm), e.2.state ≠ .clear) ∧
    (∃ (s : State), levelHeld s ≠ 0) :=
  ⟨(⟨0x9068, 5, 0, by decide +kernel⟩),
   (⟨0x9068, 5, 0, 2 ^ 64, up, by decide +kernel, by decide +kernel, by decide +kernel⟩),
   (⟨0x9068, 5, 0, 0, by decide +kernel, by decide +kernel, by decide +kernel⟩),
   (⟨(5, { state := .held, raised := 3 }), by decide +kernel⟩),
   (⟨{ up with alarms := [(5, { state := .held, raised := 3 })] }, by decide +kernel⟩)⟩

theorem test_met_StepTakesFront :
    (∃ (c : Instr), ∃ (q : List Instr), ∃ (s : State), s.pending = c :: q) ∧
    (∃ (s : State), s.pending = []) :=
  ⟨(⟨.program, [.erase], { up with pending := [.program, .erase] }, by decide +kernel⟩),
   (⟨up, by decide +kernel⟩)⟩

theorem test_met_MemoryStaysCanonical :
    (∃ (s : State), ∃ (t : State), step s = .next t ∧ memWf s.mem = true) :=
  (⟨{ up with mem := [(5, 7)] }, _, rfl, by decide +kernel⟩)

theorem test_met_FusesStayBlown :
    (∃ (s : State), ∃ (t : State), step s = .next t) ∧
    (∃ (s : State), ∃ (t : State), step s = .next t ∧ 2 ≤ s.life.fuses.shipped) ∧
    (∃ (s : State), ∃ (t : State), step s = .next t ∧ 2 ≤ s.life.fuses.decommissioned) ∧
    (∃ (s : State), ∃ (t : State), step s = .next t) ∧
    (∃ (s : State), ∃ (t : State), step s = .next t) ∧
    (∃ (s : State), ∃ (t : State), step s = .next t) :=
  ⟨(⟨up, _, rfl⟩),
   (⟨{ up with life := { fuses := { shipped := 2 } } }, _, rfl, by decide +kernel⟩),
   (⟨{ up with life := { fuses := { decommissioned := 3 } } }, _, rfl, by decide +kernel⟩),
   (⟨up, _, rfl⟩),
   (⟨up, _, rfl⟩),
   (⟨up, _, rfl⟩)⟩

theorem test_met_OrtanRoundTrip :
    (∃ (i : Instr), ∃ (w : Nat), wellFormed i = true ∧ Ortan.encode i = some w ∧ ((∀ c q rd ra rb sd sa u, i = .bcopy c q rd ra rb sd sa u → u = Ortan.allUnits)) ∧ ((∀ c q rd ra rb sd u, i = .bfill c q rd ra rb sd u → u = Ortan.allUnits)) ∧ ((∀ c q rd ra rb sd sa pd u, i = .bcmpeq c q rd ra rb sd sa pd u → u = Ortan.allUnits))) ∧
    (∃ (i : Instr), ∃ (w : Nat), wellFormed i = true ∧ Ortan.encode i = some w ∧ ((∀ c q rd ra rb sd sa u, i = .bcopy c q rd ra rb sd sa u → u = Ortan.allUnits)) ∧ ((∀ c q rd ra rb sd u, i = .bfill c q rd ra rb sd u → u = Ortan.allUnits)) ∧ ((∀ c q rd ra rb sd sa pd u, i = .bcmpeq c q rd ra rb sd sa pd u → u = Ortan.allUnits))) :=
  ⟨(⟨.add 3 ⟨0, false⟩ 1 2 (.imm 5) true, _, by decide +kernel, rfl, (by intro _ _ _ _ _ _ _ _ h; cases h), (by intro _ _ _ _ _ _ _  h; cases h), (by intro _ _ _ _ _ _ _ _ _ h; cases h)⟩),
   (⟨.bcopy 3 ⟨0, false⟩ 1 2 3 4 5 Ortan.allUnits, _, by decide +kernel, rfl, (by intro _ _ _ _ _ _ _ _ h; cases h; rfl), (by intro _ _ _ _ _ _ _  h; cases h), (by intro _ _ _ _ _ _ _ _ _ h; cases h)⟩)⟩

theorem test_met_OrtanWordsDecode :
    (∃ (c : Nat), ((c < 72 ∨ c = 0x50 ∨ c = 0x51))) ∧
    (∃ (c : Nat), ((c < 72 ∨ c = 0x50 ∨ c = 0x51))) ∧
    (∃ (c : Nat), ((c < 72 ∨ c = 0x50 ∨ c = 0x51))) :=
  ⟨(⟨71, Or.inl (by decide +kernel)⟩),
   (⟨0x50, Or.inr (Or.inl rfl)⟩),
   (⟨0x51, Or.inr (Or.inr rfl)⟩)⟩

end Sys2Proof.Tests
end

/-! SUPPORT. What a running request gets from the service of its code: the checks of its layout, the batch it names, the
refusal that changes nothing but the answer (R128), and the end of a customer program (R143). -/

namespace Sys2Proof.Machine

-- The answer of a service

theorem modReq_of_req {s : State} {r : Nat} {q : Request} (h : s.req? r = some q) (f : Request → Request) :
    s.modReq r f = s.setReq r (f q) := by
  simp [State.modReq, h]

@[simp] theorem finish_ok (r : Nat) (p : Bytes) (s : State) :
    finish r (.ok p s) = s.modReq r (fun q => { q with status := 0, detail := 0, response := p, ready := true }) := rfl

@[simp] theorem finish_fail (r st d : Nat) (s : State) :
    finish r (.fail st d s) = s.modReq r (fun q => { q with status := st, detail := d, response := [], ready := true }) := rfl

theorem serve_of_serving {s : State} {r code n : Nat} {q : Request} (h : Serving s r code n q)
    (f : Nat → Request → State → Stp Bytes) : serve r code f s = .next (finish r (f n q s)) := by
  obtain ⟨hreq, ⟨c, hstage⟩, hcode, hready⟩ := h
  simp [serve, hreq, hstage, hcode, hready]

/-- A service that fails in the state it began in refuses its request and has no effect but the answer. -/
theorem does_refusal {c : Instr} {s : State} {r code n st : Nat} {q : Request} {f : Nat → Request → State → Stp Bytes}
    (hexec : exec c s = serve r code f s) (h : Serving s r code n q) (hfail : f n q s = .fail st 0 s) :
    Does c s (fun t =>
      t.svc = s.svc ∧ (∃ q', t.req? r = some q' ∧ q'.status = st ∧ q'.response = []) ∧ t = { s with reqs := t.reqs }) := by
  have hreq : s.req? r = some q := h.1
  refine ⟨s.setReq r { q with status := st, detail := 0, response := [], ready := true }, ?_, rfl, ?_, rfl⟩
  · rw [hexec, serve_of_serving h, hfail, finish_fail, modReq_of_req hreq]
  · exact ⟨_, req_setReq_same s r _, rfl, rfl⟩

-- The first two stages of R94

theorem checked_of_pass {α : Type} {stage1 : Option Nat} {stage2 : List (Bool × Nat)} (h1 : stage1 = none)
    (h2 : firstFail stage2 = none) (s : State) (f : State → Stp α) : checked stage1 stage2 s f = f s := by
  simp [checked, h1, h2]

theorem any_not_allZero_eq_false {p : Bytes} {fields : List (Nat × Nat)}
    (h : ∀ e ∈ fields, allZero (slice p e.1 e.2) = true) :
    fields.any (fun e => !allZero (slice p e.1 e.2)) = false := by
  simpa using h

/-- The layout of a payload without variable parts. -/
theorem layoutFail_fixed {p : Bytes} {fixed : Nat} {resv : List (Nat × Nat)} (hlen : p.length = fixed)
    (hresv : ∀ e ∈ resv, allZero (slice p e.1 e.2) = true) : layoutFail p fixed [] resv = none := by
  simp [layoutFail, hlen, any_not_allZero_eq_false hresv]

/-- The layout of a payload with one variable part, of length `len`. -/
theorem layoutFail_oneVar {p : Bytes} {fixed len : Nat} {resv : List (Nat × Nat)} (hlen : p.length = fixed + pad8 len)
    (hresv : ∀ e ∈ resv, allZero (slice p e.1 e.2) = true)
    (hpad : allZero (slice p (fixed + len) (pad8 len - len)) = true) : layoutFail p fixed [len] resv = none := by
  simp [layoutFail, hlen, hpad, any_not_allZero_eq_false hresv]

-- The batch of a request (R128)

theorem withBatch_of_used {α : Type} {r o : Nat} {q : Request} {h : Nat} {s : State} {b : Batch} (hb : s.batch? h = some b)
    (ht : b.tenant = q.hdr.tenant) (hbusy : b.busy = some o) (ho : o ≠ r) (f : Batch → State → Stp α) :
    withBatch r q h s f = .fail 0x040B 0 s := by
  simp [withBatch, hb, ht, hbusy, ho]

theorem withBatch_of_unused {α : Type} {r : Nat} {q : Request} {h : Nat} {s : State} {b : Batch} (hb : s.batch? h = some b)
    (ht : b.tenant = q.hdr.tenant) (hbusy : b.busy = none ∨ b.busy = some r) (f : Batch → State → Stp α) :
    withBatch r q h s f = f b s := by
  obtain hbusy | hbusy := hbusy <;> simp [withBatch, hb, ht, hbusy]

/-- A payload of BATCH_APPEND as R127 lays it out. -/
structure AppendPayload (p : Bytes) : Prop where
  length : p.length = 16 + pad8 (leAt p 8 2)
  reserved : allZero (slice p 10 6) = true
  padding : allZero (slice p (16 + leAt p 8 2) (pad8 (leAt p 8 2) - leAt p 8 2)) = true
  lenPos : 0 < leAt p 8 2
  lenMax : leAt p 8 2 ≤ 16368

theorem AppendPayload.layout_passes {p : Bytes} (h : AppendPayload p) : layoutFail p 16 [leAt p 8 2] [(10, 6)] = none :=
  layoutFail_oneVar h.length (by simpa using h.reserved) h.padding

theorem AppendPayload.length_passes {p : Bytes} (h : AppendPayload p) :
    firstFail [(leAt p 8 2 = 0 || 16368 < leAt p 8 2, 0x0405)] = none := by
  simpa [firstFail, Nat.ne_of_gt h.lenPos] using h.lenMax

theorem batchAppend_of_used {r o : Nat} {q : Request} {s : State} {b : Batch} (hp : AppendPayload q.payload)
    (hb : s.batch? (leAt q.payload 0 4) = some b) (ht : b.tenant = q.hdr.tenant) (hbusy : b.busy = some o) (ho : o ≠ r) :
    batchAppend r q s = .fail 0x040B 0 s := by
  rw [batchAppend, checked_of_pass hp.layout_passes hp.length_passes, withBatch_of_used hb ht hbusy ho]

theorem batchAppend_outOfOrder {r : Nat} {q : Request} {s : State} {b : Batch} (hp : AppendPayload q.payload)
    (hb : s.batch? (leAt q.payload 0 4) = some b) (ht : b.tenant = q.hdr.tenant) (hbusy : b.busy = none ∨ b.busy = some r)
    (hno : leAt q.payload 4 4 ≠ (b.appends + 1) % 2 ^ 32) : batchAppend r q s = .fail 0x040C 0 s := by
  rw [batchAppend, checked_of_pass hp.layout_passes hp.length_passes, withBatch_of_unused hb ht hbusy, if_pos hno]

theorem batchClose_of_used {r n o : Nat} {q : Request} {s : State} {b : Batch} (hlen : q.payload.length = 16)
    (hb : s.batch? (leAt q.payload 0 4) = some b) (ht : b.tenant = q.hdr.tenant) (hbusy : b.busy = some o) (ho : o ≠ r) :
    batchClose r n q s = .fail 0x040B 0 s := by
  rw [batchClose, checked_of_pass (layoutFail_fixed hlen (by simp)) rfl, withBatch_of_used hb ht hbusy ho]

theorem batchAbort_of_used {r o : Nat} {q : Request} {s : State} {b : Batch} (hlen : q.payload.length = 8)
    (hresv : allZero (slice q.payload 4 4) = true) (hb : s.batch? (leAt q.payload 0 4) = some b)
    (ht : b.tenant = q.hdr.tenant) (hbusy : b.busy = some o) (ho : o ≠ r) : batchAbort r q s = .fail 0x040B 0 s := by
  rw [batchAbort, checked_of_pass (layoutFail_fixed hlen (by simpa using hresv)) rfl, withBatch_of_used hb ht hbusy ho]

/-- Settles O12: in each case the service fails before it touches the batch. -/
theorem batchOneAtATime : Obligations.BatchOneAtATime := by
  unfold Obligations.BatchOneAtATime
  refine ⟨?append, ?close, ?abort, ?order⟩
  case append =>
    intro r n q b o s hs hlen hresv hpad hpos hmax hb ht hbusy ho
    exact does_refusal rfl hs (batchAppend_of_used ⟨hlen, hresv, hpad, hpos, hmax⟩ hb ht hbusy ho)
  case close =>
    intro r n q b o s hs hlen hb ht hbusy ho
    exact does_refusal rfl hs (batchClose_of_used hlen hb ht hbusy ho)
  case abort =>
    intro r n q b o s hs hlen hresv hb ht hbusy ho
    exact does_refusal rfl hs (batchAbort_of_used hlen hresv hb ht hbusy ho)
  case order =>
    intro r n q b s hs hlen hresv hpad hpos hmax hb ht hbusy hno
    exact does_refusal rfl hs (batchAppend_outOfOrder ⟨hlen, hresv, hpad, hpos, hmax⟩ hb ht hbusy hno)

-- The end of a customer program (R143)

theorem programEnd_overBudget (status : Nat) (payload : Bytes) (img : Image) (s : State) :
    programEnd 2 status payload img s = .fail 0x0503 0 s := rfl

theorem programEnd_faulted (status : Nat) (payload : Bytes) (img : Image) (s : State) :
    programEnd 1 status payload img s = .fail 0x04FF 0 s := rfl

theorem programEnd_success {payload : Bytes} {img : Image} (hfit : payload.length ≤ img.maxRsp) (s : State) :
    programEnd 0 0 payload img s = .ok payload s := by
  simp [programEnd, hfit]

theorem programEnd_replaced {status : Nat} {payload : Bytes} {img : Image} (hfit : payload.length ≤ img.maxRsp)
    (hne : status ≠ 0) (s : State) : programEnd 0 status payload img s = .fail 0x04FE 0 s := by
  simp [programEnd, hfit, hne]

section CustomerProgram

variable {s v : State} {r n : Nat} {q : Request} {c : Option Nat} {img : Image} {bd : Binding} {keys : List (Nat × Nat)}
  {x : Unit}
  (hreq : s.req? r = some q) (hstage : q.stage = .running n c) (hready : q.ready = false)
  (hcustomer : isCustomer q.hdr.service = true) (himg : boundImage s q.hdr.tenant q.hdr.service = some (img, bd))
  (hkeys : programKeys n q keys s = .ok x v)
include hreq hstage hready hcustomer himg hkeys

/-- A customer program whose key fetches passed ends with its own status of 0x0480 to 0x04EF, or as `programEnd` says. -/
theorem exec_customerServiceProgram (ends status : Nat) (payload : Bytes) :
    exec (.customerServiceProgram r keys ends status payload) s =
      if ends = 0 ∧ 0x0480 ≤ status ∧ status ≤ 0x04EF ∧ payload.length ≤ img.maxRsp then
        .next (v.modReq r (fun q => { q with status := status, detail := 0, response := payload, ready := true }))
      else .next (finish r (programEnd ends status payload img v)) := by
  change execCustomerServiceProgram r keys ends status payload s = _
  simp [execCustomerServiceProgram, hreq, hstage, hready, hcustomer, himg, hkeys, and_assoc]

theorem does_customerServiceProgram_passed {status : Nat} {payload : Bytes} (hlo : 0x0480 ≤ status) (hhi : status ≤ 0x04EF)
    (hfit : payload.length ≤ img.maxRsp) :
    Does (.customerServiceProgram r keys 0 status payload) s (fun t =>
      t = v.modReq r (fun q => { q with status := status, detail := 0, response := payload, ready := true })) := by
  refine ⟨_, ?_, rfl⟩
  rw [exec_customerServiceProgram hreq hstage hready hcustomer himg hkeys, if_pos ⟨rfl, hlo, hhi, hfit⟩]

theorem does_customerServiceProgram_ended {ends status : Nat} {payload : Bytes}
    (hown : ¬(ends = 0 ∧ 0x0480 ≤ status ∧ status ≤ 0x04EF)) :
    Does (.customerServiceProgram r keys ends status payload) s (fun t =>
      t = finish r (programEnd ends status payload img v)) := by
  refine ⟨_, ?_, rfl⟩
  rw [exec_customerServiceProgram hreq hstage hready hcustomer himg hkeys,
    if_neg fun ⟨h0, hlo, hhi, _⟩ => hown ⟨h0, hlo, hhi⟩]

end CustomerProgram

/-- Settles O13: a status of the program's own range is passed on, and every other end is `programEnd`'s. -/
theorem customerProgramStatus : Obligations.CustomerProgramStatus := by
  unfold Obligations.CustomerProgramStatus
  intro r n q c img bd keys x v s payload hreq hstage hready hcustomer himg hfit hkeys
  have hended {ends status : Nat} (hown : ¬(ends = 0 ∧ 0x0480 ≤ status ∧ status ≤ 0x04EF)) :=
    does_customerServiceProgram_ended (payload := payload) hreq hstage hready hcustomer himg hkeys hown
  refine ⟨?own, ?success, ?replaced, ?faulted, ?overBudget⟩
  case own =>
    intro status hlo hhi
    exact does_customerServiceProgram_passed hreq hstage hready hcustomer himg hkeys hlo hhi hfit
  case success =>
    have h := hended (ends := 0) (status := 0) (by omega)
    rwa [programEnd_success hfit] at h
  case replaced =>
    intro status hne hout
    have h := hended (ends := 0) (status := status) (by omega)
    rwa [programEnd_replaced hfit hne] at h
  case faulted =>
    intro status
    have h := hended (ends := 1) (status := status) (by omega)
    rwa [programEnd_faulted] at h
  case overBudget =>
    intro status
    have h := hended (ends := 2) (status := status) (by omega)
    rwa [programEnd_overBudget] at h

end Sys2Proof.Machine

/-! SUPPORT. What a compare or a predicate operation leaves in the predicates, what an instruction that is passed over
leaves, and the multiplications in flight: which of them an issue settles, and what a MOVM reads (R316, R318 to R322). -/

namespace Sys2Proof.Machine

-- The core after issue and after completion

/-- Core `w` is `k` after an issue: cycles have passed, and multiplications have settled or started. -/
def LikeIssued (k w : Core) : Prop :=
  w = { k with cycle := w.cycle, m := w.m, muls := w.muls } ∧ (k.muls = [] → w.m = k.m)

theorem issue_likeIssued (k : Core) (srcs : List Nat) : LikeIssued k (k.issue srcs) := by
  obtain ⟨m, mu, hi, hm⟩ := issue_eq k srcs
  rw [hi]
  exact ⟨rfl, fun e => (hm e).1⟩

theorem LikeIssued.withMuls {k w : Core} (h : LikeIssued k w) (l : List MulFlight) : LikeIssued k { w with muls := l } := by
  obtain ⟨hw, hm⟩ := h
  refine ⟨?_, hm⟩
  rw [hw]

theorem LikeIssued.withP {k w : Core} (h : LikeIssued k w) (p : BitVec 8) :
    LikeIssued { k with p := p } { w with p := p } := by
  obtain ⟨hw, hm⟩ := h
  refine ⟨?_, hm⟩
  rw [hw]

/-- A core that advances from its issue has completed its instruction. -/
theorem LikeIssued.completed {c n : Nat} {s t : State} {k w : Core} (h : LikeIssued k w)
    (hcore : t.core c = w.advance (w.pc + 8) n) (honly : OnlyCore c s t) (hpc : k.pc = (s.core c).pc)
    (hmuls : k.muls = (s.core c).muls) : Completed c s t k := by
  obtain ⟨hw, hm⟩ := h
  refine ⟨?_, fun e => ?_, honly.1⟩
  · rw [hcore, hw]
    simp [Core.advance, hpc]
  · rw [hcore]
    exact hm (hmuls.trans e)

@[simp] theorem gr_issue (k : Core) (srcs : List Nat) (r : BitVec 5) : (k.issue srcs).gr r = k.gr r := by
  rw [(issue_likeIssued k srcs).1]; rfl
@[simp] theorem pr_issue (k : Core) (srcs : List Nat) (i : BitVec 3) : (k.issue srcs).pr i = k.pr i := by
  rw [(issue_likeIssued k srcs).1]; rfl
@[simp] theorem opnd_issue (k : Core) (srcs : List Nat) (b : Opnd) : (k.issue srcs).opnd b = k.opnd b := by
  rw [(issue_likeIssued k srcs).1]; cases b <;> rfl
@[simp] theorem cycle_issue (k : Core) (srcs : List Nat) : (k.issue srcs).cycle = issueCycle k srcs := rfl
@[simp] theorem p_issue (k : Core) (srcs : List Nat) : (k.issue srcs).p = k.p := by
  rw [(issue_likeIssued k srcs).1]

@[simp] theorem pc_issue (k : Core) (srcs : List Nat) : (k.issue srcs).pc = k.pc := by
  rw [(issue_likeIssued k srcs).1]

theorem modCore_congr {s : State} {c : Nat} {f g : Core → Core} (h : f (s.core c) = g (s.core c)) :
    s.modCore c f = s.modCore c g := by
  unfold State.modCore
  rw [h]

/-- The form of an instruction that changes its own core only. -/
theorem does_change {c : Nat} {i : Instr} {s : State} {q : Pred} {srcs : List Nat} {body : State → Body} {n : Nat}
    {f : Core → Core} {P : State → Prop} (h : Issues c q s) (hx : exec i s = .next (runInsn c q srcs body s))
    (hb : body (s.modCore c (fun k => k.issue srcs)) = .next ((s.modCore c (fun k => k.issue srcs)).modCore c f) n)
    (hp : ∀ t, t.core c = (f ((s.core c).issue srcs)).advance ((f ((s.core c).issue srcs)).pc + 8) n → OnlyCore c s t →
      P t) : Does i s P := by
  refine does_next h hx hb fun t hcore hother ht => hp t ?_ ⟨fun d hd => ?_, ht⟩
  · rw [hcore, core_modCore_same, core_modCore_same]
  · rw [hother d hd, core_modCore_other _ _ hd, core_modCore_other _ _ hd]

/-- An instruction whose predicate does not hold takes a cycle and has no other effect. -/
theorem does_pass {c : Nat} {i : Instr} {s : State} {q : Pred} {srcs : List Nat} {body : State → Body}
    (hrun : (s.core c).run = .running) (habe : abeDeliverable (s.core c) = false) (hevent : eventDue (s.core c) = none)
    (hfetch : fetchCheck c s = (none, s)) (hpred : (s.core c).predOk q = false)
    (hx : exec i s = .next (runInsn c q srcs body s)) :
    Does i s (fun t => Completed c s t (s.core c) ∧ t = { s with cores := t.cores }) := by
  refine ⟨s.modCore c (fun k => (k.issue []).advance (k.pc + 8) 1), ?_, ?_, rfl⟩
  · rw [hx]
    simp [runInsn, atBoundary, hrun, habe, hevent, hfetch, hpred]
  · refine (issue_likeIssued (s.core c) []).completed (n := 1) ?_ ⟨fun d hd => core_modCore_other _ _ hd, rfl⟩ rfl rfl
    rw [core_modCore_same, pc_issue]

-- The predicates (R318, R319)

theorem setP_eq (k : Core) (i : BitVec 3) (v : Bool) : k.setP i v = { k with p := (k.setP i v).p } := by
  unfold Core.setP
  split
  · rfl
  · split <;> rfl

theorem getLsbD_oneBit (i j : BitVec 3) : (1#8 <<< i.toNat).getLsbD j.toNat = decide (j = i) := by
  have hi : i.toNat < 8 := i.isLt
  rw [← BitVec.twoPow_eq, BitVec.getLsbD_twoPow]
  simp [hi, BitVec.toNat_inj, eq_comm]

theorem getLsbD_writeBit (p : BitVec 8) (i j : BitVec 3) (v : Bool) :
    (if v then p ||| (1#8 <<< i.toNat) else p &&& ~~~(1#8 <<< i.toNat)).getLsbD j.toNat =
      if j = i then v else p.getLsbD j.toNat := by
  have hj : j.toNat < 8 := j.isLt
  cases v with
  | false =>
    rw [if_neg Bool.false_ne_true, BitVec.getLsbD_and, BitVec.getLsbD_not, getLsbD_oneBit]
    by_cases hji : j = i <;> simp [hji, hj]
  | true =>
    rw [if_pos rfl, BitVec.getLsbD_or, getLsbD_oneBit]
    by_cases hji : j = i <;> simp [hji]

theorem setP_of_ne (k : Core) {i : BitVec 3} (v : Bool) (hi : i ≠ 0) :
    k.setP i v = { k with p := if v then k.p ||| (1#8 <<< i.toNat) else k.p &&& ~~~(1#8 <<< i.toNat) } := by
  unfold Core.setP
  rw [if_neg hi]
  cases v <;> rfl

theorem pr_of_ne (k : Core) {j : BitVec 3} (hj : j ≠ 0) : k.pr j = k.p.getLsbD j.toNat := by
  unfold Core.pr
  rw [decide_eq_false hj, Bool.false_or]

theorem pr_setP (k : Core) (i j : BitVec 3) (v : Bool) :
    (k.setP i v).pr j = if j = 0 then true else if j = i then v else k.pr j := by
  by_cases hj : j = 0
  · simp [Core.pr, hj]
  by_cases hi : i = 0
  · have hji : j ≠ i := hi ▸ hj
    rw [if_neg hj, if_neg hji, Core.setP, if_pos hi]
  · rw [if_neg hj, setP_of_ne k v hi, pr_of_ne _ hj, pr_of_ne k hj, getLsbD_writeBit]

/-- The form of an instruction that writes predicates. -/
theorem pResult_of {c : Nat} {i : Instr} {s : State} {q : Pred} {srcs : List Nat} {body : State → Body} {n : Nat}
    {f : Core → Core} {r : BitVec 3 → Bool} (h : Issues c q s) (hx : exec i s = .next (runInsn c q srcs body s))
    (hb : body (s.modCore c (fun k => k.issue srcs)) = .next ((s.modCore c (fun k => k.issue srcs)).modCore c f) n)
    (hf : ∀ k, f k = { k with p := (f k).p }) (hr : ∀ j, (f ((s.core c).issue srcs)).pr j = r j) :
    PResult c i s r := by
  refine does_change h hx hb fun t hcore honly => ⟨fun j => ?_, ?_, honly.2⟩
  · rw [hcore]
    exact hr j
  · have hp : (t.core c).p = (f ((s.core c).issue srcs)).p := by rw [hcore]; rfl
    rw [hf] at hcore
    rw [hp]
    exact ((issue_likeIssued (s.core c) srcs).withP _).completed hcore honly rfl rfl

theorem pResult_cmp {c : Nat} {q : Pred} {s : State} (h : Issues c q s) {pd pd2 : BitVec 3} (hpd : pd ≠ pd2 ∨ pd = 0)
    (ra : BitVec 5) (b : Opnd) (cond : Cond) (w : Bool) :
    PResult c (.cmp c q pd pd2 ra b cond w) s (fun j => if j = 0 then true
      else if j = pd then cmpVal cond w ((s.core c).gr ra) ((s.core c).opnd b)
      else if j = pd2 then !cmpVal cond w ((s.core c).gr ra) ((s.core c).opnd b) else (s.core c).pr j) := by
  have hok : ¬(pd = pd2 ∧ pd ≠ 0) := fun ⟨heq, hne⟩ => hpd.elim (· heq) hne
  refine pResult_of h (if_neg hok) rfl (fun k => ?_) (fun j => ?_)
  · rw [setP_eq, setP_eq k]
  · simp only [pr_setP, core_modCore_same, gr_issue, opnd_issue, pr_issue]
    by_cases hj : j = 0
    · simp only [if_pos hj]
    by_cases hd : j = pd
    · have hd2 : j ≠ pd2 := fun e => hok ⟨hd.symm.trans e, hd ▸ hj⟩
      simp only [if_neg hj, if_pos hd, if_neg hd2]
    · simp only [if_neg hj, if_neg hd]

theorem pResult_predOp {c : Nat} {i : Instr} {q : Pred} {s : State} (h : Issues c q s) {pd pa pb : BitVec 3}
    {f : Bool → Bool → Bool} (hx : exec i s = predOp c q pd pa pb f s) :
    PResult c i s (fun j => if j = 0 then true
      else if j = pd then f ((s.core c).pr pa) ((s.core c).pr pb) else (s.core c).pr j) := by
  refine pResult_of (f := fun k => k.setP pd (f (k.pr pa) (k.pr pb))) h hx rfl (fun k => setP_eq k _ _) (fun j => ?_)
  simp only [pr_setP, pr_issue]

theorem pResult_pset {c : Nat} {q : Pred} {s : State} (h : Issues c q s) (rg : BitVec 5) :
    PResult c (.pset c q rg) s (fun j => j = 0 || ((s.core c).gr rg).getLsbD j.toNat) := by
  refine pResult_of h rfl rfl (fun k => rfl) (fun j => ?_)
  by_cases hj : j = 0
  · simp [Core.pr, hj]
  · have hj8 : j.toNat < 8 := j.isLt
    have hj0 : j.toNat ≠ 0 := fun e => hj (BitVec.eq_of_toNat_eq e)
    rw [pr_of_ne _ hj, decide_eq_false hj, gr_issue]
    simp [hj8, hj0]

/-- The form of an instruction that computes a general register from its core and sets no SATF. -/
theorem gResult_write {c : Nat} {i : Instr} {s : State} {rd : BitVec 5} {v : Word} {q : Pred} {srcs : List Nat}
    {body : State → Body} {n : Nat} {f : Core → Core} (h : Issues c q s)
    (hx : exec i s = .next (runInsn c q srcs body s))
    (hb : body (s.modCore c (fun k => k.issue srcs)) = .next ((s.modCore c (fun k => k.issue srcs)).modCore c f) n)
    (hf : f ((s.core c).issue srcs) = ((s.core c).issue srcs).setG rd v) : GResult c i s rd v false := by
  have hsame : (s.modCore c (fun k => k.issue srcs)).modCore c f =
      (s.modCore c (fun k => k.issue srcs)).modCore c (fun k => k.setG rd v) :=
    modCore_congr (by rw [core_modCore_same, hf])
  exact gResult_of (f := fun k => k.setG rd v) h hx (hb.trans (congrArg (Body.next · n) hsame)) (fun _ => ⟨_, rfl⟩)

theorem gResult_pget {c : Nat} {q : Pred} {s : State} (h : Issues c q s) (rg : BitVec 5) :
    GResult c (.pget c q rg) s rg (((s.core c).p ||| 1).setWidth 64) false := by
  refine gResult_write (f := fun k => k.setG rg k.predByte) h rfl rfl ?_
  rw [Core.predByte, p_issue]

-- The multiplier (R320 to R322)

/-- A multiplication puts its product in flight, to be read from its latency on. -/
theorem does_mul {c : Nat} {i : Instr} {q : Pred} {md : BitVec 2} {ra rb : BitVec 5} {latency : Nat}
    {f : Word → Word → BitVec 128} {s : State} (h : Issues c q s) (hx : exec i s = mulOp c q md ra rb latency f s) :
    Does i s (fun t =>
      (t.core c).muls = insertMul ⟨md.toNat, f ((s.core c).gr ra) ((s.core c).gr rb),
        issueCycle (s.core c) [ra.toNat, rb.toNat] + latency⟩ ((s.core c).issue [ra.toNat, rb.toNat]).muls ∧
      Completed c s t (s.core c) ∧ t = { s with cores := t.cores }) := by
  refine does_change h hx rfl fun t hcore honly => ⟨?_, ?_, honly.2⟩
  · rw [hcore]
    simp [Core.advance]
  · exact ((issue_likeIssued _ _).withMuls _).completed hcore honly rfl rfl

theorem settle_head {k : Core} {m : MulFlight} {l : List MulFlight} (hk : k.muls = m :: l)
    (hl : ∀ x, x ∈ l → m.ready < x.ready) : k.settle m.ready = { k.setM m.m m.product with muls := l } := by
  have hdue : (m :: l).filter (fun x => x.ready ≤ m.ready) = [m] := by
    simpa using fun x hx => hl x hx
  have hrest : (m :: l).filter (fun x => !decide (x.ready ≤ m.ready)) = l := by
    simpa using fun x hx => hl x hx
  simp only [Core.settle, hk, hdue, hrest, List.foldl_cons, List.foldl_nil]

/-- An issue before every product in flight is due settles none. -/
theorem issue_of_none_due {k : Core} {srcs : List Nat} (h : ∀ x, x ∈ k.muls → issueCycle k srcs < x.ready) :
    k.issue srcs = { k with cycle := issueCycle k srcs } := by
  have hdue : k.muls.filter (fun x => x.ready ≤ issueCycle k srcs) = [] := by
    simpa using h
  have hrest : k.muls.filter (fun x => !decide (x.ready ≤ issueCycle k srcs)) = k.muls := by
    simpa using h
  simp only [Core.issue, Core.settle, hdue, hrest, List.foldl_nil]

theorem mulComplete_head {c : Nat} {m : MulFlight} {l : List MulFlight} {s : State} (hk : (s.core c).muls = m :: l)
    (hcycle : (s.core c).cycle ≤ m.ready) (hl : ∀ x, x ∈ l → m.ready < x.ready) :
    Does (.mulComplete c) s (fun t =>
      t.core c = { (s.core c).setM m.m m.product with muls := l, cycle := m.ready } ∧ OnlyCore c s t) := by
  refine ⟨s.modCore c (fun k => { (k.settle (Nat.max k.cycle m.ready)) with cycle := Nat.max k.cycle m.ready }), ?_, ?_,
    fun d hd => core_modCore_other _ _ hd, rfl⟩
  · change execMulComplete c s = _
    simp only [execMulComplete, hk]
  · have hmax : Nat.max (s.core c).cycle m.ready = m.ready := Nat.max_eq_right hcycle
    rw [core_modCore_same, hmax, settle_head hk hl]

theorem mr_setM_other (k : Core) {i : BitVec 2} {j : Nat} (v : BitVec 128) (h : j ≠ i.toNat) : (k.setM j v).mr i = k.mr i :=
  tget_tset_other _ _ _ (Ne.symm h)

theorem mr_settleFold_free {i : BitVec 2} {l : List MulFlight} (h : ∀ m, m ∈ l → m.m ≠ i.toNat) (k : Core) :
    (l.foldl (fun k m => k.setM m.m m.product) k).mr i = k.mr i := by
  induction l generalizing k with
  | nil => rfl
  | cons x l ih =>
    rw [List.foldl_cons, ih (fun m hm => h m (List.mem_cons_of_mem x hm)), mr_setM_other k _ (h x List.mem_cons_self)]

theorem mr_issue_free {k : Core} {i : BitVec 2} (h : ∀ m, m ∈ k.muls → m.m ≠ i.toNat) (srcs : List Nat) :
    (k.issue srcs).mr i = k.mr i :=
  mr_settleFold_free (fun m hm => h m (List.mem_filter.mp hm).1) k

theorem noteEarly_free {k : Core} {i : BitVec 2} (h : ∀ m, m ∈ k.muls → m.m ≠ i.toNat) : k.noteEarly i = k := by
  have hnone : k.muls.any (fun m => m.m = i.toNat) = false := by
    simpa using h
  simp [Core.noteEarly, hnone]

theorem mem_muls_issue {k : Core} {srcs : List Nat} {m : MulFlight} (h : m ∈ (k.issue srcs).muls) : m ∈ k.muls :=
  (List.mem_filter.mp h).1

section Movm

variable {c : Nat} {i : Instr} {q : Pred} {rd : BitVec 5} {ms : BitVec 2} {half : BitVec 128 → Word} {s : State}
  (h : Issues c q s)
  (hx : exec i s = .next (runInsn c q [] (fun s =>
    .next (s.modCore c (fun k => (k.noteEarly ms).setG rd (half (k.mr ms)))) 1) s))
include h hx

/-- A MOVM of a register that no multiplication in flight writes reads it. -/
theorem gResult_movm (hfree : ∀ m, m ∈ (s.core c).muls → m.m ≠ ms.toNat) :
    GResult c i s rd (half ((s.core c).mr ms)) false := by
  refine gResult_write h hx rfl ?_
  rw [noteEarly_free fun m hm => hfree m (mem_muls_issue hm), mr_issue_free hfree]

/-- A MOVM while a product for its register is in flight reads the earlier value, and the first one is noted. -/
theorem does_movm_early {m : MulFlight} (hk : (s.core c).muls = [m]) (hm : m.m = ms.toNat)
    (hcycle : (s.core c).cycle < m.ready) (hnone : (s.core c).earlyRead = none) :
    Does i s (fun t =>
      (∀ r, (t.core c).gr r = if r = rd ∧ r ≠ 0 then half ((s.core c).mr ms) else (s.core c).gr r) ∧
      (t.core c).earlyRead = some ((s.core c).pc, (s.core c).status.pl) ∧ (t.core c).muls = [m] ∧ OnlyCore c s t) := by
  have hissue : (s.core c).issue [] = s.core c := issue_of_none_due (srcs := []) (by simpa [hk, issueCycle] using hcycle)
  have hnote : (s.core c).noteEarly ms = { s.core c with earlyRead := some ((s.core c).pc, (s.core c).status.pl) } := by
    simp [Core.noteEarly, hk, hm, hnone]
  refine does_change h hx rfl fun t hcore honly => ?_
  rw [hissue, hnote] at hcore
  refine ⟨fun r => ?_, ?_, ?_, honly⟩
  · rw [hcore, gr_advance, gr_setG]
    rfl
  · rw [hcore, setG_eq]
    rfl
  · rw [hcore, setG_eq]
    exact hk

end Movm

/-- Settles O21: a compare or predicate operation writes its predicates only, a MUL puts its product in flight, and a MOVM
reads the register as it stands. -/
theorem predicateAndMultiplierResults : Obligations.PredicateAndMultiplierResults := by
  unfold Obligations.PredicateAndMultiplierResults
  refine ⟨⟨fun c q s h => ⟨?cmp, ?pand, ?por, ?pxor, ?pandn, ?pset, ?pget⟩, ?pass⟩, ?mul, ?complete, ?movm, ?early⟩
  case cmp =>
    intro pd pd2 ra b cond hpd
    exact ⟨pResult_cmp h hpd ra b cond false, pResult_cmp h hpd ra b cond true⟩
  case pand => exact fun _ _ _ => pResult_predOp (f := (· && ·)) h rfl
  case por => exact fun _ _ _ => pResult_predOp (f := (· || ·)) h rfl
  case pxor => exact fun _ _ _ => pResult_predOp (f := (· ^^ ·)) h rfl
  case pandn => exact fun _ _ _ => pResult_predOp (f := fun a b => a && !b) h rfl
  case pset => exact pResult_pset h
  case pget => exact gResult_pget h
  case pass =>
    intro c q rd ra b w s hrun habe hevent hfetch hpred
    exact does_pass hrun habe hevent hfetch hpred rfl
  case mul =>
    intro c q md ra rb s h
    exact ⟨does_mul (f := fun a b => BitVec.ofInt 128 ((a.setWidth 32).toInt * (b.setWidth 32).toInt)) h rfl,
      does_mul (f := fun a b => BitVec.ofNat 128 ((a.setWidth 32).toNat * (b.setWidth 32).toNat)) h rfl,
      does_mul (f := fun a b => BitVec.ofInt 128 (a.toInt * b.toInt)) h rfl,
      does_mul (f := fun a b => BitVec.ofNat 128 (a.toNat * b.toNat)) h rfl⟩
  case complete =>
    intro c m l s hk hcycle hl
    obtain ⟨t, hx, hcore, honly⟩ := mulComplete_head hk hcycle hl
    refine ⟨t, hx, ?_⟩
    dsimp only
    rw [hcore]
    exact ⟨rfl, rfl, tget_tset_same _ _ _ _, fun j hj => tget_tset_other _ _ _ hj, rfl, honly⟩
  case movm =>
    intro c q rd ms s h hfree
    exact ⟨gResult_movm (half := fun v => v.setWidth 64) h rfl hfree,
      gResult_movm (half := fun v => v.extractLsb' 64 64) h rfl hfree⟩
  case early =>
    intro c q rd ms m s h hk hm hcycle hnone
    exact does_movm_early (half := fun v => v.setWidth 64) h rfl hk hm hcycle hnone

end Sys2Proof.Machine
